-- ==== Sys2Proof/Word.lean ====
section
/-!
DEFINITION. The word types of the SKLC6396 and their plainest readings (00_scope.md, "Numbers, units and time").
-/
namespace Sys2Proof

/-- A parameter word, a mailbox word, a frame word (R5, R362). -/
abbrev Word := BitVec 32

/-- A byte of the record store, of PMBus and of the Tarn link. -/
abbrev Byte := BitVec 8

/-- A context, its Fell cells and its switch channel, 0 to 63 (R1, R20). -/
abbrev CtxId := Fin 64

/-- A phase and its Spur, 0 to 95 (R1). -/
abbrev PhaseId := Fin 96

/-- Two to the 24th, the weight of one code in an accumulator (R46, R47). -/
def F24 : Int := 16777216

/-- The two halves of the die (R12). -/
inductive HalfId where
  | east
  | west
deriving DecidableEq, Repr

/-- The other half. -/
def HalfId.other : HalfId → HalfId
  | .east => .west
  | .west => .east

/-- The interface a request comes through: mailbox M0, mailbox M1 or PMBus (R423, R425). -/
inductive Iface where
  | m0
  | m1
  | pmb
deriving DecidableEq, Repr

/-- A Tarn port (R397). -/
inductive Port where
  | a
  | b
deriving DecidableEq, Repr

/-- The internal rails of R442. -/
inductive Supply where
  | io
  | a
  | h
  | e
  | w
deriving DecidableEq, Repr

/-- What SECDED finds in a stored or broadcast word (R16, R19, R70). -/
inductive Ecc where
  | ok
  | single
  | double
deriving DecidableEq, Repr

end Sys2Proof
end

