-- ==== Sys2Proof/Syntax.lean ====
section
/-!
DEFINITION. The commands of the block: one constructor per row of the opcode table, with the operands that the
row's event brings from outside the die. The table gives its rows no bits and no fields, so the operands are the
model's reading of what each row's rules need (log entry 11).
-/
namespace Sys2Proof

/-- Errors of one broadcast word as the two receiving ports see it (R16). -/
structure BcastErr where
  east : Ecc := .ok
  west : Ecc := .ok
deriving DecidableEq, Repr

/-- Why the clock monitor declares a loss (R309). -/
inductive ClockCause where
  | root
  | pllEast
  | pllWest
  | pllHeath
deriving DecidableEq, Repr

/-- One sample of a temperature sensor (R273, R274): an on-die reading, or none when its bias self-check fails; or
the NTC resistance of a TX input in milliohms. -/
inductive TempSample where
  | die (k : Fin 8) (reading : Option Int)
  | tx (k : Fin 16) (milliohm : Nat)
deriving DecidableEq, Repr

/-- The live readings a parameter read can return: MF pin levels (R222), supply samples (R452, R453), RC oscillator
(R454). -/
structure LivePins where
  mf : BitVec 16 := 0
  vsupIo : Nat := 0
  vsupA : Nat := 0
  vsupE : Nat := 0
  vsupW : Nat := 0
  vsupH : Nat := 0
  vin10mV : Nat := 0
  chgLimit : Bool := false
  ilimIo : Bool := false
  ilimA : Bool := false
  ilimE : Bool := false
  ilimW : Bool := false
  rcMhz : Nat := 0
  vhold10mV : Nat := 0
deriving DecidableEq, Repr

/-- The MOSI side of one SPI frame whose operation the row names: the header below its OP field (R365), the words
after it (the last is the host CRC), the bits clocked beyond the last whole word, and SPI_SCK's level at the falling
edge of SPI_CS_N (mode 3 when high, R362). -/
structure SpiFrame where
  hdr : BitVec 28
  rest : List Word
  tail : Nat := 0
  mode3 : Bool := false
deriving DecidableEq, Repr

/-- A PMBus transaction: the bytes written after the command byte, or none for a read; the PEC byte sent with a write
(R389). -/
structure PmbXfer where
  write : Option (List Byte)
  pec : Option Byte := none
deriving DecidableEq, Repr

/-- The characters of a reply as the port receives them (R403, R406, R415). -/
structure TarnChars where
  chars : List Byte
  /-- the first start bit came after the close of the reply window -/
  late : Bool := false
  /-- a stop bit read 0 -/
  framing : Bool := false
  /-- the reply was still running at the slot's end -/
  overrun : Bool := false
  /-- errors of the broadcast word in which a request of the reply goes to the cells (R16, R410) -/
  err : BcastErr := {}
deriving DecidableEq, Repr

/-- A boundary of a context, with the errors of its field-time word (R16, R172). -/
structure BoundaryWord where
  ctx : CtxId
  ft : BcastErr := {}
deriving DecidableEq, Repr

/-- What has arrived of a half's heartbeat: its eight bits, or none (R296). -/
structure Heartbeat where
  half : HalfId
  bits : Option Byte
deriving DecidableEq, Repr

/-- What the watchdog of a half has counted since the firmware's last refresh (R297). -/
structure WatchCount where
  half : HalfId
  count : Nat
deriving DecidableEq, Repr

/-- A scan with an instruction code that is BYPASS or acts as it: the code, and the bits shifted in (R475). -/
structure BypassScan where
  code : Byte
  scan : List Bool
deriving DecidableEq, Repr

/-- The commands: one constructor per row of the opcode table, in its order. -/
inductive Instr where
  -- power, reset and boot
  | vinUvloRise
  | selfSuppliesUp
  | pinDriversEnabled
  | heathSyncPulse (refClock : Bool) (pmbOhm : Nat)
  | selfTestWindowClose (eastPass westPass : Bool)
  | configRestore
  | ledgerRecovery
  | vinUvloFall
  | lastGasp (cells : Nat)
  | lastGaspStop
  | lastGaspComplete
  | vholdMinimum
  | resetNLow (ns : Nat)
  | resetNRise
  | supplyUndervoltage (r : Supply)
  | supplyRecovered (r : Supply)
  | coreUndervoltage (h : HalfId)
  | safeNLow (ns : Nat) (held : Bool)
  | clockLoss (cause : ClockCause)
  | clockReturn
  | requalification (eastPass westPass : Bool)
  -- run control
  | runReq (i : Iface)
  | rundown (i : Iface)
  | rundownComplete
  | rundownLimit
  | safeClr (i : Iface)
  -- regulation and pulses
  | innerDecision (codes : Vector (BitVec 10) 96) (irefOut : BitVec 12) (errs : List (PhaseId × BcastErr))
  | pulseEnd (p : PhaseId)
  | peakMiss (p : PhaseId)
  | outerStep (x : BoundaryWord)
  | cellScrub (c : CtxId)
  -- sensing
  | railWord (c : CtxId) (code : BitVec 12) (err : BcastErr)
  | shuntWord (c : CtxId) (code : BitVec 12) (vs : BitVec 12) (vgs : Fin 4) (err : BcastErr)
  | autoZero (p : PhaseId)
  | shuntAutoZero (c : CtxId)
  -- checks, summit
  | bindingTableScrub (h : HalfId)
  | tokenCheck
  | halfComparison
  | disagreementJudgement
  | tagMarkSilent (h : HalfId)
  | heartbeatLost (x : Heartbeat)
  | failover
  | handoverDone
  | resyncStart (h : HalfId)
  | resyncComplete (h : HalfId)
  | resyncFail (h : HalfId)
  | watchdogExpiry (x : WatchCount)
  | handover (i : Iface)
  -- parameter writes
  | commitTag
  | w1cClear (i : Iface) (index : BitVec 16) (w : Word)
  | sel (i : Iface) (c : CtxId) (w : Word)
  | swap (i : Iface) (c : CtxId) (view : Bool)
  | view (i : Iface) (c : CtxId) (v : Bool)
  | compat (i : Iface) (w : Word)
  | compatMap (i : Iface) (k : Fin 6) (w : Word)
  -- calibration
  | railP1 (i : Iface) (c : CtxId)
  | railP2 (i : Iface) (c : CtxId)
  | phaseGain (i : Iface) (p : PhaseId)
  | shuntGain (i : Iface) (c : CtxId)
  | calCaptureDone
  | calRecordWritten
  -- field time and schedule
  | tsyncEdge (falling : Bool)
  | holdover
  | arm (i : Iface)
  | ftNowHi (i : Iface)
  | ftNowLo (i : Iface)
  | gateStart (c : CtxId)
  | deferredGateStart (c : CtxId)
  | confirmationTimeout (c : CtxId)
  | conductionEdge (c : CtxId) (rising : Bool) (ago : Nat)
  -- switch channels
  | seatLow (c : CtxId)
  | seated (c : CtxId)
  | seatLost (c : CtxId)
  | fastTrip (c : CtxId) (microvolt : Int)
  | gateNotRising (c : CtxId)
  | insertionTimeout (c : CtxId)
  | foldbackTimeout (c : CtxId)
  | gateStuck (c : CtxId)
  | vgsBelow1V (c : CtxId)
  | switchOn (i : Iface) (c : CtxId)
  | switchOff (i : Iface) (c : CtxId)
  | switchClear (i : Iface) (c : CtxId)
  -- protection
  | cragCrossing (k : Fin 16) (microvolt : Int)
  | tripGroupAssert (c : CtxId)
  | tripGroupDeassert (c : CtxId)
  | retryInterval (c : CtxId)
  | retryUsedExpiry (c : CtxId)
  | faultClear (i : Iface) (c : CtxId)
  | retryReset (i : Iface) (c : CtxId)
  | zoneEvaluation (z : Fin 19) (samples : List TempSample)
  -- ledger, store, Cairn
  | ledgerTake
  | tallyEntryCommitted
  | consolidation
  | reclaim (area : Fin 3)
  | deferredWritesResume
  | hostRecordWriteDone
  | cairnRecordWrite
  | holdTest (vhold10mV : Nat) (dropMicrovolt : Nat)
  | ledgerResolveAdd (i : Iface) (item : Fin 32)
  | ledgerResolveDismiss (i : Iface) (item : Fin 32)
  | ledgerMarkClr (i : Iface) (c : CtxId)
  | cairnAck (i : Iface) (seq : Word)
  | cairnErase (i : Iface)
  | cairnEraseDone
  -- firmware
  | fwErase (i : Iface)
  | fwVerify (i : Iface)
  | fwRestart (i : Iface)
  | fwOperationDone
  | supervisorBooted (h : HalfId)
  -- SPI frames
  | writeSlot (f : SpiFrame)
  | readSlot (f : SpiFrame)
  | readStatus (f : SpiFrame)
  | doorbell (f : SpiFrame)
  | eventPop (f : SpiFrame)
  -- mailbox commands
  | paramRead (live : LivePins)
  | paramWrite
  | schedPost
  | schedCancel
  | cellStatus
  | captureRead
  | traceStart
  | traceRelease
  | ledgerRead
  | itemRead
  | cairnRead
  | configSave
  | configErase
  | identRead
  | identWrite
  | authChallenge
  | authResponse
  | authLockoutEnd
  | sessionEnd
  | sessionTimeout
  | flashWrite
  | flashRead
  -- PMBus
  | page (x : PmbXfer)
  | operation (x : PmbXfer)
  | clearFaults (x : PmbXfer)
  | storeUserAll (x : PmbXfer)
  | capability (x : PmbXfer)
  | voutMode (x : PmbXfer)
  | voutCommand (x : PmbXfer)
  | voutMax (x : PmbXfer)
  | voutTransitionRate (x : PmbXfer)
  | voutMin (x : PmbXfer)
  | voutOvFaultLimit (x : PmbXfer)
  | statusByte (x : PmbXfer)
  | statusWord (x : PmbXfer)
  | statusVout (x : PmbXfer)
  | statusIout (x : PmbXfer)
  | statusTemperature (x : PmbXfer)
  | statusCml (x : PmbXfer)
  | readVin (x : PmbXfer)
  | readVout (x : PmbXfer)
  | readIout (x : PmbXfer)
  | readTemperature1 (x : PmbXfer)
  | readTemperature2 (x : PmbXfer)
  | readPout (x : PmbXfer)
  | pmbusRevision (x : PmbXfer)
  | mfrId (x : PmbXfer)
  | mfrModel (x : PmbXfer)
  | mfrParamIndex (x : PmbXfer)
  | mfrParamValue (x : PmbXfer) (live : LivePins)
  | pmbusTimeoutReset (ms : Nat)
  -- Tarn link
  | beaconSlot (port : Port)
  | normalSlot (port : Port)
  | extendedSlot (port : Port)
  | tarnReply (port : Port) (r : TarnChars)
  | noReply (port : Port)
  | tarnRelease (i : Iface) (c : CtxId)
  | tarnStray (port : Port)
  -- JTAG
  | extest (scan : List Bool)
  | samplePreload (scan : List Bool)
  | bypass (x : BypassScan)
  | flashLoad (w : Word)
  | flashStatus
  | debugHalt (w : Word)
  | debugResume (w : Word)
  | debugStep (w : Word)
  | freeze (w : Word)
  | unfreeze (w : Word)
  | debugStatus
  -- rows added at the end of the table
  | framing (header : Word) (f : SpiFrame)
  | invalidCommand (code : Byte)
  | freshSave
  | flashLoadEraseDone
deriving DecidableEq, Repr

end Sys2Proof
end

