-- ==== Sys2Proof/Decode.lean ====
section
/-!
DEFINITION. Commands as words of the opcode table. The table gives no row any bits: a command of this block reaches
it as an event, a frame or a pin, never as a word (log entry 11).
-/
namespace Sys2Proof

/-- The command that a word spells by the table's bits: no row has bits, so none. -/
def decodeTableWord (_nbits _w : Nat) : Option Instr := none

end Sys2Proof
end

