-- ==== Sys2Proof/Machine/Arith.lean ====
section
/-!
DEFINITION. Residue-tagged values and the three helpers of R56 over mathematical integers (02_fell_cell_arithmetic.md).
-/
namespace Sys2Proof.Machine

/-- The residue of a value modulo 3: 0, 1 or 2 (R56). -/
def residue3 (x : Int) : Nat := (x % 3).toNat

/-- A stored value with the residue tag written beside it (R60). A tag is two bits. -/
structure Tagged where
  v : Int := 0
  t : Fin 4 := 0
deriving DecidableEq, Repr

/-- A value written with its residue (R60). -/
def tag (x : Int) : Tagged := ⟨x, ⟨residue3 x % 4, by omega⟩⟩

/-- A word agrees with its tag; a tag of 3 never does (R60). -/
def Tagged.ok (x : Tagged) : Bool := x.t.val == residue3 x.v

/-- A term or a sum on its way through an accumulator: its exact value, the residue that the tags of its operands
predict, and whether a tag of 3 was read (R61). -/
structure Acc where
  v : Int := 0
  p : Nat := 0
  bad : Bool := false
deriving DecidableEq, Repr

/-- An addend at the accumulator's own LSB. -/
def Tagged.acc (x : Tagged) : Acc := ⟨x.v, x.t.val % 3, x.t.val == 3⟩

/-- A term the rules form from plain operands: its residue is right by construction. -/
def accOf (x : Int) : Acc := ⟨x, residue3 x, false⟩

def Acc.add (a b : Acc) : Acc := ⟨a.v + b.v, (a.p + b.p) % 3, a.bad || b.bad⟩
def Acc.sub (a b : Acc) : Acc := ⟨a.v - b.v, (a.p + 3 - b.p % 3) % 3, a.bad || b.bad⟩
/-- A product term: X32 times C32 (R46). -/
def Acc.mul (a b : Acc) : Acc := ⟨a.v * b.v, (a.p * b.p) % 3, a.bad || b.bad⟩
/-- A 24-bit addend aligned to the accumulator (R47); 2^24 leaves residue 1. -/
def Acc.shift (a : Acc) : Acc := ⟨a.v * F24, a.p, a.bad⟩

/-- The accumulate check of R61. -/
def Acc.ok (a : Acc) : Bool := !a.bad && a.p % 3 == residue3 a.v

/-- The clamp of R56: where lo exceeds hi, a value below lo gives lo and every other gives hi. -/
def clamp (x lo hi : Int) : Int := if x < lo then lo else if x > hi then hi else x

/-- Whether `sat` clamps x (R56): the store's flag is then set and its counter rises. -/
def clamps (x lo hi : Int) : Bool := decide (x < lo) || decide (x > hi)

/-- The rounding of R53: nearest, ties up. -/
def roundTo (t d : Int) : Int := (t + d / 2) / d

/-- What one rounded stage writes: the store, its remainder register, and whether it clamped (R53 to R56). -/
structure Rounded where
  y : Int
  r : Int
  clamped : Bool
deriving DecidableEq, Repr

/-- `round_carry` of R56: no usable divisor or a result outside the bounds keeps the remainder. -/
def roundCarry (acc rem d lo hi : Int) : Rounded :=
  if d < 1 then ⟨clamp (hi + 1) lo hi, rem, true⟩
  else
    let t := acc + rem
    let y := roundTo t d
    if clamps y lo hi then ⟨clamp y lo hi, rem, true⟩ else ⟨y, t - y * d, false⟩

/-- Round to the nearest integer, ties away from zero (R160, R392, R483). -/
def roundAway (num den : Int) : Int :=
  let s : Int := if (num < 0) ≠ (den < 0) then -1 else 1
  s * (((2 * num.natAbs + den.natAbs) / (2 * den.natAbs) : Nat) : Int)

/-- Serial-number arithmetic of R482 over n bits. -/
def serialDist (n : Nat) (a b : Nat) : Nat := (a + 2 ^ n - b % 2 ^ n) % 2 ^ n
def serialNewer (n : Nat) (a b : Nat) : Bool :=
  let d := serialDist n (a % 2 ^ n) b
  decide (1 ≤ d) && decide (d ≤ 2 ^ (n - 1) - 1)
/-- "At or after": newer, equal, or exactly half the range apart (R482). -/
def serialAtOrAfter (n : Nat) (a b : Nat) : Bool :=
  let d := serialDist n (a % 2 ^ n) b
  decide (d ≤ 2 ^ (n - 1))

/-- Code ranges of R45. -/
def v24Lo : Int := -8388608
def v24Hi : Int := 8388607
def s48Lo : Int := -140737488355328
def s48Hi : Int := 140737488355327

/-- Heath fast ticks in a microsecond, a millisecond and a second (R10, table Time units). -/
def usTicks : Nat := 400
def msTicks : Nat := 400000
def sTicks : Nat := 400000000

end Sys2Proof.Machine
end

