-- ==== Sys2Proof/Machine/CellState.lean ====
section
/-!
DEFINITION. What each half holds of a context and of a phase: the Fell cell's stores, states, remainder registers,
coefficient banks and counts (02_fell_cell_arithmetic.md, 03_regulation_law.md, 11_ledger_and_record_store.md), and
the Spur timing block's sets, pulse and stores of a phase (04_spurs_and_pulses.md).
-/
namespace Sys2Proof.Machine

/-- Replace one entry of a table. -/
def upd {α : Type} {n : Nat} (v : Vector α n) (i : Fin n) (f : α → α) : Vector α n := v.set i (f v[i])

/-- Apply a function to every entry of a table. -/
def every {α β : Type} {n : Nat} (v : Vector α n) (f : Fin n → α → β) : Vector β n := Vector.ofFn (fun i => f i v[i])

/-- One boundary as R95, R212 and R338 look back on it: its sample enable, counted from the sync pulse, and what the
outer step left in VMEAS, REF and ICMD. -/
structure Boundary where
  enable : Nat := 0
  vmeas : Tagged := {}
  ref : Tagged := {}
  icmd : Tagged := {}
deriving DecidableEq, Repr

/-- A capture RAM word and what its SECDED code would find (R67, R70). -/
structure CapWord where
  w : Word := 0
  ecc : Ecc := .ok
deriving DecidableEq, Repr

/-- A word that the Saddle writes into a half: the value it last wrote, and the tagged word the half holds (R60). -/
structure HeldWord where
  written : Int := 0
  word : Tagged := {}
deriving DecidableEq, Repr
/-- The held word where the value to hold is v: a new value is written with its tag, an unchanged one stands. -/
def HeldWord.hold (x : HeldWord) (v : Int) : HeldWord := if x.written = v then x else ⟨v, tag v⟩

/-- The parameter and calibration words that the stages of a cell read beside its banks (R77, R81, R90, R92, R94, R97, R145),
the operand of a request in force (R412, R413), the step limit and the target of REF (R74, R77), and the injection of the boundary
(R81, R89, R216). -/
inductive CellWord where
  | vgain
  | voff
  | loadline
  | kbal
  | kOn
  | toff
  | trackRatio
  | trackOffset
  | icmd
  | request
  | vslew
  | target
  | injV
  | injI
deriving DecidableEq, Repr
def CellWord.all : List CellWord :=
  [.vgain, .voff, .loadline, .kbal, .kOn, .toff, .trackRatio, .trackOffset, .icmd, .request, .vslew, .target, .injV,
   .injI]
def CellWord.ix : CellWord → Fin 14
  | .vgain => 0
  | .voff => 1
  | .loadline => 2
  | .kbal => 3
  | .kOn => 4
  | .toff => 5
  | .trackRatio => 6
  | .trackOffset => 7
  | .icmd => 8
  | .request => 9
  | .vslew => 10
  | .target => 11
  | .injV => 12
  | .injI => 13

/-- One Fell cell: the context's cell in one half. -/
structure Cell where
  /-- last valid window word, ISW word and raw shunt word at the port, with their sample tags (R15, R16, R142, R145, R151): the last two
  travel together -/
  port : Tagged := {}
  portTag : Nat := 0
  portIsw : Tagged := {}
  portRaw : Tagged := {}
  iswTag : Nat := 0
  /-- the window word and the ISW word at the port have been used by no stage yet, and the words discarded unused (R17) -/
  portUnused : Bool := false
  iswUnused : Bool := false
  discarded : Nat := 0
  /-- last valid field-time word, in 1/256 microsecond (R16, R60, R172) -/
  ftWord : Tagged := {}
  words : Vector HeldWord 14 := Vector.replicate 14 {}
  vmeas : Tagged := {}
  ref : Tagged := {}
  pos : Tagged := {}
  err : Tagged := {}
  der : Tagged := {}
  int : Tagged := {}
  pid : Tagged := {}
  bq1 : Tagged := {}
  bq1s1 : Tagged := {}
  bq1s2 : Tagged := {}
  bq2 : Tagged := {}
  bq2s1 : Tagged := {}
  bq2s2 : Tagged := {}
  icmd : Tagged := {}
  errPrev : Tagged := {}
  iff : Tagged := {}
  iffPrev : Tagged := {}
  remVmeas : Tagged := {}
  remRef : Tagged := {}
  remPos : Tagged := {}
  remDer : Tagged := {}
  remPid : Tagged := {}
  remBq1 : Tagged := {}
  remBq2 : Tagged := {}
  /-- remainder of the tracked command of R214 -/
  remIcmd : Tagged := {}
  bankA : Vector Tagged 15 := Vector.replicate 15 {}
  bankB : Vector Tagged 15 := Vector.replicate 15 {}
  /-- LAW_CTL.ACTIVE: true while bank B is active -/
  bankBActive : Bool := false
  /-- the words of the bank in force before a swap, until the outer step of the swap (R103) -/
  swapOld : Option (Vector Tagged 15) := none
  /-- the last outer step was that of a swap: its stages left KI, KD, A_D and KAW of the new bank unread (R63, R103) -/
  swapped : Bool := false
  /-- the leader's ICMD taken at the last boundary at which the leader was not lost (R213) -/
  trackI : Tagged := {}
  satFlags : BitVec 16 := 0
  satCounts : Vector Nat 16 := Vector.replicate 16 0
  /-- flags, counts and PULSE_STATUS bits of earlier fab cycles (R7, R51): the fields beside hold the present fab cycle's -/
  oldSat : BitVec 16 := 0
  oldSatCounts : Vector Nat 16 := Vector.replicate 16 0
  oldPulse : Word := 0
  intAtBound : Bool := false
  /-- cell residue errors since BOOT; R65 reads at most 0xFFFF of it -/
  residueErrors : Nat := 0
  nAct : Nat := 0
  dwell : Nat := 0
  pointer : PhaseId := 0
  deficit : Int := 0
  shortCount : Nat := 0
  clipCount : Nat := 0
  peakMiss : Bool := false
  clipped : Bool := false
  skipped : Bool := false
  stretched : Bool := false
  /-- the last cell tick in which a decision of this context was presented (R100) -/
  presented : Nat := 0
  last : Boundary := {}
  prev : Boundary := {}
  /-- capture RAM: only words that were written, in rising address (R67) -/
  capture : List (Nat × CapWord) := []
  /-- charge and energy remainders of R338 -/
  qRem : Tagged := {}
  eRem : Tagged := {}
  /-- uncommitted and staged charge and energy (R338, R341) -/
  uCharge : Tagged := {}
  uEnergy : Tagged := {}
  sCharge : Tagged := {}
  sEnergy : Tagged := {}
deriving DecidableEq, Repr

/-- A held word of a cell. -/
def Cell.w (k : Cell) (x : CellWord) : Tagged := k.words[x.ix].word
/-- The held words follow the values in force. -/
def Cell.hold (k : Cell) (f : CellWord → Int) : Cell :=
  CellWord.all.foldl (fun k x => { k with words := upd k.words x.ix (fun h => h.hold (f x)) }) k

/-- The states of R111 that a timing block holds. -/
inductive PhState where
  | unbound
  | parked
  | active
  | on
  | held
deriving DecidableEq, Repr

/-- A set of timing words (R124). -/
structure TimingSet where
  tmin : Nat := 384
  dtRise : Nat := 256
  dtFall : Nat := 256
  tpause : Nat := 384
  tonMax : Nat := 12800
  thr : Nat := 0
deriving DecidableEq, Repr

/-- A pulse in flight, in edge steps after the sync pulse: its start S, its minimum m, where its high side falls and
where it ends, when those are decided (R118, R119, R128); what happens at its end. -/
structure Pulse where
  start : Nat
  min : Nat
  fall : Option Nat
  endAt : Option Nat
  paired : Bool
  parks : Bool := false
deriving DecidableEq, Repr

/-- One phase in one half. -/
structure HPhase where
  state : PhState := .unbound
  /-- the context whose binding the timing block holds, 0 for the free pool (R134) -/
  bind : CtxId := 0
  /-- released by its context, parks at its pulse's end (R22) -/
  leaving : Bool := false
  /-- sample in which it last parked in the free pool -/
  parkedTag : Option Nat := none
  iph : Tagged := {}
  bal : Tagged := {}
  thr : Tagged := {}
  ton : Tagged := {}
  remIph : Tagged := {}
  remBal : Tagged := {}
  remThr : Tagged := {}
  remTonN : Tagged := {}
  remTonD : Tagged := {}
  /-- the pending set, and words that landed in it at a fast tick and reach the active set at a later reload (R125) -/
  pend : TimingSet := {}
  landed : Option (Nat × TimingSet) := none
  act : TimingSet := {}
  pulse : Option Pulse := none
  /-- end of the last pulse (R115) -/
  lastEnd : Nat := 0
  /-- off-time taken at the last end decision (R119) -/
  offTime : Nat := 0
  /-- last valid phase-converter word and its sample tag (R15, R16, R142) -/
  raw : Tagged := {}
  rawTag : Nat := 0
  /-- gain in use and offset, as the half holds them (R60, R148, R153) -/
  gain : HeldWord := {}
  offset : Tagged := {}
  /-- sum of the auto-zero window so far (R153) -/
  azSum : Acc := {}
deriving DecidableEq, Repr

/-- An edge word of R109 with the Spur it drives and the level it sets: streamed to the comparison (R287). -/
structure EdgeWord where
  spur : PhaseId
  fast : Nat
  tap : Fin 32
  high : Bool
deriving DecidableEq, Repr

/-- Reset value of a coefficient bank (R107). -/
def bankReset : Vector Tagged 15 :=
  Vector.ofFn (fun k : Fin 15 => if k.val = 5 ∨ k.val = 10 then tag 16777216 else tag 0)

/-- A cell after BOOT. -/
def Cell.boot : Cell := { bankA := bankReset, bankB := bankReset }

end Sys2Proof.Machine
end

