-- ==== Sys2Proof/Machine/Memory.lean ====
section
/-!
DEFINITION. Addressed memories in one canonical form: a list of address and value pairs, addresses strictly rising, no
entry equal to what an unlisted address reads as. The record store (R322), code flash (R305) and capture RAM (R67) are
held this way.
-/
namespace Sys2Proof.Machine

/-- What an address reads as: its entry, or the value `d` of an unlisted address. -/
def Memory.read {β : Type} (d : β) : List (Nat × β) → Nat → β
  | [], _ => d
  | (a, v) :: m, x => if a = x then v else Memory.read d m x

/-- Write one address; writing `d` removes the entry. -/
def Memory.write {β : Type} [DecidableEq β] (d : β) : List (Nat × β) → Nat → β → List (Nat × β)
  | [], x, w => if w = d then [] else [(x, w)]
  | (a, v) :: m, x, w =>
    if x < a then (if w = d then (a, v) :: m else (x, w) :: (a, v) :: m)
    else if x = a then (if w = d then m else (x, w) :: m)
    else (a, v) :: Memory.write d m x w

/-- Every address at or above a bound, rising from there, and no entry equal to `d`. -/
def Memory.wfFrom {β : Type} [DecidableEq β] (d : β) (lo : Nat) : List (Nat × β) → Bool
  | [] => true
  | (a, v) :: m => decide (lo ≤ a) && decide (v ≠ d) && Memory.wfFrom d (a + 1) m

/-- The canonical form. -/
def Memory.wf {β : Type} [DecidableEq β] (d : β) (m : List (Nat × β)) : Bool := Memory.wfFrom d 0 m

/-- Write a run of values from an address. -/
def Memory.writeList {β : Type} [DecidableEq β] (d : β) (m : List (Nat × β)) (x : Nat) : List β → List (Nat × β)
  | [] => m
  | w :: ws => Memory.writeList d (Memory.write d m x w) (x + 1) ws

/-- Read a run of n values from an address. -/
def Memory.readList {β : Type} (d : β) (m : List (Nat × β)) (x : Nat) : Nat → List β
  | 0 => []
  | n + 1 => Memory.read d m x :: Memory.readList d m (x + 1) n

/-- Every address of a range reads as `d` afterwards: an erase (R323). -/
def Memory.clear {β : Type} (m : List (Nat × β)) (x n : Nat) : List (Nat × β) :=
  m.filter (fun e => decide (e.1 < x) || decide (x + n ≤ e.1))

end Sys2Proof.Machine
end

