-- ==== Sys2Proof/Machine/Law.lean ====
section
/-!
DEFINITION. The stages of a Fell cell (02_fell_cell_arithmetic.md, 03_regulation_law.md): functions of one cell and of
the phases of its half. Every stage is one sum, at most one rounding, one clamp and its residue checks (R57 to R62).
-/
namespace Sys2Proof.Machine

/-- One more clamped write of store s: its flag is set, its counter stops at 0xFFFF (R50). -/
def Cell.sat (c : Cell) (s : Fin 16) : Cell :=
  { c with satFlags := c.satFlags ||| (1#16 <<< s.val), satCounts := upd c.satCounts s (fun n => if n < 65535 then n + 1 else n) }

/-- A cell residue error (R62): counted; the caller's store and remainder keep their values. -/
def Cell.fail (c : Cell) : Cell := { c with residueErrors := c.residueErrors + 1 }

/-- What a rounded stage yields: none on a residue mismatch, else the store, its remainder register and whether the
result was clamped. -/
def roundStage (acc : Acc) (rem : Tagged) (d lo hi : Int) : Option (Tagged × Tagged × Bool) :=
  if (acc.add rem.acc).ok then
    let r := roundCarry acc.v rem.v d lo hi
    some (tag r.y, if r.clamped then rem else tag r.r, r.clamped)
  else none

/-- What an exact stage yields. -/
def exactStage (acc : Acc) (lo hi : Int) : Option (Tagged × Bool) :=
  if acc.ok then some (tag (clamp acc.v lo hi), clamps acc.v lo hi) else none

/-- Write a rounded stage's result into a cell. -/
def Cell.rounded (c : Cell) (s : Fin 16) (acc : Acc) (rem : Tagged) (lo hi : Int) (put : Cell → Tagged → Tagged → Cell) :
    Cell :=
  match roundStage acc rem F24 lo hi with
  | none => c.fail
  | some (y, r, k) => if k then (put c y r).sat s else put c y r

/-- Write an exact stage's result into a cell. -/
def Cell.exact (c : Cell) (s : Fin 16) (acc : Acc) (lo hi : Int) (put : Cell → Tagged → Cell) : Cell :=
  match exactStage acc lo hi with
  | none => c.fail
  | some (y, k) => if k then (put c y).sat s else put c y

/-- The VMEAS stage (R145) on the newest word at the port, which is then used (R17). -/
def Cell.vmeasStage (c : Cell) : Cell :=
  ({ c with portUnused := false } : Cell).rounded 0 (((c.w .vgain).acc.mul c.port.acc).add (c.w .voff).acc.shift) c.remVmeas v24Lo v24Hi
    (fun c y r => { c with vmeas := y, remVmeas := r })

/-- Where the REF stage takes its value (R77, R92, R213). -/
inductive RefMode where
  | slew
  | track (leader : Tagged) (vmax : Int)
  | hold
deriving DecidableEq, Repr

/-- Which operand the ICMD stage takes (R89, R90, R214). -/
inductive CmdMode where
  | voltage
  | current (operand : Tagged)
  | tracked (leader : Tagged)
deriving DecidableEq, Repr

/-- What an outer step reads besides its cell (R108). -/
structure LawIn where
  first : Bool := false
  /-- starting current of a reseat (R205) -/
  reseat : Option Tagged := none
  iMin : Int := 0
  iMax : Int := 0
  iff : Acc := {}
  curMode : Bool := false
  refMode : RefMode := .slew
  cmdMode : CmdMode := .voltage
  /-- IPH of every bound phase, active or parked (R81) -/
  iph : List Tagged := []
deriving DecidableEq, Repr

/-- The active bank (R101). -/
def Cell.bank (c : Cell) : Vector Tagged 15 := if c.bankBActive then c.bankB else c.bankA

/-- The bank in force before the step (R103). -/
def Cell.bankOld (c : Cell) : Vector Tagged 15 := c.swapOld.getD c.bank

/-- REF loaded from VMEAS, or with 0 if VMEAS is negative (R79, R205). -/
def Cell.loadRef (c : Cell) : Cell :=
  { c with ref := if c.vmeas.v < 0 then tag 0 else c.vmeas, remRef := tag 0 }

/-- A reseat (R205). INT_AT_BOUND follows its write to INT (R85). -/
def Cell.doReseat (c : Cell) (i0 : Tagged) (iMin iMax : Int) : Cell :=
  let c := c.loadRef
  let lo := iMin * F24
  let hi := iMax * F24
  let c := c.exact 6 i0.acc.shift lo hi (fun c y => { c with int := y, intAtBound := clamps (i0.v * F24) lo hi })
  { c with der := tag 0, remDer := tag 0 }

/-- An addend with its sign turned: what a negative step adds (R77). -/
def Acc.neg (a : Acc) : Acc := (accOf 0).sub a
/-- gap of R77, from the target word, REF and its remainder. -/
def Cell.gap (c : Cell) : Acc := (c.w .target).acc.shift.sub (c.ref.acc.shift.add c.remRef.acc)
/-- The step of R77: the gap, within the step limit. -/
def Cell.refMove (c : Cell) : Acc :=
  let lim := (c.w .vslew).acc
  if c.gap.v > lim.v then lim else if c.gap.v < -lim.v then lim.neg else c.gap

/-- The REF stage (R77, R92, R213). The words that form the gap and the step limit are checked as they are read (R61). -/
def Cell.refStage (c : Cell) (i : LawIn) : Cell :=
  match i.refMode with
  | .hold => c
  | .track l vmax =>
    c.rounded 2 (((c.w .trackRatio).acc.mul l.acc).add (c.w .trackOffset).acc.shift) c.remRef 0 vmax
      (fun c y r => { c with ref := y, remRef := r })
  | .slew =>
    if c.gap.ok && (c.w .vslew).ok then
      c.rounded 2 (c.ref.acc.shift.add c.refMove) c.remRef 0 v24Hi (fun c y r => { c with ref := y, remRef := r })
    else c.fail

/-- The POS stage (R81). -/
def Cell.posStage (c : Cell) (i : LawIn) : Cell :=
  let base := c.ref.acc.shift.add (c.w .injV).acc.shift
  let acc := if i.curMode then base else i.iph.foldl (fun a q => a.sub ((c.w .loadline).acc.mul q.acc)) base
  c.rounded 3 acc c.remPos v24Lo v24Hi (fun c y r => { c with pos := y, remPos := r })

/-- The ERR stage (R82): ERR_PREV takes the old ERR, or the new one at a first step and at a reseat. -/
def Cell.errStage (c : Cell) (i : LawIn) : Cell :=
  c.exact 4 (c.pos.acc.sub c.vmeas.acc) v24Lo v24Hi
    (fun c y => { c with err := y, errPrev := if i.first || i.reseat.isSome then y else c.err })

/-- The DER stage (R83). -/
def Cell.derStage (c : Cell) : Cell :=
  let b := c.bankOld
  c.rounded 5 ((b[3].acc.mul c.der.acc).add (b[2].acc.mul (c.err.acc.sub c.errPrev.acc))) c.remDer v24Lo v24Hi
    (fun c y r => { c with der := y, remDer := r })

/-- The INT stage (R84, R85, R103, R104). -/
def Cell.intStage (c : Cell) (i : LawIn) : Cell :=
  let o := c.bankOld
  let n := c.bank
  let acc := (c.int.acc.add (o[1].acc.mul c.err.acc)).add (o[4].acc.mul (c.icmd.acc.sub c.bq2.acc))
  let acc := if i.curMode then acc else acc.sub (o[4].acc.mul c.iffPrev.acc)
  let acc := if c.swapOld.isSome then (acc.add (o[0].acc.mul c.err.acc)).sub (n[0].acc.mul c.err.acc) else acc
  let lo := i.iMin * F24
  let hi := i.iMax * F24
  c.exact 6 acc lo hi (fun c y => { c with int := y, intAtBound := clamps acc.v lo hi })

/-- The PID stage (R86). -/
def Cell.pidStage (c : Cell) : Cell :=
  c.rounded 7 (((c.bank[0].acc.mul c.err.acc).add c.int.acc).add c.der.acc.shift) c.remPid v24Lo v24Hi
    (fun c y r => { c with pid := y, remPid := r })

/-- The first biquad (R87). -/
def Cell.bq1Stages (c : Cell) : Cell :=
  let b := c.bank
  let c := c.rounded 8 ((b[5].acc.mul c.pid.acc).add c.bq1s1.acc) c.remBq1 v24Lo v24Hi
    (fun c y r => { c with bq1 := y, remBq1 := r })
  let c := c.exact 9 (((b[6].acc.mul c.pid.acc).sub (b[8].acc.mul c.bq1.acc)).add c.bq1s2.acc) s48Lo s48Hi
    (fun c y => { c with bq1s1 := y })
  c.exact 9 ((b[7].acc.mul c.pid.acc).sub (b[9].acc.mul c.bq1.acc)) s48Lo s48Hi (fun c y => { c with bq1s2 := y })

/-- The second biquad (R87). -/
def Cell.bq2Stages (c : Cell) : Cell :=
  let b := c.bank
  let c := c.rounded 10 ((b[10].acc.mul c.bq1.acc).add c.bq2s1.acc) c.remBq2 v24Lo v24Hi
    (fun c y r => { c with bq2 := y, remBq2 := r })
  let c := c.exact 11 (((b[11].acc.mul c.bq1.acc).sub (b[13].acc.mul c.bq2.acc)).add c.bq2s2.acc) s48Lo s48Hi
    (fun c y => { c with bq2s1 := y })
  c.exact 11 ((b[12].acc.mul c.bq1.acc).sub (b[14].acc.mul c.bq2.acc)) s48Lo s48Hi (fun c y => { c with bq2s2 := y })

/-- The upper bound of the ICMD stage in CURRENT mode (R90). -/
def currentHi (bq2 iMin iMax : Int) : Int :=
  let hi := if bq2 < iMax then bq2 else iMax
  if hi < iMin then iMin else hi

/-- IFF of the boundary, formed in the cell (R187): its accumulate check, and its clamp to the I24 range (R188). -/
def Cell.formIff (c : Cell) (sum : Acc) : Cell := if sum.ok then { c with iff := tag (clamp sum.v v24Lo v24Hi) } else c.fail

/-- The ICMD stage (R89, R90, R214); IFF_PREV takes IFF after it. -/
def Cell.icmdStage (c : Cell) (i : LawIn) : Cell :=
  let c := match i.cmdMode with
    | .voltage => c.exact 12 (c.bq2.acc.add c.iff.acc) i.iMin i.iMax (fun c y => { c with icmd := y })
    | .current x =>
      c.exact 12 ((x.acc.add c.iff.acc).add (c.w .injI).acc) i.iMin (currentHi c.bq2.v i.iMin i.iMax)
        (fun c y => { c with icmd := y })
    | .tracked l =>
      c.rounded 12 (((c.w .trackRatio).acc.mul l.acc).add (((c.w .trackOffset).acc.add c.iff.acc).add (c.w .injI).acc).shift) c.remIcmd i.iMin
        (currentHi c.bq2.v i.iMin i.iMax) (fun c y r => { c with icmd := y, remIcmd := r })
  { c with iffPrev := c.iff }

/-- The outer step from REF to ICMD (R58, R108); VMEAS has been written. -/
def Cell.outerLaw (c : Cell) (i : LawIn) : Cell :=
  let c := if i.first then c.loadRef else c
  let c := match i.reseat with
    | none => c
    | some i0 => c.doReseat i0 i.iMin i.iMax
  let c := ((c.refStage i).posStage i).errStage i
  let c := (c.derStage.intStage i).pidStage
  let c := ((c.bq1Stages.bq2Stages).formIff i.iff).icmdStage i
  { c with swapOld := none, swapped := c.swapOld.isSome }

/-- Everything a context's cell holds at the start of regulation (R59, R116, R124). -/
def Cell.begin (c : Cell) (nAct : Nat) (pointer : PhaseId) : Cell :=
  { c with vmeas := tag 0, ref := tag 0, pos := tag 0, err := tag 0, der := tag 0, int := tag 0, pid := tag 0,
           bq1 := tag 0, bq1s1 := tag 0, bq1s2 := tag 0, bq2 := tag 0, bq2s1 := tag 0, bq2s2 := tag 0, icmd := tag 0,
           errPrev := tag 0, iff := tag 0, iffPrev := tag 0, remVmeas := tag 0, remRef := tag 0, remPos := tag 0,
           remDer := tag 0, remPid := tag 0, remBq1 := tag 0, remBq2 := tag 0, remIcmd := tag 0, swapOld := none, swapped := false,
           trackI := tag 0, intAtBound := false, nAct := nAct, dwell := 0, pointer := pointer, deficit := 0 }

/-- Σ IPH, saturated to the I24 range against store IPH (R68). -/
def Cell.sumIph (c : Cell) (iph : List Tagged) : Int × Cell :=
  let s := iph.foldl (fun a q => a + q.v) 0
  (clamp s v24Lo v24Hi, if clamps s v24Lo v24Hi then c.sat 1 else c)

/-- A capture word in the layout of R68: the low 8 bits of the outer-sample count above a 24-bit value. -/
def ringWord (count : Nat) (v : Int) : Word :=
  BitVec.ofNat 32 ((count % 256) * 16777216 + (v % 16777216).toNat)

/-- Write a capture word (R67). -/
def Cell.capPut (c : Cell) (a : Nat) (w : Word) : Cell :=
  { c with capture := Memory.write {} c.capture a { w := w } }

/-- Write one position of the pre-fault ring (R68). -/
def Cell.ringPut (c : Cell) (pos count : Nat) (v0 v1 v2 v3 : Int) : Cell :=
  let a := 0x700 + 4 * pos
  (((c.capPut a (ringWord count v0)).capPut (a + 1) (ringWord count v1)).capPut (a + 2) (ringWord count v2)).capPut (a + 3)
    (ringWord count v3)

/-- Remember this boundary for the rules that look back (R95, R212). -/
def Cell.mark (c : Cell) (enable : Nat) : Cell :=
  { c with prev := c.last, last := { enable := enable, vmeas := c.vmeas, ref := c.ref, icmd := c.icmd } }

/-- What the last boundary at or before tag k − 2 left (R95, R212). -/
def Cell.lookBack (c : Cell) (k : Nat) : Boundary := if c.last.enable + 2 ≤ k then c.last else c.prev

/-- Where a phase's stage writes its result: the cell takes the flag and the count. -/
def phaseStage (c : Cell) (h : HPhase) (s : Fin 16) (acc : Acc) (rem : Tagged) (d lo hi : Int)
    (put : HPhase → Tagged → Tagged → HPhase) : Cell × HPhase :=
  match roundStage acc rem d lo hi with
  | none => (c.fail, h)
  | some (y, r, k) => (if k then c.sat s else c, put h y r)

/-- The balance step of one active phase p among the active phases (R97). -/
def balanceOne (lim : Int) (act : List PhaseId) (x : Cell × Vector HPhase 96) (p : PhaseId) :
    Cell × Vector HPhase 96 :=
  let h := x.2[p]
  let acc := act.foldl (fun a q => if q = p then a else a.add ((x.1.w .kbal).acc.mul (x.2[q].iph.acc.sub h.iph.acc))) h.bal.acc.shift
  let r := phaseStage x.1 h 13 acc h.remBal F24 (-lim) lim (fun h y m => { h with bal := y, remBal := m })
  (r.1, x.2.set p r.2)

/-- The balance step (R97): the active phases in rising number. -/
def balanceStep (lim : Int) (act : List PhaseId) (x : Cell × Vector HPhase 96) : Cell × Vector HPhase 96 :=
  act.foldl (balanceOne lim act) x

/-- The IPH stage (R148). -/
def iphStage (c : Cell) (h : HPhase) : Cell × HPhase :=
  phaseStage c h 1 (h.gain.word.acc.mul (h.raw.acc.sub h.offset.acc)) h.remIph F24 v24Lo v24Hi
    (fun h y m => { h with iph := y, remIph := m })

/-- The THR stage (R93). -/
def thrStage (c : Cell) (h : HPhase) : Cell × HPhase :=
  phaseStage c h 14 (c.icmd.acc.add ((accOf c.nAct).mul h.bal.acc)) h.remThr c.nAct v24Lo v24Hi
    (fun h y m => { h with thr := y, remThr := m })

/-- The TON stage (R94): the numerator's rounding, then the division. A mismatch in either ends the stage. -/
def tonStage (offtime : Bool) (vinD : Int) (c : Cell) (h : HPhase) : Cell × HPhase :=
  let acc := if offtime then (c.w .toff).acc.shift else (c.w .kOn).acc.mul c.pos.acc
  match roundStage acc h.remTonN F24 s48Lo s48Hi with
  | none => (c.fail, h)
  | some (num, rn, k) =>
    let c' := if k then c.sat 15 else c
    match roundStage num.acc h.remTonD (if offtime then 1 else vinD) 0 16777215 with
    | none => (c.fail, h)
    | some (y, rd, k2) => (if k2 then c'.sat 15 else c', { h with ton := y, remTonN := rn, remTonD := rd })

/-- VIN_D of R94 and R95: context 0's VMEAS divided by 1024, toward minus infinity. -/
def vinD (c0 : Cell) (k : Nat) : Int := (c0.lookBack k).vmeas.v / 1024

/-- What the stages of an outer sample read (R58, R63, R92): whether the law, the VMEAS stage and the balance step run, and the
modes that choose among the words of a cell. -/
structure Reads where
  law : Bool
  vmeas : Bool
  balance : Bool
  cur : Bool
  /-- TRACK is in E: the ICMD stage of CURRENT takes the leader -/
  track : Bool
  /-- what drives REF: the slew with its target, the leader, or nothing -/
  slews : Bool
  leads : Bool
  offtime : Bool
  request : Bool
deriving DecidableEq, Repr

/-- The words that the outer step from REF to ICMD reads. -/
def Cell.lawWords (c : Cell) : List Tagged :=
  [c.ref, c.vmeas, c.pos, c.err, c.der, c.int, c.pid, c.bq1, c.bq1s1, c.bq1s2, c.bq2, c.bq2s1, c.bq2s2, c.icmd, c.errPrev, c.iff,
   c.remPos, c.remDer, c.remPid, c.remBq1, c.remBq2, c.w .injV] ++ c.bank.toList
/-- The words of the active bank that the outer step of a swap leaves unread (R103): KI, KD, A_D and KAW. -/
def Cell.swapUnread (c : Cell) : List Tagged := [c.bank[1], c.bank[2], c.bank[3], c.bank[4]]

/-- A held word that a stage reads in some samples alone. -/
def Cell.spare (c : Cell) (read : Bool) (x : CellWord) : List Tagged := if read then [] else [c.w x]

/-- Every tagged word of a cell that no stage of the outer sample reads (R63): the bank the stages do not read, the ledger
accumulators, the raw shunt word and the field-time word, the request, and the words of stages that do not run or that take another
operand. -/
def Cell.scrubWords (c : Cell) (m : Reads) : List Tagged :=
  (if m.law then [] else c.lawWords) ++ (if c.bankBActive then c.bankA else c.bankB).toList
    ++ [c.qRem, c.eRem, c.uCharge, c.uEnergy, c.sCharge, c.sEnergy, c.portRaw, c.ftWord]
    ++ (if m.vmeas then [] else [c.remVmeas, c.port, c.w .vgain, c.w .voff])
    ++ (if m.law && !m.cur then [] else [c.iffPrev]) ++ (if m.law && c.swapped then c.swapUnread else [])
    ++ (if m.law && (m.slews || m.leads) then [] else [c.remRef])
    ++ (if m.law && m.cur && m.track then [] else [c.trackI, c.remIcmd])
    ++ c.spare (m.law && m.slews) .vslew ++ c.spare (m.law && m.slews) .target ++ c.spare (m.law && m.cur) .injI
    ++ c.spare (m.law && !m.cur) .loadline ++ c.spare (m.law && m.balance) .kbal
    ++ c.spare (m.law && !m.offtime) .kOn ++ c.spare (m.law && m.offtime) .toff
    ++ c.spare (m.law && (m.leads || (m.cur && m.track))) .trackRatio ++ c.spare (m.law && (m.leads || (m.cur && m.track))) .trackOffset
    ++ c.spare (m.law && m.cur && !m.track && !m.request) .icmd ++ c.spare (m.law && m.cur && !m.track && m.request) .request

/-- The tagged words of a bound phase that a scrub reads (R63): its trim, unless the balance step of this sample reads it; the
thresholds and times of a phase while THR and TON do not run; and the stores and states of a parked phase. -/
def HPhase.scrubWords (h : HPhase) (m : Reads) (active : Bool) : List Tagged :=
  (if m.law && m.balance && active then [] else [h.bal, h.remBal])
    ++ (if !m.law || decide (h.state = .parked) then [h.thr, h.ton, h.remThr, h.remTonN, h.remTonD] else [])
    ++ (if h.state = .parked then [h.iph, h.remIph] else [])

end Sys2Proof.Machine
end

