-- ==== Sys2Proof/Config.lean ====
section
/-!
DEFINITION. What one part fixes at manufacture or the board fixes, and the free values: constants with no body, so
that nothing can be proved of their values.
-/
namespace Sys2Proof.Config

/-- Fresh value number n: used wherever the manual leaves a value open (log entry 9). -/
opaque freeValue : Nat → BitVec 64

/-- The 256-bit session key K of R383, as eight words, most significant first. -/
opaque sessionKey : Fin 8 → Word

/-- The nonce the device's random source gives for challenge n, word j (R383). -/
opaque nonce : Nat → Fin 8 → Word

/-- The 64-bit device serial of R383 and R431: high and low word. -/
opaque serialHi : Word
opaque serialLo : Word

/-- The silicon revision of R388 and R431. -/
opaque siliconRev : Word

/-- The firmware verification key of R305: the affine point on P-256, held in one-time-programmable memory. -/
opaque fwKeyX : Nat
opaque fwKeyY : Nat

/-- DEV.FW_FLOOR as manufactured (R317). -/
opaque fwFloor : Nat

/-- The byte of a code-flash bank (true: bank B) that the part was shipped with (R304, R307). -/
opaque shippedFlash : Bool → Nat → Byte

/-- The word the host reads from an undriven MISO: set by its own board (R362). -/
opaque undrivenMiso : Word

/-- The silicon test counters of R430: no specified meaning, so read n of entry i is open. -/
opaque testCounter : Nat → Nat → Word

/-- Whether a low of this many nanoseconds is taken, between the stated reject and accept lengths of SAFE_N (R313)
and RESET_N (R450). -/
opaque safeFilter : Nat → Bool
opaque resetFilter : Nat → Bool

/-- Whether a block of the record store fails its erase, by block and erase count, and whether it fails a program after its retry, by
block, erase count and address (R336). -/
opaque eraseFails : Nat → Nat → Bool
opaque programFails : Nat → Nat → Nat → Bool

/-- The address strap k that a resistor at PMB_ADDR gives which lies in no band of R390, by its ohms (log entry 147). -/
opaque pmbStrap : Nat → Fin 16

/-- The load fraction of a gain calibration whose rating is 0 or negative, by the true value of the current (R162, R168). -/
opaque zeroRatingFraction : Int → Nat

/-- The boundary-scan level JTAG captures or drives where the manual gives no cell order (R475). -/
opaque scanCell : Nat → Bool

end Sys2Proof.Config
end

