-- ==== Sys2Proof/Machine/Entries.lean ====
section
/-!
DEFINITION. The parameter space as tables (14_parameter_space.md): the stored entries of a context block, a phase
block and the globals, with offset, set member, format, access class, reset value, own limits, "saved" mark and the
"Ctx 0" column (R427 to R430 and the parameter tables of each chapter); the entries that are not plain storage are
named as registers. Entries whose limits are not one interval are judged in Params.lean.
-/
namespace Sys2Proof.Machine

/-- The formats of R45 and R5: signed or unsigned of a width, or a bit field with its defined bits. -/
inductive Fmt where
  | s (w : Nat)
  | u (w : Nat)
  | bits (mask : Nat)
deriving DecidableEq, Repr

/-- The access classes of R6. -/
inductive Access where
  | u
  | ur
  | p
  | ro
  | w1c
deriving DecidableEq, Repr

/-- One row of the parameter tables. -/
structure Row where
  off : Nat
  mem : Nat
  fmt : Fmt
  cls : Access
  rst : Int
  lo : Int
  hi : Int
  saved : Bool
  ctx0 : Bool
deriving DecidableEq, Repr

/-- The value a written word gives an entry: bits above the width and reserved bits are ignored (R5, R8). -/
def Fmt.decode : Fmt → Word → Int
  | .s w, x => (BitVec.truncate w x).toInt
  | .u w, x => ((BitVec.truncate w x).toNat : Int)
  | .bits m, x => ((x.toNat &&& m : Nat) : Int)

/-- The word a read of an entry returns: sign- or zero-extended (R5). -/
def wordOf (v : Int) : Word := BitVec.ofInt 32 v

/-- Reset words of TDIE, THEATH and TPH in index order (R282). -/
def thermReset (k : Fin 9) : Int :=
  match k.val with
  | 0 | 3 => 0x02803200
  | 1 | 4 => 0x02803700
  | 2 | 5 => 0x02803E80
  | 6 => 0x02802D00
  | 7 => 0x02803200
  | _ => 0x02803980

/-- The stored entries and set members of a context block (R427, R428). -/
inductive CP where
  | mode
  | mRatio
  | vset
  | vslew
  | voutMin
  | voutMax
  | loadline
  | iMin
  | iMax
  | icmd
  | kOn
  | toff
  | kbal
  | balLim
  | tpause
  | tonMax
  | add (n : Fin 8)
  | shed (n : Fin 8)
  | vdiv
  | schAdv
  | schRise
  | schSettle
  | schHandover
  | schFfslew
  | schConf
  | passHeadroom
  | passExit
  | trackLeader
  | trackRatio
  | trackOffset
  | probeCfg
  | probeAmp
  | probeRptr
  | tripSrc
  | tripCfg
  | ovMargin
  | uvMargin
  | ovTime
  | uvTime
  | ocLevel
  | ocTime
  | faultResp0
  | faultResp1
  | retryCfg
  | pgWin
  | pgDelay
  | pgEarly
  | tarnCfg
  | tarnVmin
  | tarnVmax
  | pSet
  | ilimMax
  | trip
  | gateTimeout
  | insTime
  | seatDebounce
  | gateSrc
  | rshunt
  | gdlyOnInit
  | gdlyOffInit
deriving DecidableEq, Repr

/-- The place of an entry in its store. -/
def CP.ix : CP → Nat
  | .mode => 0
  | .mRatio => 1
  | .vset => 2
  | .vslew => 3
  | .voutMin => 4
  | .voutMax => 5
  | .loadline => 6
  | .iMin => 7
  | .iMax => 8
  | .icmd => 9
  | .kOn => 10
  | .toff => 11
  | .kbal => 12
  | .balLim => 13
  | .tpause => 14
  | .tonMax => 15
  | .add n => 16 + n.val
  | .shed n => 24 + n.val
  | .vdiv => 32
  | .schAdv => 33
  | .schRise => 34
  | .schSettle => 35
  | .schHandover => 36
  | .schFfslew => 37
  | .schConf => 38
  | .passHeadroom => 39
  | .passExit => 40
  | .trackLeader => 41
  | .trackRatio => 42
  | .trackOffset => 43
  | .probeCfg => 44
  | .probeAmp => 45
  | .probeRptr => 46
  | .tripSrc => 47
  | .tripCfg => 48
  | .ovMargin => 49
  | .uvMargin => 50
  | .ovTime => 51
  | .uvTime => 52
  | .ocLevel => 53
  | .ocTime => 54
  | .faultResp0 => 55
  | .faultResp1 => 56
  | .retryCfg => 57
  | .pgWin => 58
  | .pgDelay => 59
  | .pgEarly => 60
  | .tarnCfg => 61
  | .tarnVmin => 62
  | .tarnVmax => 63
  | .pSet => 64
  | .ilimMax => 65
  | .trip => 66
  | .gateTimeout => 67
  | .insTime => 68
  | .seatDebounce => 69
  | .gateSrc => 70
  | .rshunt => 71
  | .gdlyOnInit => 72
  | .gdlyOffInit => 73

/-- How many entries the store holds. -/
abbrev CP.count : Nat := 74

theorem CP.ix_lt (e : CP) : e.ix < CP.count := by
  cases e <;> simp only [CP.ix, CP.count] <;> omega

/-- The row of each entry in the tables that name it. -/
def CP.row : CP → Row
  | .mode => ⟨0x0, 0, .u 8, .u, 0, 0, 255, true, true⟩
  | .mRatio => ⟨0x3, 0, .u 32, .ur, 25, 4, 64, true, true⟩
  | .vset => ⟨0x4, 0, .s 24, .u, 0, -8388608, 8388607, true, false⟩
  | .vslew => ⟨0x5, 0, .s 32, .u, 16777216, 1, 2147483647, true, false⟩
  | .voutMin => ⟨0x6, 0, .s 24, .ur, 0, 0, 8388607, true, true⟩
  | .voutMax => ⟨0x7, 0, .s 24, .ur, 0, -8388608, 3932160, true, true⟩
  | .loadline => ⟨0x8, 0, .s 32, .u, 0, -2147483648, 2147483647, true, false⟩
  | .iMin => ⟨0x9, 0, .s 24, .ur, 0, -8388608, 8388607, true, false⟩
  | .iMax => ⟨0xA, 0, .s 24, .ur, 0, -8388608, 8388607, true, false⟩
  | .icmd => ⟨0xB, 0, .s 24, .u, 0, -8388608, 8388607, true, false⟩
  | .kOn => ⟨0x13, 0, .s 32, .u, 0, 0, 2147483647, true, false⟩
  | .toff => ⟨0x14, 0, .u 24, .u, 0, 0, 16777215, true, false⟩
  | .kbal => ⟨0x15, 0, .s 32, .u, 0, -2147483648, 2147483647, true, false⟩
  | .balLim => ⟨0x16, 0, .s 24, .u, 0, 0, 8388607, true, false⟩
  | .tpause => ⟨0x1A, 0, .u 24, .u, 384, 32, 12800, true, false⟩
  | .tonMax => ⟨0x1B, 0, .u 24, .u, 12800, 64, 16777215, true, false⟩
  | .add n => ⟨0x1C, n.val, .s 24, .u, 8388607, -8388608, 8388607, true, false⟩
  | .shed n => ⟨0x1D, n.val, .s 24, .u, -8388608, -8388608, 8388607, true, false⟩
  | .vdiv => ⟨0x21, 0, .u 32, .ur, 65536, 65536, 671088640, true, true⟩
  | .schAdv => ⟨0x25, 0, .u 32, .u, 2, 0, 255, true, false⟩
  | .schRise => ⟨0x25, 1, .u 32, .u, 20, 1, 4095, true, false⟩
  | .schSettle => ⟨0x25, 2, .u 32, .u, 200, 0, 65535, true, false⟩
  | .schHandover => ⟨0x25, 3, .u 32, .u, 2000, 1, 65535, true, false⟩
  | .schFfslew => ⟨0x25, 4, .s 24, .u, 1638, 1, 8388607, true, false⟩
  | .schConf => ⟨0x25, 5, .u 32, .u, 500, 1, 65535, true, false⟩
  | .passHeadroom => ⟨0x27, 0, .s 24, .u, 131072, 0, 8388607, true, false⟩
  | .passExit => ⟨0x28, 0, .u 32, .u, 0, 0, 1, true, false⟩
  | .trackLeader => ⟨0x29, 0, .u 32, .ur, 0, 0, 63, true, false⟩
  | .trackRatio => ⟨0x2A, 0, .s 32, .u, 16777216, -2147483648, 2147483647, true, false⟩
  | .trackOffset => ⟨0x2B, 0, .s 24, .u, 0, -8388608, 8388607, true, false⟩
  | .probeCfg => ⟨0x2C, 0, .bits 0xF8FFFF00, .u, 0, 0, 4294967295, true, false⟩
  | .probeAmp => ⟨0x2D, 0, .s 24, .u, 0, 1, 1048576, true, false⟩
  | .probeRptr => ⟨0x30, 0, .u 32, .u, 0, 0, 1791, false, false⟩
  | .tripSrc => ⟨0x31, 0, .bits 0x00FFFFFF, .ur, 0, 0, 4294967295, true, true⟩
  | .tripCfg => ⟨0x32, 0, .bits 0x00037FFF, .ur, 0x7F00, 0, 4294967295, true, true⟩
  | .ovMargin => ⟨0x34, 0, .s 24, .ur, 65536, 0, 8388607, true, true⟩
  | .uvMargin => ⟨0x34, 1, .s 24, .ur, 65536, 0, 8388607, true, true⟩
  | .ovTime => ⟨0x34, 2, .u 32, .ur, 2, 0, 65535, true, true⟩
  | .uvTime => ⟨0x34, 3, .u 32, .ur, 100, 0, 65535, true, true⟩
  | .ocLevel => ⟨0x34, 4, .s 24, .ur, 8388607, 0, 8388607, true, true⟩
  | .ocTime => ⟨0x34, 5, .u 32, .ur, 4, 0, 65535, true, true⟩
  | .faultResp0 => ⟨0x35, 0, .bits 0x00FFFFFF, .ur, 0x00133213, 0, 4294967295, true, true⟩
  | .faultResp1 => ⟨0x36, 0, .bits 0x000FFFFF, .ur, 0x00031343, 0, 4294967295, true, true⟩
  | .retryCfg => ⟨0x37, 0, .bits 0x000FFFFF, .ur, 0x00030064, 0, 4294967295, true, true⟩
  | .pgWin => ⟨0x3A, 0, .s 24, .u, 32768, 0, 8388607, true, false⟩
  | .pgDelay => ⟨0x3A, 1, .u 32, .u, 1000, 0, 65535, true, false⟩
  | .pgEarly => ⟨0x3A, 2, .u 32, .u, 0, 0, 1, true, false⟩
  | .tarnCfg => ⟨0x3B, 0, .bits 0x00FFFF31, .ur, 0x00400800, 0, 4294967295, true, false⟩
  | .tarnVmin => ⟨0x3C, 0, .s 24, .ur, 0, 0, 8388607, true, false⟩
  | .tarnVmax => ⟨0x3D, 0, .s 24, .ur, 0, 0, 8388607, true, false⟩
  | .pSet => ⟨0x42, 0, .u 32, .ur, 12800, 256, 524288, true, true⟩
  | .ilimMax => ⟨0x43, 0, .s 24, .ur, 8388607, 1, 8388607, true, true⟩
  | .trip => ⟨0x44, 0, .u 32, .ur, 128, 1, 255, true, true⟩
  | .gateTimeout => ⟨0x45, 0, .u 32, .ur, 200, 10, 10000, true, true⟩
  | .insTime => ⟨0x46, 0, .u 32, .ur, 20000, 100, 100000, true, true⟩
  | .seatDebounce => ⟨0x47, 0, .u 32, .ur, 20, 1, 1000, true, true⟩
  | .gateSrc => ⟨0x48, 0, .u 32, .ur, 1, 0, 3, true, true⟩
  | .rshunt => ⟨0x49, 0, .u 32, .ur, 1000, 2, 1000000, true, true⟩
  | .gdlyOnInit => ⟨0x4D, 0, .u 32, .u, 4000, 0, 80000, true, false⟩
  | .gdlyOffInit => ⟨0x4D, 1, .u 32, .u, 400, 0, 80000, true, false⟩

/-- Every entry, in store order. -/
def CP.all : List CP := List.flatten [
  [.mode, .mRatio, .vset, .vslew, .voutMin, .voutMax, .loadline, .iMin, .iMax, .icmd, .kOn, .toff],
  [.kbal, .balLim, .tpause, .tonMax],
  [.add 0, .add 1, .add 2, .add 3, .add 4, .add 5, .add 6, .add 7],
  [.shed 0, .shed 1, .shed 2, .shed 3, .shed 4, .shed 5, .shed 6, .shed 7],
  [.vdiv, .schAdv, .schRise, .schSettle, .schHandover, .schFfslew, .schConf, .passHeadroom, .passExit, .trackLeader, .trackRatio, .trackOffset],
  [.probeCfg, .probeAmp, .probeRptr, .tripSrc, .tripCfg, .ovMargin, .uvMargin, .ovTime, .uvTime, .ocLevel, .ocTime, .faultResp0],
  [.faultResp1, .retryCfg, .pgWin, .pgDelay, .pgEarly, .tarnCfg, .tarnVmin, .tarnVmax, .pSet, .ilimMax, .trip, .gateTimeout],
  [.insTime, .seatDebounce, .gateSrc, .rshunt, .gdlyOnInit, .gdlyOffInit]]

/-- The stored entries of a phase block (R429). -/
inductive PP where
  | owner
  | tmin
  | dtRise
  | dtFall
  | thrPause
  | zone
deriving DecidableEq, Repr

/-- The place of an entry in its store. -/
def PP.ix : PP → Nat
  | .owner => 0
  | .tmin => 1
  | .dtRise => 2
  | .dtFall => 3
  | .thrPause => 4
  | .zone => 5

/-- How many entries the store holds. -/
abbrev PP.count : Nat := 6

theorem PP.ix_lt (e : PP) : e.ix < PP.count := by
  cases e <;> simp only [PP.ix, PP.count] <;> omega

/-- The row of each entry in the tables that name it. -/
def PP.row : PP → Row
  | .owner => ⟨0x0, 0, .u 32, .ur, 0, 0, 63, true, true⟩
  | .tmin => ⟨0x1, 0, .u 24, .ur, 384, 64, 12800, true, true⟩
  | .dtRise => ⟨0x2, 0, .u 24, .ur, 256, 32, 2560, true, true⟩
  | .dtFall => ⟨0x3, 0, .u 24, .ur, 256, 32, 2560, true, true⟩
  | .thrPause => ⟨0x6, 0, .u 24, .ur, 1280, 0, 12800, true, true⟩
  | .zone => ⟨0x7, 0, .u 32, .ur, 0, 0, 15, true, true⟩

/-- Every entry, in store order. -/
def PP.all : List PP := List.flatten [
  [.owner, .tmin, .dtRise, .dtFall, .thrPause, .zone]]

/-- The stored globals (R430). -/
inductive GP where
  | compat
  | compatMap (k : Fin 6)
  | wdogMs
  | safeInput
  | pairMask (k : Fin 2)
  | stageNom (k : Fin 8)
  | stageRate (k : Fin 8)
  | imonType (k : Fin 2)
  | calTrue
  | ftCfg
  | ftLoadHi
  | ftLoadLo
  | mfSel (k : Fin 16)
  | mfOut
  | crgCfg (k : Fin 2)
  | crgWin (k : Fin 8)
  | pgAllMask (k : Fin 2)
  | therm (k : Fin 9)
  | txEn
  | txZone (k : Fin 2)
  | ntcR25
  | ntcB
  | nvmBp
  | ledgerCfg
  | pmbCfg
  | tarnCfg
  | tarnMap (k : Fin 4)
  | autoRun
deriving DecidableEq, Repr

/-- The place of an entry in its store. -/
def GP.ix : GP → Nat
  | .compat => 0
  | .compatMap k => 1 + k.val
  | .wdogMs => 7
  | .safeInput => 8
  | .pairMask k => 9 + k.val
  | .stageNom k => 11 + k.val
  | .stageRate k => 19 + k.val
  | .imonType k => 27 + k.val
  | .calTrue => 29
  | .ftCfg => 30
  | .ftLoadHi => 31
  | .ftLoadLo => 32
  | .mfSel k => 33 + k.val
  | .mfOut => 49
  | .crgCfg k => 50 + k.val
  | .crgWin k => 52 + k.val
  | .pgAllMask k => 60 + k.val
  | .therm k => 62 + k.val
  | .txEn => 71
  | .txZone k => 72 + k.val
  | .ntcR25 => 74
  | .ntcB => 75
  | .nvmBp => 76
  | .ledgerCfg => 77
  | .pmbCfg => 78
  | .tarnCfg => 79
  | .tarnMap k => 80 + k.val
  | .autoRun => 84

/-- How many entries the store holds. -/
abbrev GP.count : Nat := 85

theorem GP.ix_lt (e : GP) : e.ix < GP.count := by
  cases e <;> simp only [GP.ix, GP.count] <;> omega

/-- The row of each entry in the tables that name it. -/
def GP.row : GP → Row
  | .compat => ⟨0x2, 0, .bits 1, .ur, 0, 0, 4294967295, true, true⟩
  | .compatMap k => ⟨0x7 + k.val, 0, .u 32, .ur, 4294967295, 0, 4294967295, true, true⟩
  | .wdogMs => ⟨0x103, 0, .u 32, .ur, 50, 5, 1000, true, true⟩
  | .safeInput => ⟨0x104, 0, .u 32, .ur, 0, 0, 1, true, true⟩
  | .pairMask k => ⟨0x200 + k.val, 0, if k = 0 then .u 32 else .bits 0x0000FFFF, .ur, 0, 0, 4294967295, true, true⟩
  | .stageNom k => ⟨0x300 + k.val, 0, .s 32, .ur, 0, -2147483648, 2147483647, true, true⟩
  | .stageRate k => ⟨0x308 + k.val, 0, .s 24, .ur, 0, -8388608, 8388607, true, true⟩
  | .imonType k => ⟨0x310 + k.val, 0, if k = 0 then .u 32 else .bits 0x0000FFFF, .ur, 0, 0, 4294967295, true, true⟩
  | .calTrue => ⟨0x315, 0, .s 24, .p, 0, -8388608, 8388607, false, true⟩
  | .ftCfg => ⟨0x400, 0, .bits 7, .ur, 0, 0, 4294967295, true, true⟩
  | .ftLoadHi => ⟨0x401, 0, .bits 0x0000FFFF, .ur, 0, 0, 4294967295, false, true⟩
  | .ftLoadLo => ⟨0x402, 0, .u 32, .ur, 0, 0, 4294967295, false, true⟩
  | .mfSel k => ⟨0x500 + k.val, 0, .bits 0x0000FFFF, .ur, 0, 0, 4294967295, true, true⟩
  | .mfOut => ⟨0x510, 0, .bits 0x0000FFFF, .u, 0, 0, 4294967295, true, true⟩
  | .crgCfg k => ⟨0x600 + k.val, 0, .bits 0x77777777, .ur, 0, 0, 4294967295, true, true⟩
  | .crgWin k => ⟨0x602 + k.val, 0, .bits 0x000003FF, .ur, 0, 0, 4294967295, true, true⟩
  | .pgAllMask k => ⟨0x60B + k.val, 0, if k = 0 then .bits 0xFFFFFFFE else .u 32, .ur, 0, 0, 4294967295, true, true⟩
  | .therm k => ⟨0x700 + k.val, 0, .u 32, .ur, thermReset k, 0, 4294967295, true, true⟩
  | .txEn => ⟨0x709, 0, .bits 0x0000FFFF, .ur, 0, 0, 4294967295, true, true⟩
  | .txZone k => ⟨0x70A + k.val, 0, .u 32, .ur, if k = 0 then 0x76543210 else 0xFEDCBA98, 0, 4294967295, true, true⟩
  | .ntcR25 => ⟨0x70C, 0, .u 32, .ur, 10000, 1000, 1000000, true, true⟩
  | .ntcB => ⟨0x70D, 0, .u 32, .ur, 3435, 2000, 6000, true, true⟩
  | .nvmBp => ⟨0x800, 0, .bits 3, .p, 0, 0, 4294967295, false, true⟩
  | .ledgerCfg => ⟨0x806, 0, .bits 0x0000FFFF, .ur, 60, 10, 3600, true, true⟩
  | .pmbCfg => ⟨0x900, 0, .bits 1, .ur, 0, 0, 4294967295, true, true⟩
  | .tarnCfg => ⟨0xA00, 0, .bits 15, .ur, 0, 0, 4294967295, true, true⟩
  | .tarnMap k => ⟨0xA01 + k.val, 0, if k.val % 2 = 0 then .bits 0xFFFFFFFE else .u 32, .ur, 0, 0, 4294967295, true, true⟩
  | .autoRun => ⟨0x1, 0, .bits 2, .u, 0, 0, 4294967295, true, true⟩

/-- Every entry, in store order. -/
def GP.all : List GP := List.flatten [
  [.compat],
  [.compatMap 0, .compatMap 1, .compatMap 2, .compatMap 3, .compatMap 4, .compatMap 5],
  [.wdogMs, .safeInput],
  [.pairMask 0, .pairMask 1],
  [.stageNom 0, .stageNom 1, .stageNom 2, .stageNom 3, .stageNom 4, .stageNom 5, .stageNom 6, .stageNom 7],
  [.stageRate 0, .stageRate 1, .stageRate 2, .stageRate 3, .stageRate 4, .stageRate 5, .stageRate 6, .stageRate 7],
  [.imonType 0, .imonType 1],
  [.calTrue, .ftCfg, .ftLoadHi, .ftLoadLo],
  [.mfSel 0, .mfSel 1, .mfSel 2, .mfSel 3, .mfSel 4, .mfSel 5, .mfSel 6, .mfSel 7, .mfSel 8, .mfSel 9, .mfSel 10, .mfSel 11, .mfSel 12, .mfSel 13, .mfSel 14, .mfSel 15],
  [.mfOut],
  [.crgCfg 0, .crgCfg 1],
  [.crgWin 0, .crgWin 1, .crgWin 2, .crgWin 3, .crgWin 4, .crgWin 5, .crgWin 6, .crgWin 7],
  [.pgAllMask 0, .pgAllMask 1],
  [.therm 0, .therm 1, .therm 2, .therm 3, .therm 4, .therm 5, .therm 6, .therm 7, .therm 8],
  [.txEn],
  [.txZone 0, .txZone 1],
  [.ntcR25, .ntcB, .nvmBp, .ledgerCfg, .pmbCfg, .tarnCfg],
  [.tarnMap 0, .tarnMap 1, .tarnMap 2, .tarnMap 3],
  [.autoRun]]

/-- The banked coefficients of R101, in the order KP, KI, KD, A_D, KAW, then B0, B1, B2, A1, A2 of each biquad. -/
abbrev Coef := Fin 15

def Coef.kp : Coef := 0
def Coef.ki : Coef := 1
def Coef.kd : Coef := 2
def Coef.aD : Coef := 3
def Coef.kaw : Coef := 4
/-- Coefficient j (B0, B1, B2, A1, A2) of biquad 1. -/
def Coef.bq1 (j : Fin 5) : Coef := ⟨5 + j.val, by omega⟩
/-- Coefficient j (B0, B1, B2, A1, A2) of biquad 2. -/
def Coef.bq2 (j : Fin 5) : Coef := ⟨10 + j.val, by omega⟩

/-- Reset word of a coefficient: B0 of each biquad is one, every other word is 0 (R88, R107). -/
def Coef.rst (k : Coef) : Int := if k.val = 5 ∨ k.val = 10 then 16777216 else 0

/-- The offset and set member of a coefficient (R427, R428). -/
def Coef.place (k : Coef) : Nat × Nat :=
  if k.val < 5 then (0x0C + k.val, 0) else if k.val < 10 then (0x11, k.val - 5) else (0x12, k.val - 10)

/-- The entries of a context block that are not plain storage. -/
inductive CReg where
  | modeStatus | sel | lawCtl | lawStatus | satFlags | pulseStatus | pulseDeficit | phaseStatus | vgain | voff
  | senseStatus | schStatus | probeStatus | probePtr | tripHits | faultStatus | faultCtl | tarnReq | tarnNode
  | tarnStatus | tarnCtl | swSgain | swSofs | swVs | swCtl | swStatus | gdlyOn | gdlyOff
deriving DecidableEq, Repr

/-- The registers of a phase block that are not plain storage. -/
inductive PReg where
  | gain | offset
deriving DecidableEq, Repr

/-- The globals that are not plain storage (R430). -/
inductive GReg where
  | state | runCtl | cfgStatus | serialHi | serialLo | siliconRev
  | summitCtl | summitStatus | halfStatus | fwCtl | fwStatus | fwReleaseA | fwReleaseB | fwFloor
  | phActive (k : Fin 3) | tokenStatus
  | imonFault (k : Fin 3) | calCmd | calResult
  | ftCfg | ftNowHi | ftNowLo | ftStatus | ftRate
  | mfIn | crgState | pgStatus (k : Fin 2)
  | tsens (k : Fin 12) | tsensBroken | tzone (k : Fin 10) | tzoneLevel (k : Fin 2) | thermStatus
  | nvmStatus | nvmWear (k : Fin 4) | ledgerStatus | ledgerResolve | ledgerMarkClr | ledgerRun | holdStatus
  | cairnNewest | cairnAck | cairnCtl | cairnSrc (k : Fin 69)
  | pmbAddr | pmbLast
  | tarnExt (k : Fin 32) | tarnExtInfo | tarnStray
  | summary (k : Fin 14) | bcastCorr (k : Fin 2) | scrub (k : Fin 2) | residue (k : Fin 2) | arbFix | safeFix
  | vsup (k : Fin 5) | supStatus | clkStatus | bcastDbl | testCounter (index : Fin 4096)
deriving DecidableEq, Repr

/-- What an index names (R4, R422): a stored entry, a coefficient or a register. A set entry has become its
member. -/
inductive Slot where
  | ctx (c : CtxId) (p : CP)
  | coef (c : CtxId) (k : Coef)
  | creg (c : CtxId) (r : CReg)
  | ph (p : PhaseId) (e : PP)
  | preg (p : PhaseId) (r : PReg)
  | glob (g : GP)
  | greg (r : GReg)
deriving DecidableEq, Repr

/-- The access class of a register (R428 to R430 and the chapters). -/
def CReg.cls : CReg → Access
  | .sel | .lawCtl | .faultCtl | .swCtl => .u
  | .tarnCtl => .ur
  | .modeStatus | .lawStatus | .satFlags | .pulseStatus | .senseStatus | .schStatus | .probeStatus | .faultStatus
  | .tarnStatus | .swStatus => .w1c
  | .pulseDeficit | .phaseStatus | .vgain | .voff | .probePtr | .tripHits | .tarnReq | .tarnNode | .swSgain
  | .swSofs | .swVs | .gdlyOn | .gdlyOff => .ro

/-- The "Ctx 0" column of the context template for the registers (R428). -/
def CReg.ctx0 : CReg → Bool
  | .sel | .satFlags | .vgain | .voff | .senseStatus | .tripHits | .faultStatus | .faultCtl | .swSgain | .swSofs
  | .swVs | .swCtl | .swStatus => true
  | _ => false

def GReg.cls : GReg → Access
  | .runCtl => .u
  | .summitCtl | .ftCfg => .ur
  | .fwCtl | .calCmd | .ledgerResolve | .ledgerMarkClr | .cairnAck | .cairnCtl => .p
  | .summitStatus | .tokenStatus | .imonFault _ | .ftStatus | .thermStatus | .nvmStatus | .ledgerStatus => .w1c
  | _ => .ro

/-- The class of whatever an index names. -/
def Slot.cls : Slot → Access
  | .ctx _ p => p.row.cls
  | .coef _ _ => .u
  | .creg _ r => r.cls
  | .ph _ e => e.row.cls
  | .preg _ _ => .ro
  | .glob g => g.row.cls
  | .greg r => r.cls

/-- The members of a set entry that a field of SEL chooses (R424 to R428): none where the code names no member. -/
def schAt (c : CtxId) (n : Nat) : Option Slot := [.schAdv, .schRise, .schSettle, .schHandover, .schFfslew, .schConf][n]?.map (.ctx c)
def protAt (c : CtxId) (n : Nat) : Option Slot := [.ovMargin, .uvMargin, .ovTime, .uvTime, .ocLevel, .ocTime][n]?.map (.ctx c)
def pgAt (c : CtxId) (n : Nat) : Option Slot := [.pgWin, .pgDelay, .pgEarly][n]?.map (.ctx c)
def gdlyAt (c : CtxId) (n : Nat) : Option Slot :=
  [Slot.ctx c .gdlyOnInit, .ctx c .gdlyOffInit, .creg c .gdlyOn, .creg c .gdlyOff][n]?
def bqAt (c : CtxId) (n : Nat) (f : Fin 5 → Coef) : Option Slot := if h : n < 5 then some (.coef c (f ⟨n, h⟩)) else none

/-- The context-template entry at an offset; a set entry gives the member its SEL fields choose (R424 to R428). None: no
defined entry, or a member code that names no member. -/
def ctxSlotAt (c : CtxId) (off : Nat) (sel : Word) : Option Slot :=
  let n := sel.toNat
  let thr : Fin 8 := ⟨n % 8, by omega⟩
  let p (x : CP) : Option Slot := some (.ctx c x)
  let r (x : CReg) : Option Slot := some (.creg c x)
  let k (x : Coef) : Option Slot := some (.coef c x)
  let l0 : List (Option Slot) :=
    [p .mode, r .modeStatus, r .sel, p .mRatio, p .vset, p .vslew, p .voutMin, p .voutMax,
      p .loadline, p .iMin, p .iMax, p .icmd, k .kp, k .ki, k .kd, k .aD]
  let l1 : List (Option Slot) :=
    [k .kaw, bqAt c (n / 16 % 8) .bq1, bqAt c (n / 16 % 8) .bq2, p .kOn, p .toff, p .kbal, p .balLim, r .lawCtl,
      r .lawStatus, r .satFlags, p .tpause, p .tonMax, p (.add thr), p (.shed thr), r .pulseStatus, r .pulseDeficit]
  let l2 : List (Option Slot) :=
    [r .phaseStatus, p .vdiv, r .vgain, r .voff, r .senseStatus, schAt c (n / 256 % 8), r .schStatus, p .passHeadroom,
      p .passExit, p .trackLeader, p .trackRatio, p .trackOffset, p .probeCfg, p .probeAmp, r .probeStatus, r .probePtr]
  let l3 : List (Option Slot) :=
    [p .probeRptr, p .tripSrc, p .tripCfg, r .tripHits, protAt c (n / 1048576 % 8), p .faultResp0, p .faultResp1, p .retryCfg,
      r .faultStatus, r .faultCtl, pgAt c (n / 65536 % 4), p .tarnCfg, p .tarnVmin, p .tarnVmax, r .tarnReq, r .tarnNode]
  let l4 : List (Option Slot) :=
    [r .tarnStatus, r .tarnCtl, p .pSet, p .ilimMax, p .trip, p .gateTimeout, p .insTime, p .seatDebounce,
      p .gateSrc, p .rshunt, r .swSgain, r .swSofs, r .swVs, gdlyAt c (n / 4096 % 4), r .swCtl, r .swStatus]
  ((l0 ++ l1 ++ l2 ++ l3 ++ l4)[off]?).join

def phSlotAt (p : PhaseId) : Nat → Option Slot
  | 0 => some (.ph p .owner) | 1 => some (.ph p .tmin) | 2 => some (.ph p .dtRise) | 3 => some (.ph p .dtFall)
  | 4 => some (.preg p .gain) | 5 => some (.preg p .offset) | 6 => some (.ph p .thrPause) | 7 => some (.ph p .zone)
  | _ => none

/-- A member of a numbered run of globals: entry `i - lo` of a run of length n. -/
def runAt (n lo i : Nat) (f : Fin n → Slot) : Option Slot :=
  if h : lo ≤ i ∧ i - lo < n then some (f ⟨i - lo, h.2⟩) else none

/-- The value a list gives a key. -/
def look {α : Type} (k : Nat) : List (Nat × α) → Option α
  | [] => none
  | (j, x) :: l => if j = k then some x else look k l

/-- The silicon test counters: what the tables leave of entries 0xB00 to 0xB28 (R430). -/
def testAt (i : Nat) : Option Slot :=
  if h : i < 4096 then (if i % 256 < 41 then some (.greg (.testCounter ⟨i, h⟩)) else none) else none

/-- The global groups of R430: the registers and single parameters of each, by their place in the group; numbered runs. -/
def glob0 (i : Nat) : Option Slot :=
  (look (i % 256)
    [(0, .greg .state), (1, .greg .runCtl), (2, .glob .compat), (3, .greg .cfgStatus), (4, .greg .serialHi),
      (5, .greg .serialLo), (6, .greg .siliconRev)]).or
    (runAt 6 7 i (fun k => .glob (.compatMap k)))
def glob1 (i : Nat) : Option Slot := look (i % 256)
    [(0, .greg .summitCtl), (1, .greg .summitStatus), (2, .greg .halfStatus), (3, .glob .wdogMs), (4, .glob .safeInput),
      (5, .greg .fwCtl), (6, .greg .fwStatus), (7, .greg .fwReleaseA), (8, .greg .fwReleaseB), (9, .greg .fwFloor)]
def glob2 (i : Nat) : Option Slot := look (i % 256)
    [(0, .glob (.pairMask 0)), (1, .glob (.pairMask 1)), (2, .greg (.phActive 0)), (3, .greg (.phActive 1)), (4, .greg (.phActive 2)),
      (5, .greg .tokenStatus)]
def glob3 (i : Nat) : Option Slot :=
  (look (i % 256)
    [(16, .glob (.imonType 0)), (17, .glob (.imonType 1)), (18, .greg (.imonFault 0)), (19, .greg (.imonFault 1)), (20, .greg (.imonFault 2)),
      (21, .glob .calTrue), (22, .greg .calCmd), (23, .greg .calResult)]).or
    ((runAt 8 0x300 i (fun k => .glob (.stageNom k))).or (runAt 8 0x308 i (fun k => .glob (.stageRate k))))
def glob4 (i : Nat) : Option Slot := look (i % 256)
    [(0, .greg .ftCfg), (1, .glob .ftLoadHi), (2, .glob .ftLoadLo), (3, .greg .ftNowHi), (4, .greg .ftNowLo),
      (5, .greg .ftStatus), (6, .greg .ftRate)]
def glob5 (i : Nat) : Option Slot :=
  (look (i % 256)
    [(16, .glob .mfOut), (17, .greg .mfIn)]).or
    (runAt 16 0x500 i (fun k => .glob (.mfSel k)))
def glob6 (i : Nat) : Option Slot :=
  (look (i % 256)
    [(0, .glob (.crgCfg 0)), (1, .glob (.crgCfg 1)), (10, .greg .crgState), (11, .glob (.pgAllMask 0)), (12, .glob (.pgAllMask 1)),
      (13, .greg (.pgStatus 0)), (14, .greg (.pgStatus 1))]).or
    (runAt 8 0x602 i (fun k => .glob (.crgWin k)))
def glob7 (i : Nat) : Option Slot :=
  (look (i % 256)
    [(9, .glob .txEn), (10, .glob (.txZone 0)), (11, .glob (.txZone 1)), (12, .glob .ntcR25), (13, .glob .ntcB),
      (26, .greg .tsensBroken), (37, .greg (.tzoneLevel 0)), (38, .greg (.tzoneLevel 1)), (39, .greg .thermStatus)]).or
    (((runAt 9 0x700 i (fun k => .glob (.therm k))).or (runAt 12 0x70E i (fun k => .greg (.tsens k)))).or
        (runAt 10 0x71B i (fun k => .greg (.tzone k))))
def glob8 (i : Nat) : Option Slot :=
  (look (i % 256)
    [(0, .glob .nvmBp), (1, .greg .nvmStatus), (6, .glob .ledgerCfg), (7, .greg .ledgerStatus), (8, .greg .ledgerResolve),
      (9, .greg .ledgerMarkClr), (10, .greg .ledgerRun), (11, .greg .holdStatus), (12, .greg .cairnNewest), (13, .greg .cairnAck),
      (14, .greg .cairnCtl)]).or
    ((runAt 4 0x802 i (fun k => .greg (.nvmWear k))).or (runAt 69 0x80F i (fun k => .greg (.cairnSrc k))))
def glob9 (i : Nat) : Option Slot := look (i % 256)
    [(0, .glob .pmbCfg), (1, .greg .pmbAddr), (2, .greg .pmbLast)]
def glob10 (i : Nat) : Option Slot :=
  (look (i % 256)
    [(0, .glob .tarnCfg), (37, .greg .tarnExtInfo), (38, .greg .tarnStray)]).or
    ((runAt 4 0xA01 i (fun k => .glob (.tarnMap k))).or (runAt 32 0xA05 i (fun k => .greg (.tarnExt k))))
def glob11 (i : Nat) : Option Slot :=
  (look (i % 256)
    [(14, .greg (.bcastCorr 0)), (15, .greg (.bcastCorr 1)), (16, .greg (.scrub 0)), (17, .greg (.scrub 1)), (18, .greg (.residue 0)),
      (19, .greg (.residue 1)), (20, .greg .arbFix), (21, .greg .safeFix), (27, .greg .supStatus), (28, .greg .clkStatus),
      (29, .greg .bcastDbl)]).or
    (((runAt 14 0xB00 i (fun k => .greg (.summary k))).or (runAt 5 0xB16 i (fun k => .greg (.vsup k)))).or (testAt i))

/-- The global an index names (R422, R430). -/
def globSlotAt (i : Nat) : Option Slot :=
  ([glob0, glob1, glob2, glob3, glob4, glob5, glob6, glob7, glob8, glob9, glob10, glob11][i / 256]?).bind (fun f => f i)

/-- The entry an index names, through the SEL copies of one interface (R4, R422, R425). -/
def slotAt (sel : CtxId → Word) (i : Nat) : Option Slot :=
  if i < 0x1000 then globSlotAt i
  else if i < 0x3000 then
    let c : CtxId := ⟨((i - 0x1000) / 128) % 64, by omega⟩
    ctxSlotAt c ((i - 0x1000) % 128) (sel c)
  else if h : 0x4000 ≤ i ∧ i < 0x4600 then phSlotAt ⟨(i - 0x4000) / 16, by omega⟩ ((i - 0x4000) % 16)
  else none

end Sys2Proof.Machine
end

