-- ==== Sys2Proof/Machine/State.lean ====
section
/-!
DEFINITION. The state of the block, by chapter of the spec, and the state right after reset.
-/
namespace Sys2Proof.Machine

/-- The device states of R33. -/
inductive DevState where
  | cold
  | boot
  | standby
  | run
  | safe
  | holdup
deriving DecidableEq, Repr

/-- The transitions that compete in one fab cycle, in the order of R34: HOLDUP, RESET_N, SAFE, and any other. -/
inductive Trig where
  | holdup
  | reset
  | safe
  | standby
  | run
deriving DecidableEq, Repr

/-- One half of the die (R12): its cells, its Spur timing blocks, and the edge words it issued at the newest tag. -/
structure Half where
  cell : Vector Cell 64 := Vector.replicate 64 Cell.boot
  ph : Vector HPhase 96 := Vector.replicate 96 {}
  edges : List EdgeWord := []
  /-- the stream of R287: phase states at the present tag's first fast tick; those of the tag before, with its edge words -/
  first : Vector PhState 96 := Vector.replicate 96 .unbound
  prevFirst : Vector PhState 96 := Vector.replicate 96 .unbound
  prevEdges : List EdgeWord := []
deriving DecidableEq, Repr

/-- A parameter write, or a change of the device itself, that waits for its commit tag (R25). -/
inductive Act where
  | ctxPar (c : CtxId) (p : CP) (v : Int)
  | coef (c : CtxId) (k : Coef) (v : Int)
  | swap (c : CtxId)
  | phPar (p : PhaseId) (e : PP) (v : Int)
  | glob (g : GP) (v : Int)
  | railCal (c : CtxId) (gain off : Int)
  | phaseCal (p : PhaseId) (gain : Int) (provisional : Bool)
  | shuntCal (c : CtxId) (gain : Int) (provisional : Bool)
  | runReq (on : Bool)
  | safeClr
  | ftArm (on : Bool)
  | schedEnter (c : CtxId) (serial : Nat)
  | swCtl (c : CtxId) (on clear : Bool)
  | faultCtl (c : CtxId) (clear retryReset : Bool)
  | tarnRelease (c : CtxId)
  | handover
  | traceStart (c : CtxId) (w : Word)
  | throttle (p : PhaseId) (pause : Nat)
  | tallySub (account : Fin 128) (v : Int)
  | take
  | fwCtl (op : Fin 16) (bank : Bool)
  | calStart
  | resolve (item : Fin 32) (add : Bool)
  | cairnAck (w : Word)
  | cairnErase
deriving DecidableEq, Repr

/-- A waiting act and its commit tag, as a count of sample enables since the sync pulse. -/
structure Commit where
  tag : Nat
  act : Act
deriving DecidableEq, Repr

/-- Device states, boot and power (01_architecture.md, 15_supply_pins_and_ratings.md). -/
structure Dev where
  st : DevState := .boot
  /-- the step of R40 that the boot sequence has come to; 2 once the supplies are up -/
  bootStep : Nat := 0
  causePin : Bool := false
  causeNoHalf : Bool := false
  causeClock : Bool := false
  causeFault : Bool := false
  /-- fab cycle in which each cause last arose: PIN, NO_HALF, CLOCK, FAULT (R39) -/
  causeAt : Vector (Option Nat) 4 := Vector.replicate 4 none
  /-- fab cycle of the last transition, and the triggers that lost in it (R34) -/
  movedAt : Option Nat := none
  lost : List Trig := []
  cfgDefaulted : Bool := false
  calDefaulted : Bool := false
  /-- step 5 of R40 has restored the configuration and the calibration words -/
  restored : Bool := false
  runReq : Bool := false
  /-- rundown in progress and the instant it began (R36) -/
  rundown : Option Nat := none
  blocksReset : Nat := 0
  generation : Nat := 0
  records : Nat := 0
  freshSave : Bool := false
  /-- the restored index, member and word triples that a waiting fresh save is to write (R439) -/
  freshPairs : List (Nat × Nat × Word) := []
  compatEn : Bool := false
  compatMap : Vector Int 6 := Vector.replicate 6 4294967295
  rstLow : Bool := false
  safeNLow : Bool := false
  vinOn : Bool := true
  /-- supplies in undervoltage: IO, A, H, E, W (R444) -/
  uvIo : Bool := false
  uvA : Bool := false
  uvH : Bool := false
  uvE : Bool := false
  uvW : Bool := false
  /-- the internal rails come up: step 6 of the power-up has not been reached (R448) -/
  powerUp : Bool := true
  drivers : Bool := false
  holdSwitch : Bool := false
  /-- readings of R452, R453 and R454, as a read takes them -/
  vsup : Vector Nat 5 := Vector.replicate 5 0
  supStatus : Word := 0
  rcMhz : Nat := 0
  /-- levels of the MF pins (R222) -/
  mfPins : BitVec 16 := 0
deriving DecidableEq, Repr

/-- Time (R31, R109) and the clock monitor (R309, R454). -/
structure Clk where
  /-- fast ticks since the Heath sync pulse -/
  fast : Nat := 0
  /-- fast ticks since COLD: the Heath's own time, which the sync pulse does not restart -/
  time : Nat := 0
  synced : Bool := false
  srcRef : Bool := false
  rootOk : Bool := false
  lockE : Bool := false
  lockW : Bool := false
  lockH : Bool := false
  lossCount : Nat := 0
  /-- tag of the last INNER_DECISION (R143) -/
  lastInner : Option Nat := none
deriving DecidableEq, Repr

/-- The mode machinery of a context (07_rail_modes.md). -/
structure ModeS where
  eff : BitVec 8 := 0
  passInForce : Bool := false
  /-- PASS left force on a high bus and waits for the headroom (R209) -/
  passWait : Bool := false
  designated : Option PhaseId := none
  rejoin : Bool := false
  leaderLost : Bool := false
  /-- tag at which the last MODE write took effect (R210) -/
  writtenAt : Option Nat := none
  passMoved : Bool := false
  passBlocked : Bool := false
  passExited : Bool := false
  trackIgnored : Bool := false
  cmdLogged : Bool := false
  probeRefused : Bool := false
  /-- W1C bits and counts set in earlier fab cycles, in the layout of the status word (R7) -/
  old : Word := 0
deriving DecidableEq, Repr

/-- Probe states (R226). -/
inductive ProbeState where
  | idle
  | settling
  | integrating
  | paused
  | done
  | refusedPass
  | refusedBusy
  | aborted
deriving DecidableEq, Repr

/-- The probe of a context (R215 to R226). -/
structure Probe where
  st : ProbeState := .idle
  point : Nat := 0
  acc : Nat := 0
  cycles : Nat := 0
  inI : Int := 0
  inQ : Int := 0
  outI : Int := 0
  outQ : Int := 0
  /-- sequence register, s[1] in bit 0 (R218) -/
  seq : BitVec 15 := 0
  chipVal : Bool := false
  chipCount : Nat := 0
  chips : Nat := 0
  periods : Nat := 0
  wptr : Nat := 0
  overruns : Nat := 0
  sumSat : Bool := false
  overrun : Bool := false
  disturbed : Bool := false
  done : Bool := false
  /-- the PROBE bit of the last boundary: a probe starts once per setting (R215) -/
  bitSeen : Bool := false
  /-- a new target took effect and REF has not reached it (R203) -/
  tgtWait : Bool := false
  injV : Int := 0
  injI : Int := 0
  /-- W1C bits and counts set in earlier fab cycles, in the layout of the status word (R7) -/
  old : Word := 0
  oldOverruns : Nat := 0
deriving DecidableEq, Repr

/-- Who owns the capture area (R221). -/
inductive CapOwner where
  | none
  | probe
  | trace
deriving DecidableEq, Repr

/-- Rail sensing of a context in the Heath (05_sensing_and_calibration.md). -/
structure Sense where
  /-- rail codes of the window, newest first, at most 32 (R144) -/
  codes : List Nat := []
  /-- fast tick of the last rail word (R143) -/
  lastWord : Option Nat := none
  openRun : Nat := 0
  senseOpen : Bool := false
  imonFault : Bool := false
  azAbort : Bool := false
  iswSat : Bool := false
  classB : Bool := false
  /-- calibrated VGAIN and VOFF, if any (R165) -/
  cal : Option (Int × Int) := none
  /-- W1C bits and counts set in earlier fab cycles, in the layout of the status word (R7) -/
  old : Word := 0
deriving DecidableEq, Repr

/-- Kinds of a schedule event (R179). -/
inductive EvKind where
  | on
  | off
  | step
deriving DecidableEq, Repr

/-- Outcomes of an event (R193). -/
inductive EvOutcome where
  | confirmed
  | missed
  | notStarted
  | superseded
  | cancelled
  | expired
deriving DecidableEq, Repr

/-- One schedule event from its acceptance to its end (R179 to R195). -/
structure Event where
  /-- order of acceptance on the device -/
  serial : Nat
  w0 : Word
  w1 : Word
  w2 : Word
  w3 : Word
  kind : EvKind
  /-- event time in field microseconds; a deferral moves it (R186) -/
  t : Nat
  lead : Nat
  di : Int
  peak : Int
  ident : Nat
  /-- entered both halves' queues at its commit tag (R181) -/
  entered : Bool := false
  /-- accepted late: its lead instant is the first boundary at or after the commit tag -/
  late : Bool := false
  leadDone : Bool := false
  floor : Nat := 0
  /-- gate instant the Heath holds, in units of 2^-40 field microseconds (R185) -/
  armed : Option Nat := none
  gateDone : Bool := false
  /-- continues as a STEP (R186) -/
  asStep : Bool := false
  k : Nat := 0
  rise : Nat := 1
  settle : Nat := 0
  handover : Nat := 1
  /-- profile, in East and in West (R187) -/
  fE : Tagged := {}
  fW : Tagged := {}
  confirmed : Bool := false
  confTime : Nat := 0
  isw0 : Option Int := none
  closed : Bool := false
  /-- the last word of the confirmation window has arrived (R189) -/
  lastHere : Bool := false
  /-- B_t has fallen: the first boundary whose field-time word is at or after t (R172, R194) -/
  reached : Bool := false
  withdrawing : Bool := false
  outcome : Option EvOutcome := none
  ended : Bool := false
  dMeas : Option Nat := none
deriving DecidableEq, Repr

/-- The schedule of a context (06_section_schedule.md). -/
structure Sched where
  events : List Event := []
  missCount : Nat := 0
  lateCount : Nat := 0
  iffClamp : Bool := false
  expired : Bool := false
  cancelled : Bool := false
  notStarted : Bool := false
  late : Bool := false
  missed : Bool := false
  nFloor : Nat := 0
  /-- ends, in field microseconds, of the confirmation windows that confirmed events left open as they ended (R189, R203) -/
  windows : List Nat := []
  /-- SCH_ADV, SCH_RISE, SCH_SETTLE and SCH_HANDOVER as the last boundary found them (R197) -/
  adv : Nat := 2
  rise : Nat := 20
  settle : Nat := 200
  handover : Nat := 2000
  /-- W1C bits and counts set in earlier fab cycles, in the layout of the status word (R7) -/
  old : Word := 0
deriving DecidableEq, Repr

/-- The shared machinery of a phase (05, 09). -/
structure PhaseS where
  acc : Vector Int 6 := Vector.replicate 6 0
  inF : Vector Int 6 := Vector.replicate 6 0
  /-- a change of OWNER that R22 has not finished, its tag, and the context that held the token before it (R134) -/
  moving : Bool := false
  movedTag : Nat := 0
  heldBy : CtxId := 0
  /-- final gain; a record that is only provisional (R150, R162) -/
  gainFinal : Option Int := none
  provisional : Bool := false
  offsetValid : Bool := false
  /-- tags in a row, up to the newest, at which the phase carried no current (R153) -/
  quiet : Nat := 0
  /-- auto-zero window: tags taken, and the context the phase served at its start (R153, R154) -/
  azRun : Option Nat := none
  azCtx : CtxId := 0
  azMissed : Nat := 0
  azStale : Bool := false
  /-- consecutive full-scale tags while PARKED, and consecutive tags of its IREF outside the window (R158) -/
  fullRun : Nat := 0
  irefRun : Nat := 0
  imonBit : Bool := false
  imonNow : Bool := false
  /-- made unavailable by PHASE_OC, PHASE_OT, SENSE_IMON (R258, R263) -/
  unavOc : Bool := false
  unavOt : Bool := false
  unavImon : Bool := false
  ocSeen : Bool := false
  ocTimer : Nat := 0
  /-- at the safe level until its next start edge (R127) -/
  forced : Bool := true
  /-- fast tick of a start edge that the output stage is to follow (R127) -/
  followAt : Option Nat := none
  throttle : Nat := 0
  /-- the IMON_FAULT bit set in an earlier fab cycle (R7) -/
  imonOld : Bool := false
deriving DecidableEq, Repr

/-- Switch channel states (R244). -/
inductive ChState where
  | unseated
  | seating
  | off
  | starting
  | on
  | stopping
  | fault
deriving DecidableEq, Repr

/-- Causes of a channel fault, in the order of R245; none is 0x0. -/
inductive ChCause where
  | none
  | seatLost
  | fastTrip
  | startShort
  | foldbackTimeout
  | gateNotRising
  | gateLow
  | gateStuck
  | senseShunt
deriving DecidableEq, Repr

/-- A deferred ON: its original instant, when it is due, and the schedule event that asked for it (R234). -/
structure Deferred where
  original : Nat
  due : Nat
  event : Option Nat
deriving DecidableEq, Repr

/-- One switch channel, in the Heath (08_section_switches.md). Instants are in Heath fast ticks of `Clk.time`. -/
structure Chan where
  st : ChState := .unseated
  cause : ChCause := .none
  on : Bool := false
  tripCount : Nat := 0
  seated : Bool := false
  conducting : Bool := false
  limiting : Bool := false
  startBlocked : Bool := false
  seatGlitch : Bool := false
  passDeviceFail : Bool := false
  startShort : Bool := false
  foldbackTimeout : Bool := false
  fastTrip : Bool := false
  seatLost : Bool := false
  seatLowSince : Option Nat := none
  /-- VGS against 1.0 V, 4.0 V and 9.0 V: how many levels it exceeds -/
  vgs : Fin 4 := 0
  /-- the fast-trip comparator's output and the shunt voltage it saw last, in microvolts; its present trip has been counted
  (R239, R240) -/
  tripped : Bool := true
  shuntUv : Option Int := none
  tripCounted : Bool := false
  gateStart : Nat := 0
  /-- the last gate start, as the MF pins mark it (R222) -/
  gateAt : Option Nat := none
  proven : Bool := false
  /-- waiting for the first conduction edge of a start or the last of a stop (R192), and since when -/
  measOn : Option Nat := none
  measOff : Option Nat := none
  pullStart : Nat := 0
  /-- gate current in microamperes, numerator and denominator (R236) -/
  gate : Int × Nat := (0, 1)
  insTimer : Nat := 0
  foldTimer : Nat := 0
  /-- non-limiting words in a row -/
  calm : Nat := 0
  /-- an ON command held to the end of STOPPING, and the schedule event that gave it (R233) -/
  heldOn : Bool := false
  heldEv : Option Nat := none
  deferred : Option Deferred := none
  /-- the fast tick of the last OFF command, which wins over an ON of the same tick (R233) -/
  offAt : Option Nat := none
  /-- the schedule event that began the last gate ramp (R186, R233) -/
  startEv : Option Nat := none
  /-- the schedule event whose OFF command began the pull-down that is being measured (R192, R193) -/
  offEv : Option Nat := none
  granted : Bool := false
  /-- cause recorded at FAULT entry and not declared yet; the gate was stuck at 20 us (R245) -/
  toDeclare : Option ChCause := none
  stuckSeen : Bool := false
  /-- the fast tick of the last entry to FAULT, and the state and LIMITING that it found (R245) -/
  faultAt : Option Nat := none
  faultFrom : ChState := .unseated
  faultLim : Bool := false
  /-- an ON follows the release of a retry (R246) -/
  retryOn : Bool := false
  /-- a channel class of LATCH_OFF holds the FAULT: no retry releases it (R261, R262) -/
  latchOff : Bool := false
  retryDue : Option Nat := none
  isw : Int := 0
  remIsw : Tagged := {}
  cal : Option Int := none
  provisional : Bool := false
  sofs : Int := 0
  /-- a window's mean lay above the limit, and no window has zeroed the shunt since (R157, R158) -/
  zeroFault : Bool := false
  /-- SENSE_SHUNT by auto-zero waits for the next shunt word to be declared (R245) -/
  senseDue : Bool := false
  zeroed : Bool := false
  zeroRun : Option (Nat × Int) := none
  /-- fast tick of the last shunt word (R143) -/
  lastWord : Option Nat := none
  zeroMissed : Nat := 0
  offSince : Nat := 0
  openRun : Nat := 0
  /-- the ISW words of the last millisecond, newest first, at most 1,000 (R393) -/
  isws : List Int := []
  vs : Int := 0
  d8On : Int := 32000
  d8Off : Int := 3200
  /-- W1C bits and counts set in earlier fab cycles, in the layout of the status word (R7) -/
  old : Word := 0
deriving DecidableEq, Repr

/-- Protection and power-good of a context (09_protection_and_thermal.md). -/
structure Prot where
  /-- instant since which the input of the trip group is tripped (R254) -/
  tripFilter : Option Nat := none
  tripAsserted : Bool := false
  tripSeen : Bool := false
  /-- TRIP_HITS, wrapping (R257) -/
  tripHits : Nat := 0
  ovTimer : Nat := 0
  uvTimer : Nat := 0
  ovDeclared : Bool := false
  uvDeclared : Bool := false
  declCount : Nat := 0
  lastClass : Fin 16 := 15
  retryUsed : Nat := 0
  latched : Bool := false
  retryExhausted : Bool := false
  /-- the retries have been used up and no CLEAR has come since (R264) -/
  exhausted : Bool := false
  classFlags : BitVec 14 := 0
  /-- instant at which a RETRY releases, and whether its channel was on (R264) -/
  retryDue : Option Nat := none
  retryChanOn : Bool := false
  /-- apply the ON command at the first boundary of the retried regulation -/
  retryApplyOn : Bool := false
  lastRetry : Nat := 0
  lastFailover : Option Nat := none
  pg : Bool := false
  pgEver : Bool := false
  atTargetSeen : Bool := false
  pgRun : Nat := 0
  railUnavail : Bool := false
  ringFrozen : Bool := false
  ringPos : Nat := 0
  /-- boundaries a fault snapshot waits for: number of Cairn requests that share it (R69) -/
  snapshots : Nat := 0
  /-- W1C bits and counts set in earlier fab cycles, in the layout of the status word (R7) -/
  old : Word := 0
deriving DecidableEq, Repr

/-- Tarn KINDs of a voltage or current request (R409). -/
structure TarnReq where
  kind : Nat := 0
  slew : Nat := 0
  prio : Nat := 0
  value : Nat := 0
  /-- a reserved bit of the request is set (R409, R411) -/
  bad : Bool := false
deriving DecidableEq, Repr

/-- The Tarn machinery of an address, in the context's block (13_tarn_link.md). -/
structure TarnS where
  inForce : Option TarnReq := none
  /-- last answer code (R419) -/
  lastAnswer : Nat := 0
  /-- request waiting for its judgement and the tag of its arrival (R410) -/
  waiting : Option (TarnReq × Nat) := none
  answer : Option Nat := none
  /-- STATUS bits 5 to 0 of the last clean reply, and its node data (R408) -/
  nodeBits : Nat := 0
  node : Word := 0
  violCount : Nat := 0
  run : Nat := 0
  lastViol : Nat := 0
  quarantined : Bool := false
  dup : Bool := false
  released : Bool := false
  quarFlag : Bool := false
  viol : Bool := false
  cleanRun : Nat := 0
  learned : Option (BitVec 64) := none
  /-- quarantined for a duplicate address: never released automatically (R418) -/
  dupQuar : Bool := false
  /-- a release was written in this fab cycle (R418): whether it ended a quarantine, and the serial it discarded -/
  tie : Option (Bool × Option (BitVec 64)) := none
  seq : Nat := 0
  diagNext : Bool := false
  /-- W1C bits and counts set in earlier fab cycles, in the layout of the status word (R7) -/
  old : Word := 0
deriving DecidableEq, Repr

/-- One context's control plane. -/
structure Ctx where
  acc : Vector Int 74 := Vector.replicate 74 0
  inF : Vector Int 74 := Vector.replicate 74 0
  selM0 : Word := 0
  selM1 : Word := 0
  selPmb : Word := 0
  swapPending : Bool := false
  view : Bool := false
  regulating : Bool := false
  /-- outer-sample count of the next boundary (R72), boundary grid (R24) and last boundary done, in sample enables -/
  outerCount : Nat := 0
  anchor : Nat := 0
  lastDone : Option Nat := none
  /-- the boundary of the outer sample that was scrubbed last (R63) -/
  scrubbed : Option Nat := none
  /-- the context has run no outer step since it began (R79) -/
  firstStep : Bool := true
  tgt : Int := 0
  tgtSrc : Int × Int × Int := (0, 0, 0)
  tracked : Bool := false
  gapSign : Int := 0
  redirects : Nat := 0
  reversed : Bool := false
  redirected : Bool := false
  tgtClamped : Bool := false
  /-- a write or a request has set the target or its window since the last boundary (R75) -/
  tgtFresh : Bool := false
  /-- fields of PHASE_STATUS at the last boundary (R138) -/
  phaseStatus : Word := 0
  mode : ModeS := {}
  probe : Probe := {}
  owner : CapOwner := .none
  /-- a trace: start word, write position, pairs written, pairs left after its trigger, stopped (R377) -/
  traceWord : Word := 0
  tracePos : Nat := 0
  tracePairs : Nat := 0
  traceTail : Option Nat := none
  traceRunning : Bool := false
  traceSkip : Nat := 0
  sense : Sense := {}
  sched : Sched := {}
  chan : Chan := {}
  prot : Prot := {}
  tarn : TarnS := {}
  /-- committed charge and energy, class-B marks of the accounts (R337, R339) -/
  charge : Int := 0
  energy : Int := 0
  markQ : Bool := false
  markE : Bool := false
  /-- a class-B increment lies in U, and in S, of the account of charge and of that of energy (R339) -/
  uMarkQ : Bool := false
  uMarkE : Bool := false
  sMarkQ : Bool := false
  sMarkE : Bool := false
  inputSeen : Bool := false
  /-- broadcast corrections of the context, East and West (R16, R70) -/
  corrE : Nat := 0
  corrW : Nat := 0
  /-- W1C bits and the count of LAW_STATUS set in earlier fab cycles (R7) -/
  oldLaw : Word := 0
deriving DecidableEq, Repr

/-- Conditions of a half that cost its eligibility, and its supervisor (10_summit_and_failover.md). -/
structure HalfS where
  retired : Bool := false
  resyncing : Bool := false
  disagreed : Bool := false
  supRestarted : Bool := false
  coreUv : Bool := false
  dieShut : Bool := false
  /-- a cell freeze was requested, and the tag of the request while its end has not come: the cells stop at the next tag boundary
  (R308) -/
  frozen : Bool := false
  freezeTag : Option Nat := none
  /-- tag of an UNFREEZE: the cells stand still to its end (R477) -/
  thawTag : Option Nat := none
  hbLost : Bool := false
  /-- heartbeats missed in a row, and the tag of the last heartbeat that was judged (R296) -/
  hbMisses : Nat := 0
  hbTag : Option Nat := none
  silent : Bool := false
  writeMiss : Bool := false
  attribErr : Bool := false
  selftestFail : Bool := false
  /-- neither bank held a verified image when the half booted (R307) -/
  noImage : Bool := false
  eligible : Bool := false
  /-- instant at which the third heartbeat was missed (R290, R296) -/
  hbAt : Nat := 0
  /-- instants of the attributing errors of the last second (R291) -/
  errTimes : List Nat := []
  /-- tags of the attributing errors of the last eight tags (R289) -/
  errTags : List Nat := []
  resyncTag : Option Nat := none
  /-- the holder's state has been copied; a copied word was uncorrectable, or a compared tag differed (R302, R303) -/
  resyncCopied : Bool := false
  resyncBad : Bool := false
  resyncFails : Nat := 0
  release : Bool := false
  freezeWait : Bool := false
  supRunning : Bool := false
  supHalted : Bool := false
  supBoot : Option Nat := none
  /-- the instant from which its watchdog has counted, moved on by its pauses; while the supervisor is halted, what it had counted
  (R297, R308) -/
  supSince : Nat := 0
  runsRelease : Word := 0
  bootedB : Bool := false
  scrub : Nat := 0
  bcastCorr : Nat := 0
  bindA : Vector (CtxId × Ecc) 96 := Vector.replicate 96 (0, .ok)
  bindB : Vector (CtxId × Ecc) 96 := Vector.replicate 96 (0, .ok)
deriving DecidableEq, Repr

/-- The summit arbiter and firmware (10_summit_and_failover.md). -/
structure Summit where
  /-- the state words of the arbiter's three copies, and what the ECC code of each would find (R292) -/
  armA : Option HalfId := none
  armB : Option HalfId := none
  armC : Option HalfId := none
  eccA : Ecc := .ok
  eccB : Ecc := .ok
  eccC : Ecc := .ok
  /-- the three copies of the safe-state logic: the safe state is held (R312) -/
  safeA : Bool := false
  safeB : Bool := false
  safeC : Bool := false
  east : HalfS := {}
  west : HalfS := {}
  /-- a handover: when it was taken -/
  handoverAt : Option Nat := none
  handoverBit : Bool := false
  disagreeTag : Option Nat := none
  /-- instant at which the tag of the last unattributed disagreement began (R289) -/
  lastDisagree : Option Nat := none
  failovers : Nat := 0
  unattribs : Nat := 0
  supRestarts : Nat := 0
  fAlert : Bool := false
  fUnattrib : Bool := false
  fFailover : Bool := false
  fHandover : Bool := false
  fRefused : Bool := false
  fResyncFail : Bool := false
  fSupRestart : Bool := false
  /-- the halves run their self-test again, in SAFE without a holder (R294) -/
  testing : Bool := false
  arbFix : Nat := 0
  safeFix : Nat := 0
  bcastDbl : Nat := 0
  /-- last word written to FW_CTL -/
  fwCtl : Word := 0
  fwCode : Nat := 0
  fwOp : Nat := 0
  fwBank : Bool := false
  fwRunning : Bool := false
  fallback : Bool := false
  mixed : Bool := false
  bankAValid : Bool := false
  bankBValid : Bool := false
  releaseA : Word := 0
  releaseB : Word := 0
  floor : Word := 0
  /-- the last VERIFY of the bank answered OK, and the bank has not been written since (R305, R379) -/
  verifiedA : Bool := false
  verifiedB : Bool := false
  /-- code flash: the words programmed since the last erase, by word offset; a bank that was never erased holds what the
  part was shipped with (log entry 10) -/
  flashA : List (Nat × Option Word) := []
  flashB : List (Nat × Option Word) := []
  erasedA : Bool := false
  erasedB : Bool := false
  /-- W1C bits and counts set in earlier fab cycles, in the layout of the status word (R7) -/
  old : Word := 0
deriving DecidableEq, Repr

/-- Field time (06_section_schedule.md). -/
structure FieldT where
  /-- the 88-bit field time, in units of 2^-40 microseconds (R171), and its value at the tag's first fast tick (R172) -/
  ft : Nat := 0
  ftTag : Nat := 0
  rate : Nat := 2748779069
  freq : Nat := 2748779069
  valid : Bool := false
  locked : Bool := false
  holdover : Bool := false
  stepped : Bool := false
  glitch : Bool := false
  stepCount : Nat := 0
  phaseErr : Int := 0
  armBit : Bool := false
  /-- no accepted edge yet since SRC or EDGE changed, or since a load was armed (R173) -/
  openSrc : Bool := true
  openArm : Bool := false
  /-- field time at the last accepted edge, and the instant HOLDOVER is counted from (R176) -/
  lastEdge : Option Nat := none
  lastAt : Nat := 0
  good : Nat := 0
  /-- the value an armed load brings (R174) -/
  armLoad : Nat := 0
  latchM0 : Option Word := none
  latchM1 : Option Word := none
  latchPmb : Option Word := none
  /-- W1C bits and counts set in earlier fab cycles, in the layout of the status word (R7) -/
  old : Word := 0
deriving DecidableEq, Repr

/-- What a calibration captures (R159). -/
inductive CalTarget where
  | railP1 (c : CtxId)
  | railP2 (c : CtxId)
  | phaseGain (p : PhaseId)
  | shuntGain (c : CtxId)
deriving DecidableEq, Repr

/-- The calibration engine (05_sensing_and_calibration.md). -/
structure CalS where
  lastCmd : Word := 0
  /-- an accepted command that waits for its commit tag (R25, R159) -/
  waiting : Option CalTarget := none
  running : Option CalTarget := none
  trueV : Int := 0
  sum : Int := 0
  count : Nat := 0
  aborted : Bool := false
  /-- pending point V1, C1 and the die temperature it was taken at, with its context (R160) -/
  point : Option (CtxId × Int × Int × Int) := none
  /-- payload bytes of the record being written, and what takes force when it is (R163) -/
  writing : Option (CalTarget × Nat × List Byte × Int × Int × Bool) := none
  loadFrac : Nat := 0
  code : Nat := 0
  op : Nat := 0
deriving DecidableEq, Repr

/-- A zone's level (R277). -/
inductive Level where
  | normal
  | warn
  | throttle
  | shut
deriving DecidableEq, Repr

/-- A zone: its value, level, and the run of candidates (R277): direction up, count, lowest or highest candidate. -/
structure Zone where
  v : Int := 0
  level : Level := .normal
  seen : Bool := false
  runUp : Bool := false
  run : Nat := 0
  best : Level := .normal
deriving DecidableEq, Repr

/-- Temperature (R273 to R286). -/
structure Therm where
  reading : Vector Int 24 := Vector.replicate 24 0
  broken : BitVec 24 := 0
  zone : Vector Zone 19 := Vector.replicate 19 {}
  /-- instants of each sensor's last sample and of each zone's last evaluation (R275) -/
  sampledAt : Vector (Option Nat) 24 := Vector.replicate 24 none
  evalAt : Vector (Option Nat) 19 := Vector.replicate 19 none
  fBroken : Bool := false
  fHeath : Bool := false
  fDie : Bool := false
  fPh : Bool := false
  fThrottle : Bool := false
  fWarn : Bool := false
  /-- W1C bits and counts set in earlier fab cycles, in the layout of the status word (R7) -/
  old : Word := 0
deriving DecidableEq, Repr

/-- A Crag comparator: its output and the differential input it saw last, in microvolts (R251, R252). -/
structure Crag where
  tripped : Bool := true
  diff : Int := 0
deriving DecidableEq, Repr

/-- A waiting request (R372): a mailbox slot. -/
structure Req where
  box : Iface
  slot : Fin 4
deriving DecidableEq, Repr

/-- What the write engine of the record store is at (R331). -/
inductive Work where
  | idle
  /-- the Cairn request at the head of the queue; the erase of the Cairn -/
  | cairn
  | erase
  /-- the next record of a host-initiated write; a calibration record -/
  | host
  | cal
  /-- the next tally entry; the base records of a consolidation; a routine write of the device's own -/
  | entry
  | consolidate
  | own
  | reclaim (area : Fin 3)
deriving DecidableEq, Repr

/-- The device's routine writes, in the order in which they arose (R281): the entries of a take, the NVM_BP record, and a fresh
save of the restored configuration. -/
inductive Routine where
  | entries
  | bp
  | fresh
deriving DecidableEq, Repr

/-- The record store (11_ledger_and_record_store.md). -/
structure Store where
  mem : List Host.Cell := []
  /-- next position of each log area Q1, Q2, Q3, of the tally ring and of the Q0 ring -/
  ptrQ1 : Nat := 0
  ptrQ2 : Nat := 0
  ptrQ3 : Nat := 0
  ptrTally : Nat := 0
  ptrCairn : Nat := 0
  eraseCount : Vector Nat 32 := Vector.replicate 32 0
  retiredBlocks : BitVec 32 := 0
  work : Work := .idle
  /-- routine writes that wait; one of them has met the window or a throttle, and they have not resumed since (R281) -/
  routine : List Routine := []
  deferred : Bool := false
  held : Bool := false
  /-- CAIRN_CTL.ERASE has taken effect, and the erase is not done (R351) -/
  erasing : Bool := false
  worn : Bool := false
  blockRetired : Bool := false
  rsTie : Bool := false
  /-- host-initiated write in progress: records left to write and where its answer goes (R332) -/
  hostWrite : Option (Nat × Option Req) := none
  /-- records the host-initiated write still has to program: type, identity and payload -/
  hostQueue : List (Nat × Nat × List Byte) := []
  /-- W1C bits and counts set in earlier fab cycles, in the layout of the status word (R7) -/
  old : Word := 0
deriving DecidableEq, Repr

/-- The ledger (11_ledger_and_record_store.md). -/
structure Ledger where
  /-- last words written to LEDGER_RESOLVE and LEDGER_MARK_CLR -/
  lastResolve : Word := 0
  lastMarkClr : Word := 0
  run : Word := 0
  nextSeq : Nat := 0
  lastTake : Nat := 0
  /-- accounts whose tally entry waits for the write engine (R341) -/
  queue : List (Fin 128) := []
  /-- IN_DOUBT payloads of the items that are open or adding (R345) -/
  items : Vector (Option (List Byte)) 32 := Vector.replicate 32 none
  overflow : Nat := 0
  full : Bool := false
  remLost : Bool := false
  gap : Bool := false
  torn : Bool := false
  /-- W1C bits and counts set in earlier fab cycles, in the layout of the status word (R7) -/
  old : Word := 0
deriving DecidableEq, Repr

/-- A Cairn request: one record that waits for the write engine (R347 to R350). Its eight words are those of R349;
`signal` names the signal of a snapshot, none for a summary. -/
structure CairnReq where
  source : Fin 69
  code : Nat
  fclass : Nat
  tag : Nat
  ftime : Nat
  devState : Nat
  valid : Bool
  words : List Word
  signal : Option (Fin 4)
  /-- the in-doubt item that is freed once this record is written (R346) -/
  frees : Option (Fin 32) := none
deriving DecidableEq, Repr

/-- The Cairn (11_ledger_and_record_store.md). -/
structure CairnS where
  queue : List CairnReq := []
  newest : Nat := 0
  /-- CAIRN_ACK: the newest accepted value, and the value in force (R25, R351) -/
  ackNew : Nat := 0
  ack : Nat := 0
  /-- sequences the current session has returned through CAIRN_READ (R378) -/
  returned : List Nat := []
  written : Vector Nat 69 := Vector.replicate 69 0
  suppressed : Vector Nat 69 := Vector.replicate 69 0
  thisSecond : Vector Nat 69 := Vector.replicate 69 0
  second : Nat := 0
  sinceSummary : Vector Nat 69 := Vector.replicate 69 0
  vhold : Nat := 0
  cap : Nat := 0
  /-- the last capacitance test (R352) -/
  testedAt : Option Nat := none
  /-- the last gasp (R353): 0 tally entries, 1 to 10 LEDGER_REM, 11 the queue, 12 CAIRN_CLOSE, 13 LEDGER_CLOSE, 14 complete -/
  gaspStage : Nat := 0
  /-- the record or entry it is programming: the address of its next cell and the bytes left -/
  gaspCell : Option (Nat × List Byte) := none
deriving DecidableEq, Repr

/-- Slot states (R369). -/
inductive SlotState where
  | empty
  | loaded
  | busy
  | done
deriving DecidableEq, Repr

/-- One mailbox slot (R369). -/
structure Slot64 where
  st : SlotState := .empty
  words : Vector Word 64 := Vector.replicate 64 0
  written : Nat := 0
  unread : Bool := false
deriving DecidableEq, Repr

/-- An entry of the event queue (R380). -/
structure EvEntry where
  eseq : Nat
  source : Nat
  code : Nat
  a : Word
  b : Word
  ftime : Nat
deriving DecidableEq, Repr

/-- The SPI mailbox (12_host_mailbox_and_pmbus.md). -/
structure Mbox where
  m0 : Vector Slot64 4 := Vector.replicate 4 {}
  m1 : Vector Slot64 4 := Vector.replicate 4 {}
  queue : List Req := []
  ferr : Bool := false
  seqEcho : Nat := 0
  lastHseq : Option Nat := none
  violCode : Nat := 0
  violHseq : Nat := 0
  violCount : Nat := 0
  session : Bool := false
  openedAt : Nat := 0
  lastM1 : Nat := 0
  /-- challenge issued: its number and instant (R383) -/
  challenge : Option (Nat × Nat) := none
  challenges : Nat := 0
  failures : Nat := 0
  lockout : Option Nat := none
  events : List EvEntry := []
  nextEseq : Nat := 0
  miso : List Word := []
  /-- what the last register-write row answered, and the word the last register-read row returned (log entry 4) -/
  lastAnswer : Nat := 0
  lastRead : Word := 0
deriving DecidableEq, Repr

/-- A PMBus write that waits for its turn (R372): its command, the PAGE and MFR_PARAM_INDEX it found, and its bytes. -/
structure PmbJob where
  code : Nat
  page : Nat
  index : Nat
  bytes : List Byte
  /-- the fab cycle of its stop condition (R372) -/
  fab : Nat
deriving DecidableEq, Repr
/-- PMBus (12_host_mailbox_and_pmbus.md): the answer is the bytes driven, or none for a NACK. -/
structure Pmb where
  page : Nat := 0
  cml : BitVec 8 := 0
  addr : Nat := 0x40
  last : Word := 0
  index : Nat := 0
  answer : Option (List Byte) := none
  jobs : List PmbJob := []
deriving DecidableEq, Repr

/-- What a Tarn port is polling (R401, R403). -/
structure Poll where
  addr : CtxId
  kind : Nat
  seq : Nat
  budget : Nat
deriving DecidableEq, Repr

/-- One Tarn port (13_tarn_link.md). -/
structure TarnPort where
  enabled : Bool := false
  stopping : Bool := false
  cycle : Nat := 0
  /-- position in the cycle: slots passed since the beacon -/
  pos : Nat := 0
  map : BitVec 64 := 0
  poll : Option Poll := none
  /-- the lowest address the next extended slot may visit (R402) -/
  nextExt : Nat := 0
  ext : Vector Word 16 := Vector.replicate 16 0
  extAddr : Nat := 0
  extLen : Nat := 0
  stray : Nat := 0
  /-- the last frame the port drove: a poll of seven characters (R404), and the instant at which DE drops after it (R399) -/
  sent : List Byte := []
  driveEnd : Nat := 0
deriving DecidableEq, Repr

/-- JTAG (16_design_in.md). -/
structure Jtag where
  ir : Byte := 0xFF
  /-- the boundary-scan update latch, and what the last scan shifted out -/
  scan : List Bool := []
  tdo : List Bool := []
  /-- the one-bit data register of BYPASS (R475) -/
  bypass : Bool := false
  loadCode : Nat := 0
  loadWords : Nat := 0
  loadTarget : Option HalfId := none
  loadPhase : Nat := 0
  result : Nat := 0
  out : Word := 0
deriving DecidableEq, Repr

/-- Why a machine of this interface stops with a fault. The block has no such stop: every fault of the manual is state
(09_protection_and_thermal.md, table Fault classes); the constructor is kept so that the type is inhabited. Safe. -/
inductive Fault where
  | none
deriving DecidableEq, Repr

/-- Why a command is refused. -/
inductive Refusal where
  /-- a command whose meaning is not written; safe -/
  | notModelled (mnemonic : String)
deriving DecidableEq, Repr

/-- The state of the block. -/
structure State where
  dev : Dev := {}
  clk : Clk := {}
  /-- globals: newest accepted value and value in force (R25, R433) -/
  gAcc : Vector Int 85 := Vector.replicate 85 0
  gInF : Vector Int 85 := Vector.replicate 85 0
  east : Half := {}
  west : Half := {}
  ctx : Vector Ctx 64 := Vector.replicate 64 {}
  ph : Vector PhaseS 96 := Vector.replicate 96 {}
  sum : Summit := {}
  ft : FieldT := {}
  cal : CalS := {}
  th : Therm := {}
  crag : Vector Crag 16 := Vector.replicate 16 {}
  tokErr : Bool := false
  tokCount : Nat := 0
  tokFree : Nat := 96
  /-- TOKEN_STATUS bits set in earlier fab cycles (R7) -/
  tokOld : Word := 0
  lastOn : Option Nat := none
  nv : Store := {}
  led : Ledger := {}
  cairn : CairnS := {}
  mb : Mbox := {}
  pmb : Pmb := {}
  tarnA : TarnPort := {}
  tarnB : TarnPort := {}
  jtag : Jtag := {}
  commits : List Commit := []
  /-- count of free values taken (log entry 9) -/
  free : Nat := 0
  pending : List Instr := []
deriving DecidableEq, Repr

/-- Reset values of a context's entries. -/
def ctxParReset : Vector Int 74 := Vector.ofFn (fun i => (CP.all.map (fun p => p.row.rst)).getD i.val 0)
/-- Reset values of a phase's entries. -/
def phParReset : Vector Int 6 := Vector.ofFn (fun i => (PP.all.map (fun p => p.row.rst)).getD i.val 0)
/-- Reset values of the globals. -/
def globReset : Vector Int 85 := Vector.ofFn (fun i => (GP.all.map (fun p => p.row.rst)).getD i.val 0)

/-- A context right after reset. -/
def Ctx.reset : Ctx := { acc := ctxParReset, inF := ctxParReset }
/-- A phase right after reset. -/
def PhaseS.reset : PhaseS := { acc := phParReset, inF := phParReset }

/-- The machine right after reset: the start of BOOT, with a blank record store (R33, R38; log entries 1, 5, 10). -/
def State.reset : State :=
  { gAcc := globReset, gInF := globReset, ctx := Vector.replicate 64 Ctx.reset, ph := Vector.replicate 96 PhaseS.reset
    sum := { floor := BitVec.ofNat 32 Config.fwFloor } }

end Sys2Proof.Machine
end

