-- ==== Sys2Proof/Machine/Ops.lean ====
section
/-!
DEFINITION. The named operations over the state: parameters in force and newest accepted, sample tags and boundaries,
halves, phases and their bindings, the Cairn and event queues, and the commit queue.
-/
namespace Sys2Proof.Machine

/-- A bit field of a parameter value: w bits from bit lo. -/
def bitsOf (v : Int) (lo w : Nat) : Nat := (v.toNat / 2 ^ lo) % 2 ^ w
/-- One bit of a parameter value. -/
def bitOf (v : Int) (k : Nat) : Bool := bitsOf v k 1 = 1
/-- A Boolean as a number of the given weight. -/
def flag (b : Bool) (k : Nat) : Nat := if b then 2 ^ k else 0
/-- A number as a word. -/
def word (n : Nat) : Word := BitVec.ofNat 32 n
/-- A signed value in w bits, as a number. -/
def field (v : Int) (w : Nat) : Nat := (v % (2 ^ w : Int)).toNat
/-- A count that stops at a bound. -/
def capInc (n bound : Nat) : Nat := if n < bound then n + 1 else n

/-- A voltage request's VALUE, in mV, as a V24 code (R409, R412). -/
def tarnCode (value : Nat) : Int := ((value : Int) * 65536 + 500) / 1000
/-- A current request's VALUE as a signed number of 1/64 A (R409). -/
def signed16 (v : Nat) : Int := if v % 65536 < 32768 then v % 65536 else (v % 65536 : Nat) - 65536

/-- Every index of a table. -/
def ctxIds : List CtxId := List.finRange 64
def phaseIds : List PhaseId := List.finRange 96

/-- A context entry in force, and its newest accepted value (R25, R432). -/
def Ctx.p (x : Ctx) (e : CP) : Int := x.inF[e.ix]'(e.ix_lt)
def Ctx.newest (x : Ctx) (e : CP) : Int := x.acc[e.ix]'(e.ix_lt)
def PhaseS.p (x : PhaseS) (e : PP) : Int := x.inF[e.ix]'(e.ix_lt)
def PhaseS.newest (x : PhaseS) (e : PP) : Int := x.acc[e.ix]'(e.ix_lt)
def State.cp (s : State) (c : CtxId) (e : CP) : Int := s.ctx[c].p e
def State.pp (s : State) (p : PhaseId) (e : PP) : Int := s.ph[p].p e
def State.gp (s : State) (g : GP) : Int := s.gInF[g.ix]'(g.ix_lt)
def State.gNew (s : State) (g : GP) : Int := s.gAcc[g.ix]'(g.ix_lt)

/-- Change one context, one phase, one channel. -/
def State.modCtx (s : State) (c : CtxId) (f : Ctx → Ctx) : State := { s with ctx := upd s.ctx c f }
def State.modPh (s : State) (p : PhaseId) (f : PhaseS → PhaseS) : State := { s with ph := upd s.ph p f }
def State.modChan (s : State) (c : CtxId) (f : Chan → Chan) : State :=
  s.modCtx c (fun x => { x with chan := f x.chan })

/-- One half's part of the state. -/
def State.half (s : State) : HalfId → Half
  | .east => s.east
  | .west => s.west
def State.setHalf (s : State) (h : HalfId) (x : Half) : State :=
  match h with
  | .east => { s with east := x }
  | .west => { s with west := x }
/-- Change both halves alike (R43). -/
def State.halves (s : State) (f : Half → Half) : State := { s with east := f s.east, west := f s.west }
def Half.modCell (x : Half) (c : CtxId) (f : Cell → Cell) : Half := { x with cell := upd x.cell c f }
def Half.modPh (x : Half) (p : PhaseId) (f : HPhase → HPhase) : Half := { x with ph := upd x.ph p f }

def Summit.half (x : Summit) : HalfId → HalfS
  | .east => x.east
  | .west => x.west
def Summit.mod (x : Summit) (h : HalfId) (f : HalfS → HalfS) : Summit :=
  match h with
  | .east => { x with east := f x.east }
  | .west => { x with west := f x.west }
def State.modHs (s : State) (h : HalfId) (f : HalfS → HalfS) : State := { s with sum := s.sum.mod h f }

/-- The majority of three votes, the first where all differ (R292; log entry 12). -/
def vote (a b c : Option HalfId) : Option HalfId := if a = b ∨ a = c then a else if b = c then b else a
/-- The arbiter's state: the majority of its three copies. One whose ECC code finds its word uncorrectable votes as another copy does
(R292; log entry 12). -/
def Summit.holder (x : Summit) : Option HalfId :=
  vote (if x.eccA = .double then (if x.eccB = .double then x.armC else x.armB) else x.armA)
    (if x.eccB = .double then (if x.eccC = .double then x.armA else x.armC) else x.armB)
    (if x.eccC = .double then (if x.eccA = .double then x.armB else x.armA) else x.armC)
def State.holder (s : State) : Option HalfId := s.sum.holder

/-- The half whose cells serve the shared control plane: the holder, else East unless it has retired (log entry 6). -/
def State.serving (s : State) : HalfId := (s.holder).getD (if s.sum.east.retired then .west else .east)
def State.cell (s : State) (c : CtxId) : Cell := (s.half s.serving).cell[c]
def State.hph (s : State) (p : PhaseId) : HPhase := (s.half s.serving).ph[p]

/-- Sample enables since the sync pulse, and the 32-bit sample tag (R15, R24). -/
def State.enables (s : State) : Nat := s.clk.fast / 16
def State.tag32 (s : State) : Nat := s.enables % 4294967296

/-- M_RATIO in force. -/
def State.ratio (s : State) (c : CtxId) : Nat := (s.cp c .mRatio).toNat
/-- The present tag is an outer-sample boundary of the context (R24). -/
def State.atBoundary (s : State) (c : CtxId) : Bool :=
  decide (s.ctx[c].anchor ≤ s.enables) && decide (0 < s.ratio c) && decide ((s.enables - s.ctx[c].anchor) % s.ratio c = 0)
/-- The boundaries that hold at a sample: the tag they are counted from and their distance. An M_RATIO write that waits, and whose commit
tag lies before the sample, counts them anew from its tag (R24). -/
def State.gridAt (s : State) (c : CtxId) (n : Nat) : Nat × Nat :=
  s.commits.foldl (fun g k => match k.act with
    | .ctxPar d .mRatio v => if d = c ∧ k.tag < n then (k.tag, v.toNat) else g
    | _ => g) (s.ctx[c].anchor, s.ratio c)
/-- The first boundary of a context at or after a sample (R24). -/
def State.boundaryFrom (s : State) (c : CtxId) (n : Nat) : Nat :=
  let a := (s.gridAt c n).1
  let m := (s.gridAt c n).2
  if n ≤ a then a else a + ((n - a + (m - 1)) / m) * m

/-- Microseconds of field time (R171) and the word broadcast with the tag, in 1/256 microsecond (R172). -/
def State.ftUs (s : State) : Nat := s.ft.ft / 2 ^ 40
def State.ftWord (s : State) : Nat := s.ft.ftTag / 2 ^ 32

/-- Joined pairs (R112). -/
def State.joined (s : State) (p : PhaseId) : Bool :=
  let k := p.val / 2
  if k < 32 then bitOf (s.gp (.pairMask 0)) k else bitOf (s.gp (.pairMask 1)) (k - 32)
/-- Spur 2k + 1 of a joined pair: it serves Spur 2k. -/
def State.follower (s : State) (p : PhaseId) : Bool := s.joined p && decide (p.val % 2 = 1)
/-- Spur 2k of a pair. -/
def pairLead (p : PhaseId) : PhaseId := ⟨p.val - p.val % 2, by omega⟩
/-- The owner a phase is to have, in force (R21, R112). -/
def State.ownerOf (s : State) (p : PhaseId) : CtxId :=
  ⟨(s.pp (if s.follower p then pairLead p else p) .owner).toNat % 64, by omega⟩

/-- Phases bound to a context in a half, in rising number; a released phase has left at its boundary (R22). -/
def Half.bound (x : Half) (c : CtxId) : List PhaseId := phaseIds.filter (fun p => x.ph[p].bind = c ∧ x.ph[p].state ≠ .unbound ∧ x.ph[p].leaving = false)
def State.bound (s : State) (c : CtxId) : List PhaseId := if c.val = 0 then [] else (s.half s.serving).bound c

/-- Type of a phase's IMON group (R149). -/
def State.imonType (s : State) (p : PhaseId) : Fin 8 :=
  let g := p.val / 8
  ⟨(if g < 8 then bitsOf (s.gp (.imonType 0)) (4 * g) 4 else bitsOf (s.gp (.imonType 1)) (4 * (g - 8)) 4) % 8, by omega⟩
/-- Nominal gain, gain in use and rating of a phase (R149, R150). -/
def State.gainNominal (s : State) (p : PhaseId) : Int := s.gp (.stageNom (s.imonType p))
def State.gain (s : State) (p : PhaseId) : Int := (s.ph[p].gainFinal).getD (s.gainNominal p)

/-- Nominal and used words of a rail and of a shunt (R145, R146, R151, R152). -/
def vgainNominal (vdiv : Int) : Int := let g := roundAway (vdiv * 16) 5; if g > 2147483647 then 2147483647 else g
def State.vgain (s : State) (c : CtxId) : Int :=
  match s.ctx[c].sense.cal with
  | some (g, _) => g
  | none => vgainNominal (s.cp c .vdiv)
def State.voff (s : State) (c : CtxId) : Int :=
  match s.ctx[c].sense.cal with
  | some (_, o) => o
  | none => 0
def sgainNominal (rshunt : Int) : Int := roundAway 3276800000 rshunt
def State.sgain (s : State) (c : CtxId) : Int := (s.ctx[c].chan.cal).getD (sgainNominal (s.cp c .rshunt))
/-- Full-scale current of a channel (R152). -/
def iFs (rshunt : Int) : Int := roundAway (sgainNominal rshunt * 8386560) F24

/-- A bound phase that may pulse (R129, R150, R155). -/
def State.available (s : State) (p : PhaseId) : Bool :=
  let x := s.ph[p]
  decide (s.gain p ≠ 0) && x.offsetValid && !x.unavOc && !x.unavOt && !x.unavImon
def State.avail (s : State) (c : CtxId) : List PhaseId := (s.bound c).filter (fun p => s.available p)

/-- Zones of R273: East, West, Heath, and the phase zone of a phase. -/
def State.zone (s : State) (z : Fin 19) : Zone := s.th.zone[z]
def State.phZone (s : State) (p : PhaseId) : Fin 19 := ⟨3 + (s.pp p .zone).toNat % 16, by omega⟩
def Level.throttled : Level → Bool
  | .throttle | .shut => true
  | _ => false
def Level.num : Level → Nat
  | .normal => 0
  | .warn => 1
  | .throttle => 2
  | .shut => 3
/-- A die or Heath zone is throttled (R234, R281). -/
def State.dieThrottled (s : State) : Bool :=
  (s.zone 0).level.throttled || (s.zone 1).level.throttled || (s.zone 2).level.throttled

/-- Bits of the MODE word (R199). -/
def modeOfftime : Nat := 0
def modeCurrent : Nat := 1
def modeCommand : Nat := 2
def modeSchedule : Nat := 3
def modeShed : Nat := 4
def modeTrack : Nat := 5
def modeProbe : Nat := 6
def modePass : Nat := 7
/-- A mode is in the effective set of the last boundary (R201). -/
def Ctx.inE (x : Ctx) (m : Nat) : Bool := x.mode.eff.getLsbD m

/-- AT_TARGET of R106: REF equals the target and its remainder is 0. -/
def State.atTarget (s : State) (c : CtxId) : Bool :=
  let k := s.cell c
  decide (k.ref.v = s.ctx[c].tgt) && decide (k.remRef.v = 0)

/-- Queue a write or a device change for its commit tag (R25). -/
def State.commit (s : State) (t : Nat) (a : Act) : State := { s with commits := s.commits ++ [{ tag := t, act := a }] }
/-- Commit tags of R25: of a context's entry, and of a global or phase entry. -/
def State.ctxTag (s : State) (c : CtxId) : Nat := s.boundaryFrom c (s.enables + 64)
def State.globTag (s : State) : Nat := s.enables + 64

/-- Take a fresh free value (log entry 9). -/
def State.fresh (s : State) : Nat × State := (s.free, { s with free := s.free + 1 })

/-- The safe state is held: the vote of the safe-state logic's three copies (R312). -/
def Summit.safeHeld (x : Summit) : Bool := (x.safeA && x.safeB) || (x.safeA && x.safeC) || (x.safeB && x.safeC)

/-- The output stage of a phase has the low condition of a force that lasts (R35, R37, R255, R312): device states, the safe-state
logic, the trip groups and a lost clock. -/
def State.groupTargets (s : State) (c : CtxId) (p : PhaseId) : Bool :=
  let b := (s.hph p).bind
  let t := bitsOf (s.cp c .tripCfg) 8 7
  if c.val = 0 then decide (b.val ≠ 0) else decide (b = c) && (decide (t = 127) || decide (t = p.val))
def State.forceNow (s : State) (p : PhaseId) : Bool :=
  (match s.dev.st with
    | .run | .standby => false
    | _ => true)
  || s.sum.safeHeld || s.dev.safeNLow || !s.clk.rootOk || !s.clk.lockE || !s.clk.lockW || !s.clk.lockH
  || (s.ctx[(0 : CtxId)].prot.tripAsserted && s.groupTargets 0 p)
  || (s.ctx[(s.hph p).bind].prot.tripAsserted && s.groupTargets (s.hph p).bind p)

end Sys2Proof.Machine
end

