-- ==== Sys2Proof/Machine/Edges.lean ====
section
/-!
DEFINITION. Edges of pulses (04_spurs_and_pulses.md, R109, R118, R128), and how a phase parks.
-/
namespace Sys2Proof.Machine

/-- An edge word at an instant in edge steps (R109). -/
def edgeAt (spur : PhaseId) (x : Nat) (high : Bool) : EdgeWord :=
  { spur := spur, fast := x / 32, tap := ⟨x % 32, by omega⟩, high := high }
/-- The low-side Spur of a pair. -/
def lowSide (p : PhaseId) : PhaseId := ⟨p.val / 2 * 2 + 1, by omega⟩

/-- Edges of a start (R118): S, and the high side's rise. -/
def startEdges (p : PhaseId) (paired : Bool) (x dtRise : Nat) : List EdgeWord :=
  if paired then [edgeAt (lowSide p) x false, edgeAt p (x + dtRise) true] else [edgeAt p x true]
/-- Edges of an end: the high side falls, the low side rises at E. -/
def endEdges (p : PhaseId) (paired : Bool) (fall e : Nat) : List EdgeWord :=
  if paired then [edgeAt p fall false, edgeAt (lowSide p) e true] else [edgeAt p fall false]

/-- The end E of a pulse whose high side falls at `fall` (R118). -/
def endOf (t : TimingSet) (paired : Bool) (fall : Nat) : Nat := if paired then fall + t.dtFall else fall

/-- A phase parks: at once where no pulse is in flight, else at its end (R22, R129, R133, R262). -/
def HPhase.park (h : HPhase) : HPhase :=
  match h.state, h.pulse with
  | .unbound, _ => h
  | _, some p => { h with pulse := some { p with parks := true } }
  | _, none => { h with state := .parked }

/-- A phase parks at once, its pulse in flight or not (R36): one that its context has released goes to the free pool (R22). -/
def HPhase.parkNow (h : HPhase) (now : Nat) : HPhase :=
  match h.state with
  | .unbound => h
  | _ =>
    let h := { h with lastEnd := if h.pulse.isSome then now else h.lastEnd, pulse := none }
    if h.leaving then { h with state := .unbound, bind := 0, leaving := false, parkedTag := some (now / 512) } else { h with state := .parked }
/-- A pulse of the phase has not come to its end at an instant in edge steps (R118). -/
def HPhase.inPulse (h : HPhase) (now : Nat) : Bool :=
  match h.pulse with
  | none => false
  | some q => match q.endAt with
    | none => true
    | some e => decide (now < e)

/-- The falling edge of a HELD phase, presented at a fast tick (R128). -/
def HPhase.drop (h : HPhase) (pf : Nat) : HPhase :=
  match h.state, h.pulse with
  | .held, some q =>
    let f := max (32 * (pf + 2)) (q.start + q.min)
    { h with state := .on, pulse := some { q with fall := some f, endAt := some (endOf h.act q.paired f) } }
  | _, _ => h
def HPhase.dropEdges (h : HPhase) (p : PhaseId) (pf : Nat) : List EdgeWord :=
  match h.state, h.pulse with
  | .held, some q =>
    let f := max (32 * (pf + 2)) (q.start + q.min)
    endEdges p q.paired f (endOf h.act q.paired f)
  | _, _ => []
/-- The HELD phases of a context fall (R128). -/
def Half.dropHeld (x : Half) (c : CtxId) (pf : Nat) : Half :=
  phaseIds.foldl (fun (x : Half) (p : PhaseId) =>
    let h := x.ph[p]
    if h.bind = c ∧ h.state = .held then { x with ph := x.ph.set p (h.drop pf), edges := x.edges ++ h.dropEdges p pf } else x) x

/-- The cell tick in which the first group of a context's decisions of tag T is presented (R99, R100). -/
def presentBase (t last nAct : Nat) (boundary balance : Bool) : Nat :=
  max (8 * t + 12 + (if boundary then 13 else 0) + (if balance then (nAct + 15) / 16 else 0)) (last + 1)
/-- The fast tick at which a boundary's outer step presents an edge of a context (R99, R128). -/
def Half.boundaryTick (x : Half) (c : CtxId) (t : Nat) : Nat := 2 * presentBase t x.cell[c].presented x.cell[c].nAct true false

end Sys2Proof.Machine
end

