-- ==== Sys2Proof/Machine/Bytes.lean ====
section
/-!
DEFINITION. Byte orders and cyclic redundancy checks: CRC-32 of IEEE 802.3 (R324, R366), CRC-8 of PMBus (R389) and
CRC-16 of the Tarn link (13_tarn_link.md).
-/
namespace Sys2Proof.Machine

/-- n bytes of a number, least significant first (R9). -/
def leBytes (n : Nat) (x : Int) : List Byte := (List.range n).map (fun k => BitVec.ofInt 8 (x / (256 : Int) ^ k))
/-- n bytes of a number, most significant first. -/
def beBytes (n : Nat) (x : Int) : List Byte := (leBytes n x).reverse
/-- The number that bytes hold, least significant first. -/
def leNat : List Byte → Nat
  | [] => 0
  | b :: bs => b.toNat + 256 * leNat bs
/-- The number that bytes hold, most significant first. -/
def beNat (bs : List Byte) : Nat := bs.foldl (fun a b => 256 * a + b.toNat) 0
/-- A number of w bits read as signed. -/
def signedOf (w n : Nat) : Int := if n % 2 ^ w < 2 ^ (w - 1) then (n % 2 ^ w : Nat) else (n % 2 ^ w : Nat) - (2 ^ w : Nat)
/-- Bytes lo to lo + n − 1 of a list, as a number, least significant first. -/
def leAt (bs : List Byte) (lo n : Nat) : Nat := leNat ((bs.drop lo).take n)
/-- A list padded with zero bytes to n bytes. -/
def padTo (n : Nat) (bs : List Byte) : List Byte := (bs ++ List.replicate n 0).take n

/-- Apply a function n times. -/
def iter {α : Type} (f : α → α) : Nat → α → α
  | 0, x => x
  | n + 1, x => iter f n (f x)

/-- CRC-32 of IEEE 802.3, reflected (R366). -/
def crc32Step (c : BitVec 32) : BitVec 32 := if c.getLsbD 0 then (c >>> 1) ^^^ 0xEDB88320 else c >>> 1
def crc32Byte (c : BitVec 32) (b : Byte) : BitVec 32 := iter crc32Step 8 (c ^^^ b.setWidth 32)
def crc32 (bs : List Byte) : BitVec 32 := ~~~ bs.foldl crc32Byte 0xFFFFFFFF
/-- CRC-32 over words, each most significant byte first (R366). -/
def crcWords (ws : List Word) : Word := crc32 (ws.flatMap (fun w => beBytes 4 w.toNat))

/-- CRC-8, polynomial 0x07, initial value 0 (R389). -/
def crc8Step (c : BitVec 8) : BitVec 8 := if c.getLsbD 7 then (c <<< 1) ^^^ 0x07 else c <<< 1
def crc8 (bs : List Byte) : BitVec 8 := bs.foldl (fun c b => iter crc8Step 8 (c ^^^ b)) 0

/-- CRC-16/CCITT-FALSE (R407). -/
def crc16Step (c : BitVec 16) : BitVec 16 := if c.getLsbD 15 then (c <<< 1) ^^^ 0x1021 else c <<< 1
def crc16 (bs : List Byte) : BitVec 16 := bs.foldl (fun c b => iter crc16Step 8 (c ^^^ ((b.setWidth 16 : BitVec 16) <<< (8 : Nat)))) 0xFFFF

end Sys2Proof.Machine
end

