-- ==== Sys2Proof/Machine/Zones.lean ====
section
/-!
DEFINITION. Temperature sensors and the levels of the zones (09_protection_and_thermal.md, R273 to R279): what they read, and what an
evaluation finds.
-/
namespace Sys2Proof.Machine

/-- T of a threshold word, in 1/128 °C (R276). -/
def thermT (v : Int) : Int := signedOf 16 v.toNat

/-- Scale of the logarithm: 2 to the 96th. -/
def lnOne : Int := 79228162514264337593543950336
/-- Σ z^(2j+1) ÷ (2j+1) from term j on, with z² and the power in units of 2^-96. -/
def atanhTerms (z2 : Int) : Nat → Nat → Int → Int
  | 0, _, _ => 0
  | n + 1, j, p => p / (2 * j + 1 : Nat) + atanhTerms z2 n (j + 1) (p * z2 / lnOne)
/-- ln(a ÷ b) for a ÷ b near 1, in units of 2^-96: 2 artanh((a − b) ÷ (a + b)). -/
def lnNear (a b : Int) : Int :=
  let z := (a - b) * lnOne / (a + b)
  2 * atanhTerms (z * z / lnOne) 48 0 z
/-- ln(a ÷ b) for positive a and b, in units of 2^-96, by halvings of a ÷ b into [1, 2). -/
def lnRatio (a b : Nat) : Int :=
  let k := Nat.log2 (a * 2 ^ 64 / b)
  if 64 ≤ k then lnNear a (b * 2 ^ (k - 64) : Nat) + (k - 64 : Nat) * lnNear 2 1
  else lnNear (a * 2 ^ (64 - k) : Nat) b - (64 - k : Nat) * lnNear 2 1
/-- The temperature of a thermistor of a resistance in milliohms, in 1/128 °C (R274). -/
def ntcReading (milliohm r25 beta : Nat) : Int :=
  let d := lnOne * 20 / 5963 + lnRatio milliohm (1000 * r25) / beta
  clamp (roundAway (12800 * lnOne - 3496320 * d) (100 * d)) (-32767) 32766

/-- A sensor's reading; 0x7FFF is broken (R274). -/
def Therm.put (x : Therm) (k : Fin 24) (v : Option Int) : Therm :=
  match v with
  | some v => { x with reading := upd x.reading k (fun _ => clamp v (-32767) 32766), broken := x.broken &&& ~~~ (1#24 <<< k.val) }
  | none => { x with reading := upd x.reading k (fun _ => 32767), broken := x.broken ||| (1#24 <<< k.val), fBroken := true }
/-- A TX input takes part (R273). -/
def State.txOn (s : State) (k : Nat) : Bool := bitOf (s.gp .txEn) k
/-- One sample (R273, R274). -/
def State.tempSample (s : State) (x : TempSample) : State :=
  match x with
  | .die k v => { s with th := s.th.put ⟨k.val, by omega⟩ v }
  | .tx k r =>
    if s.txOn k.val then
      let v := if r < 20000 ∨ 1000000000 < r then none else some (ntcReading r (s.gp .ntcR25).toNat (s.gp .ntcB).toNat)
      { s with th := s.th.put ⟨8 + k.val, by omega⟩ v }
    else s

/-- The phase zone that a TX input feeds (R273). -/
def State.txZone (s : State) (k : Nat) : Nat :=
  if k < 8 then bitsOf (s.gp (.txZone 0)) (4 * k) 4 else bitsOf (s.gp (.txZone 1)) (4 * (k - 8)) 4
/-- The sensors of a zone; a broken Heath sensor is left out (R273, R279). -/
def State.members (s : State) (z : Fin 19) : List (Fin 24) :=
  (List.finRange 24).filter (fun k =>
    if z.val < 2 then decide (k.val / 2 = z.val)
    else if z.val = 2 then decide (4 ≤ k.val) && decide (k.val < 8) && !s.th.broken.getLsbD k.val
    else decide (8 ≤ k.val) && s.txOn (k.val - 8) && decide (s.txZone (k.val - 8) + 3 = z.val))
/-- A zone's value (R273). -/
def State.zoneValue (s : State) (z : Fin 19) : Int :=
  (s.members z).foldl (fun m k => max m s.th.reading[k]) (-32768)

/-- T_L and H_L of a zone's set (R276). -/
def zoneSet (z : Fin 19) : Nat := if z.val < 2 then 0 else if z.val = 2 then 3 else 6
def levelOf : Nat → Level
  | 0 => .normal
  | 1 => .warn
  | 2 => .throttle
  | _ => .shut
def State.thrT (s : State) (z : Fin 19) (l : Nat) : Int := thermT (s.gp (.therm ⟨(zoneSet z + (l - 1)) % 9, by omega⟩))
def State.thrH (s : State) (z : Fin 19) (l : Nat) : Int := bitsOf (s.gp (.therm ⟨(zoneSet z + (l - 1)) % 9, by omega⟩)) 16 16

/-- The largest level from 1 to n that a test holds at; 0 for none. -/
def topLevel (f : Nat → Bool) : Nat → Nat
  | 0 => 0
  | n + 1 => if f (n + 1) then n + 1 else topLevel f n

/-- The candidate of an evaluation (R277): direction up, and level. -/
def State.candidate (s : State) (z : Fin 19) (v : Int) (cur : Nat) : Option (Bool × Nat) :=
  let up := topLevel (fun l => decide (s.thrT z l ≤ v)) 3
  if cur < up then some (true, up)
  else if 0 < cur ∧ v < s.thrT z cur - s.thrH z cur then
    some (false, topLevel (fun l => decide (s.thrT z l - s.thrH z l ≤ v)) (cur - 1))
  else none

/-- Eight candidates in one direction change the level (R277). -/
def Zone.count (x : Zone) (c : Option (Bool × Nat)) : Zone :=
  match c with
  | none => { x with run := 0 }
  | some (up, l) =>
    let more := decide (0 < x.run) && (x.runUp == up)
    let best := if more then (if up then min x.best.num l else max x.best.num l) else l
    let n := if more then x.run + 1 else 1
    if 8 ≤ n then { x with level := levelOf best, run := 0 } else { x with runUp := up, run := n, best := levelOf best }
/-- The level a zone has after an evaluation (R277, R279). -/
def State.zoneNext (s : State) (z : Fin 19) (v : Int) : Zone :=
  let x := { s.th.zone[z] with v := v }
  let y : Zone :=
    if x.seen then x.count (s.candidate z v x.level.num)
    else { x with seen := true, level := if (s.members z).isEmpty then .normal
                                         else levelOf (topLevel (fun l => decide (s.thrT z l - s.thrH z l ≤ v)) 3) }
  let hold := decide (z.val = 2) && [4, 5, 6, 7].any (fun k => s.th.broken.getLsbD k)
  if hold && decide (y.level.num < 2) then { y with level := .throttle, run := 0 } else y

/-- The zone that a sensor belongs to (R273). -/
def State.sensorZone (s : State) (k : Fin 24) : Fin 19 :=
  if k.val < 4 then ⟨k.val / 2, by omega⟩
  else if k.val < 8 then 2
  else ⟨min (s.txZone (k.val - 8) + 3) 18, by omega⟩
/-- The sensor of a sample. -/
def sensorOf : TempSample → Fin 24
  | .die k _ => ⟨k.val, by omega⟩
  | .tx k _ => ⟨8 + k.val, by omega⟩
/-- A sensor is sampled at 8 kS/s: it reads 0x7FFF, or lies within 512 LSB of one of its zone's six levels (R275). -/
def State.sensorFast (s : State) (k : Fin 24) : Bool :=
  let v := s.th.reading[k]
  let z := s.sensorZone k
  let near (t : Int) : Bool := decide ((v - t).natAbs ≤ 512)
  s.th.broken.getLsbD k.val || [1, 2, 3].any (fun l => near (s.thrT z l) || near (s.thrT z l - s.thrH z l))
/-- A zone is evaluated at 8 kS/s while one of its sensors is sampled so (R275). -/
def State.zoneFast (s : State) (z : Fin 19) : Bool :=
  (List.finRange 24).any (fun k => decide (s.sensorZone k = z) && (decide (k.val < 8) || s.txOn (k.val - 8)) && s.sensorFast k)
/-- Fast ticks between samples, or evaluations, at 8 kS/s and at 1 kS/s (R275). -/
def thermTicks (fast : Bool) : Nat := if fast then 50000 else 400000
/-- The instant of the next sample or evaluation has come (R275). -/
def thermDue (last : Option Nat) (fast : Bool) (now : Nat) : Bool :=
  match last with
  | none => true
  | some t => decide (t + thermTicks fast ≤ now)
/-- A sample at its instant (R275); one that comes before it is none. -/
def State.sampleAt (s : State) (x : TempSample) : State :=
  let k := sensorOf x
  if thermDue s.th.sampledAt[k] (s.sensorFast k) s.clk.time then
    let now := s.clk.time
    ({ s with th := { s.th with sampledAt := upd s.th.sampledAt k (fun _ => some now) } } : State).tempSample x
  else s

end Sys2Proof.Machine
end

