-- ==== Sys2Proof/Machine/Forces.lean ====
section
/-!
DEFINITION. What forces SAFE by a fault (01_architecture.md R33, R34; 09 R258 to R265, R278): the conditions and responses of the
classes, and which command finds one.
-/
namespace Sys2Proof.Machine

/-- Fault classes of R258 by their codes. -/
abbrev FClass := Fin 14

/-- The response code selected for a class (R261, R284); classes with a fixed response have it. -/
def State.resp (s : State) (c : CtxId) (k : FClass) : Nat :=
  let r0 := s.cp c .faultResp0
  let r1 := s.cp c .faultResp1
  match k.val with
  | 0 => bitsOf r0 0 4
  | 1 => bitsOf r0 4 4
  | 2 => bitsOf r0 8 4
  | 4 => bitsOf r0 12 4
  | 5 => bitsOf r0 16 4
  | 7 => bitsOf r0 20 4
  | 8 => bitsOf r1 0 4
  | 9 => bitsOf r1 4 4
  | 10 => bitsOf r1 8 4
  | 11 => bitsOf r1 12 4
  | 12 => bitsOf r1 16 4
  | 13 => 5
  | _ => 2

/-- Class of a channel cause (R245). -/
def ChCause.cls : ChCause → FClass
  | .seatLost => 11
  | .fastTrip => 8
  | .startShort | .foldbackTimeout => 9
  | .senseShunt => 12
  | _ => 10

/-- COUNT and INTERVAL of R264. -/
def State.retryCount (s : State) (c : CtxId) : Nat := bitsOf (s.cp c .retryCfg) 16 4
def State.retryTicks (s : State) (c : CtxId) : Nat := bitsOf (s.cp c .retryCfg) 0 16 * msTicks

/-- The shadow's eligibility, which a FAILOVER response asks for (R265). -/
def State.shadowEligible (s : State) : Bool :=
  match s.holder with
  | none => false
  | some h => (s.sum.half h.other).eligible

/-- A fault timer at a boundary (R259): its count, whether the class stands declared, is declared now, starts or runs. -/
structure TimerOut where
  count : Nat
  declared : Bool
  now : Bool
  starts : Bool
  runs : Bool
deriving DecidableEq, Repr
def faultTimer (count : Nat) (declared cond : Bool) (time : Nat) : TimerOut :=
  if !cond then ⟨0, false, false, false, false⟩
  else if declared then ⟨count, true, false, false, false⟩
  else
    let hit := decide (time < count + 1)
    ⟨count + 1, hit, hit, decide (count = 0), !hit⟩

/-- Class of a context's trip group in TRIP_CFG (R257). -/
def State.tripClass (s : State) (c : CtxId) : Nat := bitsOf (s.cp c .tripCfg) 16 2

/-- Condition of RAIL_OV at a boundary whose VMEAS is v (R258, R260). -/
def State.ovAt (s : State) (c : CtxId) (v : Int) : Bool :=
  let x := s.ctx[c]
  decide (x.p .voutMax + (if c.val = 0 then 0 else x.p .ovMargin) < v) || (x.prot.tripSeen && decide (s.tripClass c = 1))
def State.ovCond (s : State) (c : CtxId) : Bool := s.ovAt c (s.cell c).vmeas.v

/-- Classes 0 and 1 of the input at a boundary whose VMEAS is v: whether the input has been seen up in this RUN, and the timers (R258 to
R260). -/
structure InputOut where
  seen : Bool
  ov : TimerOut
  uv : TimerOut
deriving DecidableEq, Repr
def State.inputAt (s : State) (v : Int) : InputOut :=
  let x := s.ctx[(0 : CtxId)]
  let up := match s.dev.st with
    | .standby | .run | .safe => true
    | _ => false
  let seen := decide (s.dev.st = .run) && (x.inputSeen || decide (x.p .voutMin ≤ v))
  { seen := seen
    ov := faultTimer x.prot.ovTimer x.prot.ovDeclared (up && s.ovAt 0 v) (x.p .ovTime).toNat
    uv := faultTimer x.prot.uvTimer x.prot.uvDeclared (seen && decide (v < x.p .voutMin)) (x.p .uvTime).toNat }
def InputOut.classes (r : InputOut) : List FClass := (if r.ov.now then [0] else []) ++ (if r.uv.now then [1] else [])

/-- The fast ticks at which rail words reach the ports: 25k + 24, or 25k + 25 for an odd k (R143). -/
def railInstant (fast : Nat) : Bool := decide (fast % 50 = 24) || (decide (fast % 50 = 0) && decide (0 < fast))

/-- The converters and cells run from step 3 of BOOT until HOLDUP (R24). -/
def State.converting (s : State) : Bool :=
  s.clk.synced && (match s.dev.st with
    | .cold | .holdup => false
    | _ => true)


/-- A class of context 0, or of its channel, forces SAFE as it is declared: LATCH_OFF, a RETRY that is exhausted, or a FAILOVER that no
shadow can take (R262, R264, R265). -/
def State.recentFailover (s : State) (c : CtxId) : Bool :=
  match s.ctx[c].prot.lastFailover with
  | none => false
  | some t => decide (s.clk.time < t + sTicks)
def State.classForces (s : State) (k : FClass) : Bool :=
  match s.resp 0 k with
  | 3 => true
  | 4 => decide (s.retryCount 0 ≤ s.ctx[(0 : CtxId)].prot.retryUsed)
  | 5 => s.recentFailover 0 || !s.shadowEligible
  | _ => false

/-- VMEAS that context 0 forms at this boundary (R145). -/
def State.vmeasNext (s : State) : Int :=
  let k := s.cell 0
  (k.hold (fun x => match x with
    | .vgain => s.vgain 0
    | .voff => s.voff 0
    | x => (k.words[x.ix]).written)).vmeasStage.vmeas.v
/-- A shunt word of channel 0 declares a class that forces SAFE (R158, R245). -/
def State.shuntForces (s : State) (code : BitVec 12) (vgs : Fin 4) : Bool :=
  let k := s.ctx[(0 : CtxId)].chan
  (match k.toDeclare with
    | some q => (decide (vgs = 0) || (decide (q = .gateStuck) && k.stuckSeen)) && s.classForces q.cls
    | none => false)
  || ((k.senseDue || (decide (code.toNat = 4095) && decide (k.st = .on) && decide (s.cp 0 .trip < 170) && decide (k.openRun = 7)))
      && s.classForces 12)
/-- A command whose effect in this state is a fault that forces SAFE: a class of context 0, the Heath zone at SHUT, or no half that is
eligible for the summit (R33, R258 to R265, R278, R293). -/
def State.forcesSafe (s : State) : Instr → Bool
  | .outerStep x =>
    decide (x.ctx = 0) && s.converting && decide (s.clk.fast % 16 = 0) && s.atBoundary 0
      && decide (s.ctx[(0 : CtxId)].lastDone ≠ some s.enables) && (s.inputAt s.vmeasNext).classes.any s.classForces
  | .railWord c code _ =>
    decide (c = 0) && s.converting && railInstant s.clk.fast && decide (s.ctx[(0 : CtxId)].sense.lastWord ≠ some s.clk.fast)
      && decide (code.toNat = 4095) && decide (s.ctx[(0 : CtxId)].sense.openRun = 15) && s.classForces 5
  | .shuntWord c code _ vgs _ =>
    decide (c = 0) && s.converting && decide (s.clk.fast % 400 = 168) && decide (s.ctx[(0 : CtxId)].chan.lastWord ≠ some s.clk.fast)
      && s.shuntForces code vgs
  | .zoneEvaluation z samples =>
    let t := samples.foldl State.sampleAt s
    decide (z = 2) && decide (s.dev.st ≠ .cold) && decide (s.dev.st ≠ .boot) && thermDue t.th.evalAt[z] (t.zoneFast z) t.clk.time
      && decide ((t.zone 2).level ≠ .shut) && decide ((t.zoneNext 2 (t.zoneValue 2)).level = .shut)
  | .failover =>
    match s.holder with
    | none => false
    | some h => !(s.sum.half h).eligible && !(s.sum.half h.other).eligible
  | _ => false

end Sys2Proof.Machine
end

