-- ==== Sys2Proof/Machine/Triggers.lean ====
section
/-!
DEFINITION. Device transitions that compete in one fab cycle (01_architecture.md, R34): which one is taken, and what loses.
The commands that wait in the queue arrive at the present fast tick, so the triggers among them fall in the present fab
cycle (log entry 131).
-/
namespace Sys2Proof.Machine

/-- The fab cycle of 10 ns that runs: four Heath fast ticks (R10). -/
def State.fab (s : State) : Nat := s.clk.time / 4

/-- A low of RESET_N of this many nanoseconds is taken (R450): 0.8 µs always, 0.5 µs never; between them the part decides. -/
def resetTaken (ns : Nat) : Bool := decide (800 ≤ ns) || (decide (500 < ns) && Config.resetFilter ns)
/-- A low of SAFE_N is taken (R313): 100 ns always, one below 50 ns never; between them the part decides. -/
def safeTaken (ns : Nat) : Bool := decide (100 ≤ ns) || (decide (50 ≤ ns) && Config.safeFilter ns)

/-- A state that VIN's fall takes to HOLDUP, and that RESET_N takes to the start of BOOT (R33, R35). -/
def DevState.powered : DevState → Bool
  | .boot | .standby | .run | .safe => true
  | _ => false
def DevState.resets (x : DevState) : Bool := x.powered
/-- SAFE can be entered: STANDBY, RUN, and BOOT once the summit has been arbitrated (R33, R34). -/
def State.safeFrom (s : State) : Bool :=
  match s.dev.st with
  | .standby | .run => true
  | .boot => decide (4 ≤ s.dev.bootStep)
  | _ => false

def Trig.rank : Trig → Nat
  | .holdup => 0
  | .reset => 1
  | .safe => 2
  | .standby | .run => 3
/-- The rank of the transition that a command triggers in a state: 4 where it triggers none of the first three. A fault that forces SAFE,
the Heath zone at SHUT and the loss of the last half are SAFE triggers like SAFE_N and the clock (R33). -/
def State.trigger (s : State) : Instr → Nat
  | .vinUvloFall => if s.dev.st.powered then 0 else 4
  | .resetNLow ns => if s.dev.st.resets && resetTaken ns then 1 else 4
  | .supplyUndervoltage .io | .supplyUndervoltage .a | .supplyUndervoltage .h => if s.dev.st.resets then 1 else 4
  | .safeNLow ns _ => if s.safeFrom && safeTaken ns then 2 else 4
  | .clockLoss _ => if s.safeFrom && s.clk.synced then 2 else 4
  | c => if s.safeFrom && s.forcesSafe c then 2 else 4
/-- A transition is the one of its fab cycle (R34): none was taken in it, and no trigger before it in the order waits. -/
def State.mayMove (s : State) (t : Trig) : Bool :=
  decide (s.dev.movedAt ≠ some s.fab) && s.pending.all (fun c => decide (t.rank ≤ s.trigger c))
/-- A trigger loses: it is examined again in the next fab cycle. -/
def State.lose (s : State) (t : Trig) : State :=
  { s with dev := { s.dev with lost := if s.dev.lost.contains t then s.dev.lost else s.dev.lost ++ [t] } }
/-- Take a transition or lose it. -/
def State.move (s : State) (t : Trig) (f : State → State) : State := if s.mayMove t then f s else s.lose t

end Sys2Proof.Machine
end

