-- ==== Sys2Proof/Machine/Sticky.lean ====
section
/-!
DEFINITION. W1C bits and the counts beside them (00_scope.md R7, 02_fell_cell_arithmetic.md R51). The flag fields of the
state hold what hardware set in the present fab cycle; `old` words, in the layout of the status word, hold what earlier
fab cycles set. A clear reaches the old part alone, so a setting in the fab cycle of a clear wins, and its count stays.
-/
namespace Sys2Proof.Machine

/-- A status word's W1C flags, and its counts: lowest bit, width, and the flags whose clear sets the count to 0. -/
structure W1cShape where
  flags : Word
  counts : List (Nat × Nat × Word)
deriving DecidableEq, Repr

/-- A field of a status word. -/
def fieldAt (w : Word) (lo n : Nat) : Nat := w.toNat / 2 ^ lo % 2 ^ n

/-- What a read shows of flags and counts: set in either part, and counts that stop at their width's bound. -/
def W1cShape.join (k : W1cShape) (old fresh : Word) : Word :=
  word (((old ||| fresh) &&& k.flags).toNat
    + (k.counts.map (fun x => min (fieldAt old x.1 x.2.1 + fieldAt fresh x.1 x.2.1) (2 ^ x.2.1 - 1) * 2 ^ x.1)).sum)
/-- A write of 1 to bits of the word (R7). -/
def W1cShape.clear (k : W1cShape) (old w : Word) : Word :=
  word ((old &&& ~~~w &&& k.flags).toNat
    + (k.counts.map (fun x => if w &&& x.2.2 = 0 then fieldAt old x.1 x.2.1 * 2 ^ x.1 else 0)).sum)

/-! ### Contexts: R106, R137, R169, R198, R224, R226, R250, R283, R421 -/

def lawShape : W1cShape := ⟨0xE, [(16, 16, 0x4)]⟩
def Ctx.lawFresh (x : Ctx) : Word := word (flag x.tgtClamped 1 + flag x.redirected 2 + flag x.reversed 3 + 65536 * x.redirects)
def Ctx.lawSticky (x : Ctx) : Word := lawShape.join x.oldLaw x.lawFresh

def pulseShape : W1cShape := ⟨0xF, [(4, 12, 0x4), (16, 16, 0x3)]⟩
def Cell.pulseFresh (k : Cell) : Word :=
  word (flag k.stretched 0 + flag k.skipped 1 + flag k.clipped 2 + flag k.peakMiss 3 + 16 * k.clipCount + 65536 * k.shortCount)
def Cell.pulseSticky (k : Cell) : Word := pulseShape.join k.oldPulse k.pulseFresh
/-- SAT_FLAGS and its counters as a read shows them (R51). -/
def Cell.satBits (k : Cell) : BitVec 16 := k.satFlags ||| k.oldSat
def Cell.satCount (k : Cell) (j : Fin 16) : Nat := min (k.satCounts[j] + k.oldSatCounts[j]) 65535

def senseShape : W1cShape := ⟨0x107, []⟩
def Sense.fresh (x : Sense) : Word := word (flag x.azAbort 0 + flag x.imonFault 1 + flag x.senseOpen 2 + flag x.iswSat 8)
def Sense.sticky (x : Sense) : Word := senseShape.join x.old x.fresh

def schShape : W1cShape := ⟨0x3F, [(16, 8, 0x2), (24, 8, 0x1)]⟩
def Sched.fresh (x : Sched) : Word :=
  word (flag x.missed 0 + flag x.late 1 + flag x.notStarted 2 + flag x.cancelled 3 + flag x.expired 4 + flag x.iffClamp 5
    + 65536 * x.lateCount + 16777216 * x.missCount)
def Sched.sticky (x : Sched) : Word := schShape.join x.old x.fresh

def modeShape : W1cShape := ⟨0x7E, []⟩
def ModeS.fresh (x : ModeS) : Word :=
  word (flag x.probeRefused 1 + flag x.cmdLogged 2 + flag x.trackIgnored 3 + flag x.passExited 4 + flag x.passBlocked 5 + flag x.passMoved 6)
def ModeS.sticky (x : ModeS) : Word := modeShape.join x.old x.fresh

def probeShape : W1cShape := ⟨0xF, []⟩
def Probe.fresh (x : Probe) : Word := word (flag x.done 0 + flag x.disturbed 1 + flag x.overrun 2 + flag x.sumSat 3)
def Probe.sticky (x : Probe) : Word := probeShape.join x.old x.fresh
/-- PROBE_PTR's count of discarded pairs (R223). -/
def Probe.overrunCount (x : Probe) : Nat := min (x.overruns + x.oldOverruns) 65535

def faultShape : W1cShape := ⟨0x7FFF, [(24, 8, 0)]⟩
def Prot.fresh (x : Prot) : Word := word (x.classFlags.toNat + flag x.retryExhausted 14 + 16777216 * x.declCount)
def Prot.sticky (x : Prot) : Word := faultShape.join x.old x.fresh

def swShape : W1cShape := ⟨0xFE, [(16, 8, 0x4)]⟩
def Chan.fresh (x : Chan) : Word :=
  word (flag x.seatLost 1 + flag x.fastTrip 2 + flag x.foldbackTimeout 3 + flag x.startShort 4 + flag x.passDeviceFail 5
    + flag x.seatGlitch 6 + flag x.startBlocked 7 + 65536 * x.tripCount)
def Chan.sticky (x : Chan) : Word := swShape.join x.old x.fresh

def tarnShape : W1cShape := ⟨0xF, [(24, 8, 0x1)]⟩
def TarnS.fresh (x : TarnS) : Word :=
  word (flag x.viol 0 + flag x.quarFlag 1 + flag x.released 2 + flag x.dup 3 + 16777216 * x.violCount)
def TarnS.sticky (x : TarnS) : Word := tarnShape.join x.old x.fresh

/-! ### Globals: R140, R158, R177, R286, R319, R359, R360 -/

def summitShape : W1cShape := ⟨0xFE, [(8, 8, 0x2), (16, 8, 0x40), (24, 8, 0x20)]⟩
def Summit.fresh (x : Summit) : Word :=
  word (flag x.fSupRestart 1 + flag x.fResyncFail 2 + flag x.fRefused 3 + flag x.fHandover 4 + flag x.fFailover 5
    + flag x.fUnattrib 6 + flag x.fAlert 7 + 256 * x.supRestarts + 65536 * x.unattribs + 16777216 * x.failovers)
def Summit.sticky (x : Summit) : Word := summitShape.join x.old x.fresh

def tokenShape : W1cShape := ⟨0x8000, [(16, 16, 0x8000)]⟩
def State.tokenFresh (s : State) : Word := word (flag s.tokErr 15 + 65536 * s.tokCount)
def State.tokenSticky (s : State) : Word := tokenShape.join s.tokOld s.tokenFresh

def ftShape : W1cShape := ⟨0x18, [(8, 8, 0x8)]⟩
def FieldT.fresh (x : FieldT) : Word := word (flag x.stepped 3 + flag x.glitch 4 + 256 * x.stepCount)
def FieldT.sticky (x : FieldT) : Word := ftShape.join x.old x.fresh

def thermShape : W1cShape := ⟨0xFC, []⟩
def Therm.fresh (x : Therm) : Word :=
  word (flag x.fWarn 2 + flag x.fThrottle 3 + flag x.fPh 4 + flag x.fDie 5 + flag x.fHeath 6 + flag x.fBroken 7)
def Therm.sticky (x : Therm) : Word := thermShape.join x.old x.fresh

def nvmShape : W1cShape := ⟨0x18, []⟩
def Store.fresh (x : Store) : Word := word (flag x.rsTie 3 + flag x.blockRetired 4)
def Store.sticky (x : Store) : Word := nvmShape.join x.old x.fresh

def ledgerShape : W1cShape := ⟨0x1E, [(16, 8, 0x10)]⟩
def Ledger.fresh (x : Ledger) : Word := word (flag x.torn 1 + flag x.gap 2 + flag x.remLost 3 + flag x.full 4 + 65536 * x.overflow)
def Ledger.sticky (x : Ledger) : Word := ledgerShape.join x.old x.fresh

/-! ### Clears -/

/-- SAT_FLAGS (R51): the flag clears and its counter goes to 0, in both halves. -/
def Cell.clearSat (k : Cell) (w : Word) : Cell :=
  { k with oldSat := k.oldSat &&& ~~~ (w.setWidth 16), oldSatCounts := every k.oldSatCounts (fun j n => if w.getLsbD j.val then 0 else n) }
/-- PULSE_STATUS (R137). -/
def Cell.clearPulse (k : Cell) (w : Word) : Cell := { k with oldPulse := pulseShape.clear k.oldPulse w }
/-- FAULT_STATUS (R283): DECL_COUNT goes to 0 where every flag then reads 0. -/
def Prot.clear (x : Prot) (w : Word) : Prot :=
  let x := { x with old := faultShape.clear x.old w }
  if x.sticky &&& 0x7FFF = 0 then { x with old := 0, declCount := 0 } else x
/-- PROBE_STATUS (R226). -/
def Probe.clear (x : Probe) (w : Word) : Probe :=
  { x with old := probeShape.clear x.old w, oldOverruns := if w.getLsbD 2 then 0 else x.oldOverruns }

/-- A W1C clear of a context register (R7, R106, R169, R198, R224, R226, R421). -/
def Ctx.w1c (x : Ctx) (r : CReg) (w : Word) : Ctx :=
  match r with
  | .modeStatus => { x with mode := { x.mode with old := modeShape.clear x.mode.old w } }
  | .lawStatus => { x with oldLaw := lawShape.clear x.oldLaw w }
  | .senseStatus => { x with sense := { x.sense with old := senseShape.clear x.sense.old w } }
  | .schStatus => { x with sched := { x.sched with old := schShape.clear x.sched.old w } }
  | .probeStatus => { x with probe := x.probe.clear w }
  | .faultStatus => { x with prot := x.prot.clear w }
  | .tarnStatus => { x with tarn := { x.tarn with old := tarnShape.clear x.tarn.old w } }
  | .swStatus => { x with chan := { x.chan with old := swShape.clear x.chan.old w } }
  | _ => x

/-- A W1C clear of a context register in both halves and in the Heath (R7). -/
def State.w1cCtx (s : State) (c : CtxId) (r : CReg) (w : Word) : State :=
  match r with
  | .satFlags => s.halves (fun x => x.modCell c (fun k => k.clearSat w))
  | .pulseStatus => s.halves (fun x => x.modCell c (fun k => k.clearPulse w))
  | _ => s.modCtx c (fun x => x.w1c r w)

/-- A W1C clear of a global register (R140, R158, R177, R286, R319, R359, R360). -/
def State.w1cGlob (s : State) (r : GReg) (w : Word) : State :=
  match r with
  | .summitStatus => { s with sum := { s.sum with old := summitShape.clear s.sum.old w } }
  | .tokenStatus => { s with tokOld := tokenShape.clear s.tokOld w }
  | .imonFault k =>
    { s with ph := every s.ph (fun p x => if p.val / 32 = k.val then { x with imonOld := x.imonOld && !w.getLsbD (p.val % 32) } else x) }
  | .ftStatus => { s with ft := { s.ft with old := ftShape.clear s.ft.old w } }
  | .thermStatus => { s with th := { s.th with old := thermShape.clear s.th.old w } }
  | .nvmStatus => { s with nv := { s.nv with old := nvmShape.clear s.nv.old w } }
  | .ledgerStatus => { s with led := { s.led with old := ledgerShape.clear s.led.old w } }
  | _ => s

/-! ### A fab cycle ends: what it set becomes old -/

def Cell.newCycle (k : Cell) : Cell :=
  { k with oldSat := k.satBits, satFlags := 0
           oldSatCounts := Vector.ofFn (fun j => k.satCount j), satCounts := Vector.replicate 16 0
           oldPulse := k.pulseSticky, stretched := false, skipped := false, clipped := false, peakMiss := false, shortCount := 0, clipCount := 0 }
def Sense.newCycle (x : Sense) : Sense :=
  { x with old := x.sticky, azAbort := false, imonFault := false, senseOpen := false, iswSat := false }
def Sched.newCycle (x : Sched) : Sched :=
  { x with old := x.sticky, missed := false, late := false, notStarted := false, cancelled := false, expired := false, iffClamp := false,
           lateCount := 0, missCount := 0 }
def ModeS.newCycle (x : ModeS) : ModeS :=
  { x with old := x.sticky, probeRefused := false, cmdLogged := false, trackIgnored := false, passExited := false, passBlocked := false,
           passMoved := false }
def Probe.newCycle (x : Probe) : Probe :=
  { x with old := x.sticky, oldOverruns := x.overrunCount, done := false, disturbed := false, overrun := false, sumSat := false, overruns := 0 }
def Prot.newCycle (x : Prot) : Prot := { x with old := x.sticky, classFlags := 0, retryExhausted := false, declCount := 0 }
def Chan.newCycle (x : Chan) : Chan :=
  { x with old := x.sticky, seatLost := false, fastTrip := false, foldbackTimeout := false, startShort := false, passDeviceFail := false,
           seatGlitch := false, startBlocked := false, tripCount := 0 }
def TarnS.newCycle (x : TarnS) : TarnS :=
  { x with old := x.sticky, viol := false, quarFlag := false, released := false, dup := false, violCount := 0, tie := none }
def Ctx.newCycle (x : Ctx) : Ctx :=
  { x with oldLaw := x.lawSticky, tgtClamped := false, redirected := false, reversed := false, redirects := 0
           sense := x.sense.newCycle, sched := x.sched.newCycle, mode := x.mode.newCycle, probe := x.probe.newCycle, prot := x.prot.newCycle,
           chan := x.chan.newCycle, tarn := x.tarn.newCycle }
def Summit.newCycle (x : Summit) : Summit :=
  { x with old := x.sticky, fSupRestart := false, fResyncFail := false, fRefused := false, fHandover := false, fFailover := false,
           fUnattrib := false, fAlert := false, supRestarts := 0, unattribs := 0, failovers := 0 }
def FieldT.newCycle (x : FieldT) : FieldT := { x with old := x.sticky, stepped := false, glitch := false, stepCount := 0 }
def Therm.newCycle (x : Therm) : Therm :=
  { x with old := x.sticky, fWarn := false, fThrottle := false, fPh := false, fDie := false, fHeath := false, fBroken := false }
def Store.newCycle (x : Store) : Store := { x with old := x.sticky, rsTie := false, blockRetired := false }
def Ledger.newCycle (x : Ledger) : Ledger := { x with old := x.sticky, torn := false, gap := false, remLost := false, full := false, overflow := 0 }

/-- What the fab cycle that ends has set becomes old (R7). -/
def State.newCycle (s : State) : State :=
  let s := s.halves (fun x => { x with cell := every x.cell (fun _ k => k.newCycle) })
  { s with ctx := every s.ctx (fun _ x => x.newCycle), ph := every s.ph (fun _ x => { x with imonOld := x.imonOld || x.imonBit, imonBit := false })
           sum := s.sum.newCycle, ft := s.ft.newCycle, th := s.th.newCycle, nv := s.nv.newCycle, led := s.led.newCycle
           tokOld := s.tokenSticky, tokErr := false, tokCount := 0 }

end Sys2Proof.Machine
end

