-- ==== Sys2Proof/Machine/Status.lean ====
section
/-!
DEFINITION. The words of the status registers of contexts, channels and phases, and of the sensing, field-time,
protection and thermal globals, as a read returns them (R433): layouts of chapters 01 to 09.
-/
namespace Sys2Proof.Machine

/-- Codes of the device states (R38). COLD has no code of its own and answers nothing (log entry 13). -/
def DevState.num : DevState → Nat
  | .cold => 0
  | .boot => 1
  | .standby => 2
  | .run => 3
  | .safe => 4
  | .holdup => 5
def holderNum : Option HalfId → Nat
  | none => 0
  | some .east => 1
  | some .west => 2

/-- DEV.STATE (R38). -/
def State.devStateWord (s : State) : Word :=
  word (s.dev.st.num + 8 * holderNum s.holder + flag s.sum.east.eligible 5 + flag s.sum.west.eligible 6
    + flag s.dev.cfgDefaulted 7 + flag s.dev.calDefaulted 8 + flag s.dev.causePin 16 + flag s.dev.causeNoHalf 17
    + flag s.dev.causeClock 18 + flag s.dev.causeFault 19)

/-- CTX[c].SAT_FLAGS (R52). -/
def State.satWord (s : State) (c : CtxId) : Word := (s.cell c).satBits.setWidth 32

/-- CTX[c].LAW_CTL (R105). -/
def State.lawCtlWord (s : State) (c : CtxId) : Word :=
  word (flag (s.cell c).bankBActive 0 + flag s.ctx[c].swapPending 1 + flag s.ctx[c].view 2)

/-- CTX[c].LAW_STATUS (R106): AT_TARGET reads 0, its reset value, while the context does not regulate (log entry 138). -/
def State.lawStatusWord (s : State) (c : CtxId) : Word :=
  s.ctx[c].lawSticky ||| word (flag (s.ctx[c].regulating && s.atTarget c) 0 + flag (s.cell c).intAtBound 4)

/-- CTX[c].PULSE_STATUS (R137). -/
def State.pulseWord (s : State) (c : CtxId) : Word := (s.cell c).pulseSticky

/-- A calibration the context draws on is provisional (R162, R169). -/
def State.calProvisional (s : State) (c : CtxId) : Bool :=
  s.ctx[c].chan.provisional || (s.bound c).any (fun p => s.ph[p].provisional)

/-- CTX[c].SENSE_STATUS (R169): the words in use are defaulted from step 5 of the boot sequence on (R165, R168). OFS_STALE is set for
a channel too, whose shunt has missed 600 windows since BOOT (R157): DESIGN CHOICE, log entry 169. -/
def State.senseWord (s : State) (c : CtxId) : Word :=
  let x := s.ctx[c].sense
  let k := s.ctx[c].chan
  x.sticky ||| word (flag ((s.bound c).any (fun p => s.ph[p].azStale) || (decide (c.val ≠ 0) && decide (600 ≤ k.zeroMissed))) 3
    + flag (s.dev.restored && k.cal.isNone && !k.provisional) 4 + flag (s.dev.restored && x.cal.isNone) 5 + flag x.classB 6 + flag (s.calProvisional c) 7)

/-- CTX[c].SCH_STATUS (R198). -/
def State.schWord (s : State) (c : CtxId) : Word :=
  let x := s.ctx[c].sched
  x.sticky ||| word (64 * x.events.length)

/-- CTX[c].MODE_STATUS (R224). -/
def State.modeStatusWord (s : State) (c : CtxId) : Word :=
  let x := s.ctx[c].mode
  x.sticky ||| word (flag x.passInForce 7 + flag x.leaderLost 8 + 65536 * x.eff.toNat)

def ProbeState.num : ProbeState → Nat
  | .idle => 0
  | .settling => 1
  | .integrating => 2
  | .paused => 3
  | .done => 4
  | .refusedPass => 5
  | .refusedBusy => 6
  | .aborted => 7

/-- CTX[c].PROBE_STATUS and PROBE_PTR (R226, R223). -/
def State.probeWord (s : State) (c : CtxId) : Word :=
  let x := s.ctx[c].probe
  x.sticky ||| word (16 * x.st.num + 16777216 * x.point)
def State.probePtrWord (s : State) (c : CtxId) : Word :=
  let x := s.ctx[c].probe
  word (x.wptr + 65536 * x.overrunCount)

/-- CTX[c].FAULT_STATUS (R283). -/
def Prot.statusWord (x : Prot) : Word :=
  x.sticky ||| word (flag x.latched 15 + 65536 * x.retryUsed + 1048576 * x.lastClass.val)

def ChState.num : ChState → Nat
  | .unseated => 0
  | .seating => 1
  | .off => 2
  | .starting => 3
  | .on => 4
  | .stopping => 5
  | .fault => 6
def ChCause.num : ChCause → Nat
  | .none => 0
  | .seatLost => 1
  | .fastTrip => 2
  | .startShort => 3
  | .foldbackTimeout => 4
  | .gateNotRising => 5
  | .gateLow => 6
  | .gateStuck => 7
  | .senseShunt => 8

/-- SW[c].STATUS and SW[c].CTL (R249, R250). -/
def Chan.statusWord (x : Chan) : Word :=
  x.sticky ||| word (flag x.deferred.isSome 12 + flag x.limiting 13 + flag x.conducting 14 + flag x.seated 15 + 16777216 * x.cause.num
    + 268435456 * x.st.num)

/-- The learned delay d of R192. -/
def learned (d8 : Int) : Nat := (clamp ((d8 + 4) / 8) 0 80000).toNat

/-- DEV.PH_ACTIVE (R139): both Spurs of a pair read alike. -/
def State.phActive (s : State) (p : PhaseId) : Bool :=
  match (s.hph (if s.follower p then pairLead p else p)).state with
  | .active | .on | .held => true
  | _ => false

/-- A word of one bit per entry, bit j for entry base + j. -/
def bitWord (n base : Nat) (f : Nat → Bool) : Word :=
  word ((List.range n).foldl (fun a j => a + flag (f (base + j)) j) 0)

/-- A word of one bit per context, for contexts base to base + 31. -/
def ctxWord (base : Nat) (f : CtxId → Bool) : Word :=
  bitWord 32 base (fun j => if h : j < 64 then f ⟨j, h⟩ else false)
def phWord (base : Nat) (f : PhaseId → Bool) : Word :=
  bitWord 32 base (fun j => if h : j < 96 then f ⟨j, h⟩ else false)

/-- DEV.TOKEN_STATUS (R140). -/
def State.tokenWord (s : State) : Word := s.tokenSticky ||| word s.tokFree

/-- DEV.CAL_RESULT (R170). -/
def State.calResultWord (s : State) : Word := word (s.cal.op + 16 * s.cal.code + 16777216 * s.cal.loadFrac)

/-- DEV.FT_CFG, DEV.FT_STATUS and DEV.FT_RATE (R177, R483). -/
def State.ftCfgWord (s : State) : Word := word ((s.gNew .ftCfg).toNat + flag s.ft.armBit 3)
def State.ftStatusWord (s : State) : Word :=
  let x := s.ft
  x.sticky ||| word (flag x.valid 0 + flag x.locked 1 + flag x.holdover 2 + 65536 * field x.phaseErr 16)

/-- A window's output (R253). -/
def State.window (s : State) (k : Fin 8) : Bool :=
  let w := s.gp (.crgWin k)
  let a := (s.crag[(⟨bitsOf w 0 4 % 16, by omega⟩ : Fin 16)]).tripped
  let b := (s.crag[(⟨bitsOf w 4 4 % 16, by omega⟩ : Fin 16)]).tripped
  bitOf w 9 && (if bitOf w 8 then a && b else a || b)

/-- DEV.CRG_STATE (R282). -/
def State.crgWord (s : State) : Word :=
  bitWord 24 0 (fun j => if h : j < 16 then (s.crag[(⟨j, h⟩ : Fin 16)]).tripped
    else if h2 : j - 16 < 8 then s.window ⟨j - 16, h2⟩ else false)

/-- DEV.TSENS, DEV.TZONE and DEV.TZONE_LEVEL (R282). -/
def State.tsensWord (s : State) (i : Fin 12) : Word :=
  word (field (s.th.reading[2 * i.val]'(by omega)) 16 + 65536 * field (s.th.reading[2 * i.val + 1]'(by omega)) 16)
def State.tzoneWord (s : State) (i : Fin 10) : Word :=
  word (field (s.th.zone[2 * i.val]'(by omega)).v 16
    + (if h : 2 * i.val + 1 < 19 then 65536 * field (s.th.zone[2 * i.val + 1]'h).v 16 else 0))
def State.levelWord (s : State) (i : Fin 2) : Word :=
  word ((List.range 16).foldl (fun a j => if h : 16 * i.val + j < 19 then a + 4 ^ j * (s.th.zone[16 * i.val + j]'h).level.num else a) 0)

/-- The on-die sensors that work, and whether each reads inside a band (R281). -/
def State.dieWithin (s : State) (lo hi : Int) : Bool :=
  (List.finRange 8).all (fun k => s.th.broken.getLsbD k.val
    || (decide (lo ≤ s.th.reading[k.val]'(by omega)) && decide (s.th.reading[k.val]'(by omega) ≤ hi)))
def State.inWindow (s : State) : Bool := s.dieWithin (-2560) 14080
/-- The die temperature: the maximum of the working on-die sensors, 0x7FFF where none works (log entry 14). -/
def State.dieTemp (s : State) : Int :=
  let l := (List.finRange 8).filterMap (fun k => if s.th.broken.getLsbD k.val then none else some (s.th.reading[k.val]'(by omega)))
  match l with
  | [] => 32767
  | x :: xs => xs.foldl max x

/-- Routine writes wait (R281). -/
def State.routineDeferred (s : State) : Bool := !s.inWindow || s.dieThrottled
/-- A routine write waits for the window or a throttle, or for those before it that did (R281). -/
def State.recDeferred (s : State) : Bool := s.nv.deferred || (s.routineDeferred && !s.nv.routine.isEmpty)
/-- DEV.THERM_STATUS (R286). -/
def State.thermWord (s : State) : Word := s.th.sticky ||| word (flag (!s.inWindow) 14 + flag s.recDeferred 15)

/-- A PH[p] shed or a context latch or a channel fault holds FAULT_N low (R266). -/
def State.ctxFaulty (s : State) (c : CtxId) : Bool :=
  s.ctx[c].prot.latched || decide (s.ctx[c].chan.st = .fault)
    || (s.bound c).any (fun p => s.ph[p].unavOc || s.ph[p].unavOt || s.ph[p].unavImon)
/-- FAULT_N reads low (R266). -/
def State.faultLow (s : State) : Bool :=
  decide (s.dev.st = .safe) || s.sum.safeHeld || ctxIds.any (fun c => s.ctx[c].prot.latched || decide (s.ctx[c].chan.st = .fault))
    || phaseIds.any (fun p => s.ph[p].unavOc || s.ph[p].unavOt || s.ph[p].unavImon)

/-- PG_ALL (R272). -/
def State.pgMasked (s : State) (c : CtxId) : Bool :=
  decide (c.val ≠ 0) && (if c.val < 32 then bitOf (s.gp (.pgAllMask 0)) c.val else bitOf (s.gp (.pgAllMask 1)) (c.val - 32))
def State.pgAll (s : State) : Bool :=
  decide (s.dev.st = .run) && !s.sum.safeHeld && ctxIds.any s.pgMasked && ctxIds.all (fun c => !s.pgMasked c || s.ctx[c].prot.pg)

/-- What an MF pin drives (R222, R223): none is high impedance, as an input is. FUNC 0x01 reads low in SAFE (R312), 0x02 is low under
the condition of R266 for its context, and in SAFE. -/
def State.mfOut (s : State) (k : Fin 16) : Option Bool :=
  let w := s.gp (.mfSel k)
  let c : CtxId := ⟨bitsOf w 8 8 % 64, by omega⟩
  if !s.dev.drivers then none
  else match bitsOf w 0 8 with
    | 1 => some (s.ctx[c].prot.pg && decide (s.dev.st ≠ .safe))
    | 2 => some (!(decide (s.dev.st = .safe) || s.ctxFaulty c))
    | 3 => some (decide (s.ctx[c].probe.st = .integrating))
    | 4 => some (match s.ctx[c].chan.gateAt with
      | some t => decide (s.clk.time < t + 400)
      | none => false)
    | 5 => some (bitOf (s.gp .mfOut) k.val)
    | _ => none

end Sys2Proof.Machine
end

