-- ==== Sys2Proof/Machine/Notify.lean ====
section
/-!
DEFINITION. What the device reports: the mailbox event queue (R380, R381) and Cairn requests (R347 to R350).
-/
namespace Sys2Proof.Machine

/-- Event codes of R381. -/
def evFaultDeclared : Nat := 0x01
def evFaultReleased : Nat := 0x02
def evPgChange : Nat := 0x03
def evThermalLevel : Nat := 0x04
def evClassChange : Nat := 0x05
def evCalProvisional : Nat := 0x06
def evCalDone : Nat := 0x07
def evSched : EvOutcome → Nat
  | .confirmed => 0x08
  | .missed => 0x09
  | .notStarted => 0x0A
  | .superseded => 0x0B
  | .cancelled => 0x0C
  | .expired => 0x0D
def evFailover : Nat := 0x0E
def evHandover : Nat := 0x0F
def evUnattrib : Nat := 0x10
def evAlert : Nat := 0x11
def evSupRestart : Nat := 0x12
def evResyncFail : Nat := 0x13
def evHalfRetired : Nat := 0x14
def evStateChange : Nat := 0x15
def evHoldLow : Nat := 0x16
def evLedgerItem : Nat := 0x17
def evStore : Nat := 0x18
def evCairnErased : Nat := 0x19
def evPulseClip : Nat := 0x1A
def evTokenErr : Nat := 0x1B
def evTarnQuar : Nat := 0x1C
def evProbeDone : Nat := 0x1D
def evTraceDone : Nat := 0x1E
def evFwDone : Nat := 0x1F
def evSessionEnd : Nat := 0x20
def evAuthFailed : Nat := 0x21
def evQueueOverflow : Nat := 0xFE

/-- Sources of R348. -/
def srcEast : Fin 69 := 64
def srcWest : Fin 69 := 65
def srcHeath : Fin 69 := 66
def srcStore : Fin 69 := 67
def srcIface : Fin 69 := 68
def srcCtx (c : CtxId) : Fin 69 := ⟨c.val, by omega⟩
def srcHalf : HalfId → Fin 69
  | .east => srcEast
  | .west => srcWest

/-- Raise VALUE_A of the last entry, which stands for the events not queued (R380). -/
def bumpLast : List EvEntry → List EvEntry
  | [] => []
  | [e] => [{ e with a := if e.a = 0xFFFFFFFF then e.a else e.a + 1 }]
  | e :: es => e :: bumpLast es

/-- Queue an event (R380): 63 entries, then one QUEUE_OVERFLOW entry that counts. -/
def State.event (s : State) (src code : Nat) (a b : Word) : State :=
  let m := s.mb
  let e : EvEntry := { eseq := m.nextEseq, source := src, code := code, a := a, b := b, ftime := s.ftUs % 4294967296 }
  if m.events.length < 63 then
    { s with mb := { m with events := m.events ++ [e], nextEseq := (m.nextEseq + 1) % 65536 } }
  else if m.events.length = 63 then
    { s with mb := { m with events := m.events ++ [{ e with source := 0xFF, code := evQueueOverflow, a := 1,
                                                            b := word ((m.nextEseq + 65535) % 65536) }],
                            nextEseq := (m.nextEseq + 1) % 65536 } }
  else { s with mb := { m with events := bumpLast m.events } }

/-- The Heath's second in which requests are counted (R348). -/
def State.heathSecond (s : State) : Nat := s.clk.time / sTicks

/-- Count a request and queue its record, or suppress it (R335, R348, R350). -/
def State.request (s : State) (r : CairnReq) : State :=
  let x := s.cairn
  let x := if x.second = s.heathSecond then x
    else { x with second := s.heathSecond, thisSecond := Vector.replicate 69 0 }
  if x.thisSecond[r.source] < 32 ∧ x.queue.length < 16 ∧ s.dieWithin (-5120) 16000 = true then
    { s with cairn := { x with queue := x.queue ++ [r], thisSecond := upd x.thisSecond r.source (· + 1),
                               written := upd x.written r.source (· + 1) } }
  else
    { s with cairn := { x with suppressed := upd x.suppressed r.source (· + 1),
                               sinceSummary := upd x.sinceSummary r.source (· + 1) } }

/-- The eight words of a summary (R349): those of the context for a context source; where a source has no such word,
and where no zone is concerned, the word is a free value (log entry 9). -/
def State.summaryWords (s : State) (src : Fin 69) (zone : Option Int) (value : Word) : List Word :=
  let free (k : Nat) : Word := (Config.freeValue (s.free + k)).setWidth 32
  let z := match zone with
    | some v => wordOf v
    | none => free 6
  if h : src.val < 64 then
    let c : CtxId := ⟨src.val, h⟩
    [wordOf (s.cell c).vmeas.v, wordOf (s.cell c).icmd.v, wordOf s.ctx[c].chan.isw, s.ctx[c].prot.statusWord,
      s.ctx[c].chan.statusWord, s.modeStatusWord c, z, value]
  else (List.range 6).map free ++ [z, value]

/-- A Cairn summary request (R348, R349). -/
def State.summary (s : State) (src : Fin 69) (code fclass : Nat) (zone : Option Int) (value : Word) : State :=
  let r : CairnReq :=
    { source := src, code := code, fclass := fclass, tag := s.tag32, ftime := s.ftUs, devState := s.devStateWord.toNat % 256,
      valid := s.ft.valid, words := s.summaryWords src zone value, signal := none }
  { s.request r with free := s.free + 7 }

/-- A summary whose event code the manual does not give: the code is a free value (log entry 9). -/
def State.summaryFree (s : State) (src : Fin 69) (value : Word) : State :=
  ({ s with free := s.free + 1 } : State).summary src ((Config.freeValue s.free).toNat % 256) 0xFF none value

/-- A snapshot request of one signal; a suppressed one counts as taken (R349). -/
def State.snapshotReq (s : State) (c : CtxId) (k : Fin 4) : State :=
  let r : CairnReq :=
    { source := srcCtx c, code := 0, fclass := 0xFF, tag := s.tag32, ftime := s.ftUs, devState := 0, valid := s.ft.valid,
      words := [], signal := some k }
  let t := s.request r
  if t.cairn.queue.length = s.cairn.queue.length then t
  else t.modCtx c (fun x => { x with prot := { x.prot with snapshots := x.prot.snapshots + 1 } })

/-- The four snapshots of a declaration; the ring freezes until the last of them is taken (R69, R349). The newest write of a fault that is
declared between two boundaries is that of the boundary before it: DESIGN CHOICE, log entry 149. -/
def State.snapshots (s : State) (c : CtxId) : State :=
  if s.ctx[c].prot.ringFrozen then s
  else
    let s := (((s.snapshotReq c 0).snapshotReq c 1).snapshotReq c 2).snapshotReq c 3
    s.modCtx c (fun x => { x with prot := { x.prot with ringFrozen := decide (0 < x.prot.snapshots) } })

end Sys2Proof.Machine
end

