-- ==== Sys2Proof/Machine/Events.lean ====
section
/-!
DEFINITION. How a schedule event leaves its slot (06_section_schedule.md, R190 to R195), and what triggers a trace (R377).
-/
namespace Sys2Proof.Machine

/-- Change the schedule of a context. -/
def State.modSched (s : State) (c : CtxId) (f : Sched → Sched) : State :=
  s.modCtx c (fun x => { x with sched := f x.sched })

/-- Change one held event. -/
def Sched.modEvent (x : Sched) (serial : Nat) (f : Event → Event) : Sched :=
  { x with events := x.events.map (fun e => if e.serial = serial then f e else e) }
def Sched.find (x : Sched) (serial : Nat) : Option Event := x.events.find? (fun e => e.serial = serial)

/-- The entry of the event queue that an ended event leaves (R193, R381). -/
def State.endEntry (s : State) (c : CtxId) (e : Event) : State :=
  let o := e.outcome.getD .confirmed
  let conf := if e.confirmed && decide (o = .confirmed) then min e.confTime 0xFFFF else 0xFFFF
  s.event c.val (evSched o) (word (65536 * e.ident + conf)) (word (e.dMeas.getD 0xFFFFFFFF))

/-- A missed or not-started event (R190): flags and count, the profile withdrawn, the floor released, a summary. -/
def State.missEvent (s : State) (c : CtxId) (serial : Nat) (o : EvOutcome) : State :=
  match s.ctx[c].sched.find serial with
  | none => s
  | some e =>
    let s := s.modSched c (fun x =>
      { x.modEvent serial (fun e => { e with withdrawing := true, outcome := some o, closed := true, floor := 0, armed := none,
                                             gateDone := true }) with
        missCount := capInc x.missCount 255
        missed := x.missed || decide (o = .missed)
        notStarted := x.notStarted || decide (o = .notStarted) })
    s.summary (srcCtx c) (evSched o) 0xFF none (word (e.dMeas.getD 0xFFFFFFFF))

/-- A superseded event (R191): its window closes and its profile is withdrawn; it is not counted. One that has been confirmed keeps its
profile to the end (R189), its window's span over or not: DESIGN CHOICE, log entry 171. -/
def State.supersede (s : State) (c : CtxId) (serial : Nat) : State :=
  s.modSched c (fun x => { x with
    events := x.events.map (fun e =>
      if e.serial ≠ serial ∧ e.kind ≠ .step ∧ e.gateDone = true ∧ e.closed = false ∧ e.confirmed = false ∧ e.ended = false
      then { e with closed := true, withdrawing := true, outcome := some .superseded } else e) })

/-- The held or deferred start that an event asked for does not come about (R194, R195, R233, R234): its timer is disarmed. -/
def Chan.disarm (x : Chan) (p : Nat → Bool) : Chan :=
  match x.deferred, x.heldEv with
  | some { event := some n, .. }, _ => if p n then { x with deferred := none, on := false } else x
  | _, some n => if p n then { x with heldOn := false, heldEv := none, on := false } else x
  | _, _ => x

/-- The flush of R195: every held event ends as CANCELLED, at once, and every timer is disarmed; the dwell count starts afresh
(R193). -/
def State.flush (s : State) (c : CtxId) : State :=
  match s.ctx[c].sched.events with
  | [] => s
  | es =>
    let s := s.modCtx c (fun x => { x with sched := { x.sched with events := [], cancelled := true, nFloor := 0, windows := [] },
                                           chan := x.chan.disarm (fun _ => true) })
    let s := s.halves (fun h => h.modCell c (fun k => { k with dwell := 0 }))
    es.foldl (fun s e => s.endEntry c { e with outcome := some .cancelled }) s

/-- The trigger of a trace (R377): 448 pairs more. -/
def State.traceTrigger (s : State) (c : CtxId) (trig : Nat) : State :=
  s.modCtx c (fun x =>
    if x.traceRunning && decide (bitsOf x.traceWord.toNat 26 2 = trig) && x.traceTail.isNone then { x with traceTail := some 448 } else x)

end Sys2Proof.Machine
end

