-- ==== Sys2Proof/Machine/Channel.lean ====
section
/-!
DEFINITION. The operations of a switch channel (08_section_switches.md): what it takes to start, ON and OFF commands,
entry to FAULT and release from it.
-/
namespace Sys2Proof.Machine

/-- A channel that the device opens begins its pull-down (R233, R243). `measured`: by an OFF command (R192). -/
def Chan.pullDown (x : Chan) (now : Nat) (measured : Bool) : Chan :=
  { x with st := .stopping, pullStart := now, measOn := none, measOff := if measured && x.conducting then some now else none, offEv := none,
           gate := (0, 1), limiting := false }

/-- I_GS in microamperes for a GATE_SRC (R228). -/
def gateSource (src : Int) : Int := 50 * (2 : Int) ^ (src.toNat % 4)

/-- The device state permits a channel to start (R232). -/
def State.stateAllowsOn (s : State) (c : CtxId) : Bool :=
  if c.val = 0 then
    decide (s.dev.st = .standby) || decide (s.dev.st = .run) || (decide (s.dev.st = .safe) && decide (s.gp .safeInput = 1))
  else decide (s.dev.st = .run)

/-- The channel may start at this fast tick (R232). -/
def State.mayStart (s : State) (c : CtxId) : Bool :=
  let x := s.ctx[c].chan
  decide (x.st = .off) && x.seated && !x.tripped && s.stateAllowsOn c && (decide (c.val = 0) || s.ctx[c].regulating)

/-- The gate ramp begins (R192, R233, R236). A measurement that the pull-down before it began goes on. -/
def State.gateRamp (s : State) (c : CtxId) : State :=
  let now := s.clk.time
  let s := s.modChan c (fun x =>
    { x with st := .starting, on := true, gateStart := now, gateAt := some now, proven := false, measOn := some now, insTimer := 0,
             foldTimer := 0, calm := 0, gate := (gateSource (s.cp c .gateSrc), 1), limiting := false, heldOn := false, heldEv := none, deferred := none })
  let s := s.traceTrigger c 2
  if c.val = 0 then s else { s with lastOn := some now }

/-- The latest ON gate start that spacing counts from: made, or already deferred (R234). -/
def State.lastOnOrDue (s : State) : Option Nat :=
  ctxIds.foldl (fun a c => match s.ctx[c].chan.deferred with
    | none => a
    | some d => some (max d.due (a.getD 0))) s.lastOn

/-- Where spacing puts an ON gate start asked for now (R234): none where it proceeds at once. -/
def State.spacing (s : State) (c : CtxId) : Option Nat :=
  if c.val = 0 ∨ s.dieThrottled = false then none
  else match s.lastOnOrDue with
    | none => none
    | some l => if s.clk.time < l + 20000000 then some (l + 20000000) else none

/-- The deferred start of `b` has this very fast tick as its original instant and a higher channel number (R234). -/
def State.runsAfter (s : State) (c b : CtxId) : Bool :=
  decide (c.val < b.val) && (match s.ctx[b].chan.deferred with
    | none => false
    | some d => decide (d.original = s.clk.time))
/-- The instants of an event move by the deferral of its gate start, and it counts as late (R186). The deferral is taken in whole
microseconds of 400 fast ticks: DESIGN CHOICE, log entry 170. -/
def State.delayEvent (s : State) (c : CtxId) (n ticks : Nat) : State :=
  s.modSched c (fun x => { x.modEvent n (fun e => { e with t := (e.t + ticks / usTicks) % 2 ^ 48, k := 0, fE := tag 0, fW := tag 0 }) with
    lateCount := capInc x.lateCount 255, late := true })
/-- A deferred start moves one place back: 50 ms, with the instant of its event (R186, R234). -/
def State.deferFurther (s : State) (b : CtxId) : State :=
  match s.ctx[b].chan.deferred with
  | none => s
  | some d =>
    let s := s.modChan b (fun x => { x with deferred := some { d with due := d.due + 20000000 } })
    match d.event with
    | none => s
    | some n => s.modSched b (fun x => x.modEvent n (fun e => { e with t := (e.t + 50000) % 2 ^ 48 }))

/-- A start is deferred; of equal original instants the lower channel number comes first (R186, R234). -/
def State.deferTo (s : State) (c : CtxId) (ev : Option Nat) (last : Nat) : State :=
  let behind := ctxIds.filter (fun b => s.runsAfter c b)
  let due := last - 20000000 * behind.length
  let s := behind.foldl (fun s b => s.deferFurther b) s
  let s := s.modChan c (fun x => { x with on := true, deferred := some { original := s.clk.time, due := due, event := ev } })
  match ev with
  | none => s
  | some n => s.delayEvent c n (due - s.clk.time)

/-- A command that may start: at once, or deferred with the schedule instants it moves (R186, R234). -/
def State.startOrDefer (s : State) (c : CtxId) (ev : Option Nat) : State :=
  match s.spacing c with
  | none => (s.gateRamp c).modChan c (fun x => { x with startEv := ev })
  | some due => s.deferTo c ev due

/-- An ON command that finds the channel unable to start (R232, R233): ON clears, START_BLOCKED is set. -/
def Chan.blocked (x : Chan) : Chan := { x with on := false, heldOn := false, heldEv := none, startBlocked := true }
/-- A held ON acts in the fast tick in which the channel has reached OFF (R233); a schedule ON that may not start is not
started (R186). -/
def State.heldStart (s : State) (c : CtxId) (ev : Option Nat) : State :=
  if s.mayStart c then
    match ev with
    | some n => (if (s.spacing c).isNone then s.supersede c n else s).startOrDefer c ev
    | none => s.startOrDefer c ev
  else
    let s := s.modChan c Chan.blocked
    match ev with
    | some n => s.missEvent c n .notStarted
    | none => s

/-- An OFF command reached the channel in this very fast tick: it wins over any ON (R233). -/
def Chan.offNow (x : Chan) (now : Nat) : Bool := decide (x.offAt = some now)

/-- An ON command of the host or of a retry (R232, R233). -/
def State.onCmd (s : State) (c : CtxId) : State :=
  if s.ctx[c].chan.offNow s.clk.time then s
  else match s.ctx[c].chan.st with
  | .starting | .on => s.modChan c (fun x => { x with on := true })
  | .stopping => s.modChan c (fun x => { x with on := true, heldOn := true })
  | _ =>
    if s.ctx[c].chan.deferred.isSome then s.modChan c (fun x => { x with on := true })
    else if s.mayStart c then s.startOrDefer c none else s.modChan c Chan.blocked

/-- The gate ramp began in this very fast tick (R233). -/
def Chan.startedNow (x : Chan) (now : Nat) : Bool := decide (x.st = .starting) && decide (x.gateStart = now)
/-- The schedule event whose ON an OFF command withdraws: it was held or deferred, or began its ramp in this fast tick (R186,
R233). -/
def Chan.withdrawnEvent (x : Chan) (now : Nat) : Option Nat :=
  match x.deferred with
  | some d => d.event
  | none => if x.startedNow now then x.startEv else x.heldEv

/-- An OFF command opens the gate (R233), a gate start that the MF pins mark (R222); a ramp of this very fast tick has not begun, since
the OFF wins, and is no gate start. -/
def Chan.offGate (x : Chan) (now : Nat) : Chan :=
  match x.st with
  | .starting | .on =>
    if x.startedNow now then { x with st := .off, gate := (0, 1), limiting := false, measOn := none, gateAt := none }
    else { x.pullDown now true with gateAt := some now }
  | _ => x

/-- An OFF command (R233): it withdraws a held or deferred ON; a withdrawn schedule ON is not started. -/
def State.offCmd (s : State) (c : CtxId) : State :=
  let x := s.ctx[c].chan
  let now := s.clk.time
  let s := match x.withdrawnEvent now with
    | some n => s.missEvent c n .notStarted
    | none => s
  let s := match x.st with
    | .starting | .on => s.traceTrigger c 2
    | _ => s
  s.modChan c (fun x =>
    { x with on := false, heldOn := false, heldEv := none, deferred := none, retryOn := false, offAt := some now, startEv := none }.offGate now)

/-- The flag a cause sets (R245, table Channel fault causes). -/
def Chan.causeFlag (x : Chan) : ChCause → Chan
  | .none => x
  | .seatLost => { x with seatLost := true }
  | .fastTrip => { x with fastTrip := true }
  | .startShort => { x with startShort := true }
  | .foldbackTimeout => { x with foldbackTimeout := true }
  | .gateNotRising | .gateLow | .gateStuck => { x with passDeviceFail := true }
  | .senseShunt => x

/-- A fast trip is counted, and its flag set (R239, R240). -/
def Chan.countTrip (x : Chan) : Chan := { x with fastTrip := true, tripCount := capInc x.tripCount 255, tripCounted := true }
/-- A comparator that reads tripped is counted once in the states that R239 and R240 name. -/
def Chan.noteTrip (x : Chan) : Chan :=
  if x.tripped && !x.tripCounted then
    match x.st with
    | .unseated | .seating => x
    | _ => x.countTrip
  else x
/-- The schedule event whose ON waits on the channel, held or deferred. -/
def Chan.waitingEvent (x : Chan) : Option Nat :=
  match x.deferred with
  | some d => d.event
  | none => x.heldEv
/-- Entry to FAULT (R245), or the change of its cause to GATE_STUCK (R243). A pull-down that an OFF command began goes on being
measured (R192), and a comparator that reads tripped in FAULT counts (R240). -/
def State.chanFault (s : State) (c : CtxId) (k : ChCause) : State :=
  let now := s.clk.time
  let s := match s.ctx[c].chan.waitingEvent with
    | some n => s.missEvent c n .notStarted
    | none => s
  s.modChan c (fun x =>
    let x := { x with faultAt := some now, faultFrom := x.st, faultLim := x.limiting }
    let x := match x.st with
      | .starting | .on => x.pullDown now false
      | _ => x
    let x : Chan :=
      { x.causeFlag k with st := .fault, cause := k, on := false, heldOn := false, heldEv := none, deferred := none, granted := false,
                           toDeclare := some k, stuckSeen := decide (k = .gateStuck), measOn := none, retryOn := false }
    x.noteTrip)

/-- Where a channel whose gate is off goes: OFF if it is seated (R244, R246). -/
def Chan.rest (x : Chan) (now : Nat) : Chan :=
  { x with st := if x.seated then .off else if x.seatLowSince.isSome then .seating else .unseated, offSince := now, granted := false, retryDue := none, latchOff := false }

/-- Place of a cause in the order of R245. -/
def ChCause.rank : ChCause → Nat
  | .seatLost => 1
  | .fastTrip => 2
  | .gateStuck => 3
  | .startShort => 4
  | .foldbackTimeout => 5
  | .gateNotRising => 6
  | .gateLow => 7
  | .senseShunt => 8
  | .none => 9
/-- The state that the channel had at the start of the fast tick `now`: that of before an entry to FAULT in it (R245). -/
def Chan.stateOf (x : Chan) (now : Nat) : ChState := if x.st = .fault ∧ x.faultAt = some now then x.faultFrom else x.st
/-- LIMITING at that start. -/
def Chan.limitingOf (x : Chan) (now : Nat) : Bool := if x.st = .fault ∧ x.faultAt = some now then x.faultLim else x.limiting
/-- A cause arises in STARTING or ON, or in the fast tick in which another has taken the channel to FAULT (R245): every cause sets
its flag, the first in the order is recorded and declared. -/
def State.raiseCause (s : State) (c : CtxId) (k : ChCause) : State :=
  let x := s.ctx[c].chan
  match x.stateOf s.clk.time with
  | .starting | .on =>
    if x.st = .fault then
      s.modChan c (fun x => if k.rank < x.cause.rank then { x.causeFlag k with cause := k, toDeclare := some k } else x.causeFlag k)
    else s.chanFault c k
  | _ => s

/-- The fast-trip comparator reads tripped: the shunt voltage is not below TRIP × 150 mV ÷ 255, that is TRIP × 10,000 ÷ 17 microvolts
(R239, R240). -/
def tripLevel (trip microvolt : Int) : Bool := decide (trip * 10000 ≤ microvolt * 17)
/-- The comparator follows its threshold and the shunt voltage it saw last; a crossing in STARTING or ON is a fast trip (R239, R240).
With no voltage seen yet it keeps its power-up state. -/
def State.tripFollow (s : State) (c : CtxId) : State :=
  let x := s.ctx[c].chan
  match x.shuntUv with
  | none => s
  | some v =>
    let now := tripLevel (s.cp c .trip) v
    let s := s.modChan c (fun x => { x with tripped := now, tripCounted := x.tripCounted && now })
    let s := if now && !x.tripped then s.raiseCause c .fastTrip else s
    s.modChan c Chan.noteTrip

/-- Release of FAULT, if it has been granted and the gate is off (R246); a retry then applies an ON command. -/
def State.tryRelease (s : State) (c : CtxId) : State :=
  let x := s.ctx[c].chan
  if x.st = .fault ∧ x.granted = true ∧ x.vgs = 0 then
    let again := x.retryOn
    let s := s.modChan c (fun x => { x.rest s.clk.time with retryOn := false })
    if again then s.onCmd c else s
  else s

end Sys2Proof.Machine
end

