-- ==== Sys2Proof/Machine/Faults.lean ====
section
/-!
DEFINITION. Fault declarations and their responses, the end of regulation, power-good's fall and the safe state
(09_protection_and_thermal.md R258 to R271; 01 R37, R39; 10 R312).
-/
namespace Sys2Proof.Machine

/-- A change of the device state, with its event (R381): the safe-state logic holds the safe state in SAFE (R312). -/
def State.goto (s : State) (st : DevState) : State :=
  if s.dev.st = st then s
  else
    let old := s.devStateWord
    let safe := decide (st = .safe)
    let s := { s with dev := { s.dev with st := st, movedAt := some s.fab }
                      sum := { s.sum with safeA := safe, safeB := safe, safeC := safe } }
    s.event 0xFF evStateChange s.devStateWord old

/-- Power-good of a context falls (R271). -/
def State.pgDrop (s : State) (c : CtxId) : State :=
  if s.ctx[c].prot.pg then
    let s := s.modCtx c (fun x => { x with prot := { x.prot with pg := false, pgRun := 0 } })
    s.event c.val evPgChange 0 (wordOf (s.cell c).vmeas.v)
  else s

/-- The phases of a context park, in both halves. N_ACT of a context that does not regulate is 0: DESIGN CHOICE, log entry 153. -/
def State.parkAll (s : State) (c : CtxId) : State :=
  s.halves (fun x => { x with ph := every x.ph (fun _ h => if h.bind = c then h.park else h) }.modCell c (fun k => { k with nAct := 0 }))

/-- A running probe aborts (R215). -/
def Probe.abort (p : Probe) : Probe :=
  match p.st with
  | .settling | .integrating | .paused => { p with st := .aborted, injV := 0, injI := 0 }
  | _ => p

/-- The HELD phases of a context that stops fall: with the outer step at a boundary, else in the next cell tick
(R128). -/
def State.dropHeld (s : State) (c : CtxId) : State :=
  s.halves (fun x => x.dropHeld c (if s.atBoundary c then x.boundaryTick c s.enables else 2 * ((s.clk.fast + 1) / 2)))

/-- A trace takes the capture area (R377). -/
def Ctx.startTrace (x : Ctx) (w : Word) : Ctx :=
  { x with owner := .trace, traceWord := w, tracePos := 0, tracePairs := 0, traceTail := none, traceRunning := true, traceSkip := 0 }
/-- The probe aborts as the context stops; where its bit has left MODE, it may start again and gives up the capture area (R215,
R221). -/
def Ctx.probeOff (x : Ctx) : Ctx :=
  let bit := bitOf (x.p .mode) modeProbe
  { x with probe := { x.probe.abort with bitSeen := x.probe.bitSeen && bit }, owner := if x.owner = .probe && !bit then .none else x.owner }
/-- The context stops regulating (R23, R128, R195, R215, R271, R413). -/
def State.stopReg (s : State) (c : CtxId) : State :=
  if s.ctx[c].regulating then
    let s := (s.pgDrop c).flush c
    let s := (s.dropHeld c).parkAll c
    (s.modCtx c Ctx.probeOff).modCtx c (fun x =>
      { x with regulating := false, firstStep := true, tarn := { x.tarn with inForce := none },
               mode := { x.mode with eff := 0, passInForce := false, passWait := false, designated := none, leaderLost := false },
               prot := { x.prot with ovTimer := 0, uvTimer := 0, ovDeclared := false, uvDeclared := false, pgEver := false,
                                     atTargetSeen := false } })
  else s

/-- Every Spur bound to a context is at its safe level until its next start edge (R127, R262). -/
def State.forceCtx (s : State) (c : CtxId) : State :=
  { s with ph := every s.ph (fun p x => if (s.hph p).bind = c then { x with forced := true } else x) }

/-- The flush of every context, as the device leaves RUN (R195). -/
def State.flushAll (s : State) : State := ctxIds.foldl (fun s c => s.flush c) s
/-- Every rail stops and its channel receives an OFF command. -/
def State.stopRails (s : State) : State :=
  ctxIds.foldl (fun s c => if c.val = 0 then s else (s.stopReg c).offCmd c) s

/-- Channel 0 on entry to SAFE (R247). -/
def State.safeInputStep (s : State) : State := if s.gp .safeInput = 1 then s else s.offCmd 0

/-- The safe state is applied (R37, R312): every output stage safe, every rail stopped, the channels opened, RUN_REQ
cleared; channel 0 keeps its state where SAFE_INPUT is 1 (R247). -/
def State.applySafe (s : State) : State :=
  ({ s with ph := every s.ph (fun _ x => { x with forced := true }),
            dev := { s.dev with runReq := false, rundown := none } } : State).flushAll.stopRails.safeInputStep

/-- The causes of SAFE (R38), and the bit of each. -/
inductive SafeCause where
  | pin
  | noHalf
  | clock
  | fault
deriving DecidableEq, Repr
def SafeCause.ix : SafeCause → Fin 4
  | .pin => 0
  | .noHalf => 1
  | .clock => 2
  | .fault => 3
/-- A cause arises in a fab cycle (R39). -/
def Dev.cause (d : Dev) (k : SafeCause) (now : Nat) : Dev :=
  let d := { d with causeAt := d.causeAt.set k.ix (some now) }
  match k with
  | .pin => { d with causePin := true }
  | .noHalf => { d with causeNoHalf := true }
  | .clock => { d with causeClock := true }
  | .fault => { d with causeFault := true }
/-- SAFE is entered, with the safe state applied in the same fab cycle (R37). -/
def State.enterSafe (s : State) : State := s.applySafe.goto .safe
/-- A SAFE cause arises: its bit sets whatever the state; BOOT with an arbitrated summit, STANDBY and RUN enter SAFE, unless a
transition before it in the order of R34 is taken (R33, R34, R37, R39). In BOOT before that, SAFE waits for the arbitration. -/
def State.safeTrigger (s : State) (k : SafeCause) : State :=
  let s := { s with dev := s.dev.cause k s.fab }
  if s.safeFrom then s.move .safe State.enterSafe else s

/-- LATCH_OFF in context scope (R262): only FAULT_CTL.CLEAR releases it, also where an earlier RETRY waits for its interval (R261). -/
def State.latchCtx (s : State) (c : CtxId) : State :=
  if c.val = 0 then s.safeTrigger .fault
  else
    let s := ((s.forceCtx c).stopReg c).parkAll c
    let s := s.offCmd c
    s.modCtx c (fun x => { x with prot := { x.prot with latched := true, retryDue := none } })

/-- Flag, count and, unless the response is IGNORE, event, summary and snapshots of one declaration (R261, R263). -/
def State.declareFlag (s : State) (c : CtxId) (k : FClass) : State :=
  let s := s.modCtx c (fun x =>
    { x with prot := { x.prot with classFlags := x.prot.classFlags ||| (1#14 <<< k.val), declCount := capInc x.prot.declCount 255 } })
  let s := s.traceTrigger c 1
  if s.resp c k = 0 then s
  else
    let w := s.ctx[c].prot.statusWord
    let s := s.event c.val evFaultDeclared (word k.val) w
    let s := s.summary (srcCtx c) evFaultDeclared k.val none w
    (s.snapshots c).pgDrop c

/-- RETRY in context scope (R264). A context that a LATCH_OFF holds stays so (R261). -/
def State.retryCtx (s : State) (c : CtxId) : State :=
  let held := s.ctx[c].prot.latched && s.ctx[c].prot.retryDue.isNone
  let chOn := decide (s.ctx[c].chan.st = .starting) || decide (s.ctx[c].chan.st = .on)
  let more := decide (s.ctx[c].prot.retryUsed < s.retryCount c)
  let due := s.clk.time + s.retryTicks c
  let now := s.clk.time
  let s := s.latchCtx c
  s.modCtx c (fun x => { x with prot :=
    if held && more then { x.prot with lastRetry := now }
    else if more then { x.prot with retryDue := some due, retryChanOn := chOn, lastRetry := now }
    else { x.prot with retryExhausted := true, exhausted := true, retryDue := none, lastRetry := now } })

/-- The holder's release is taken (R293): it acts at the first fast tick of the next sample tag. -/
def State.takeRelease (s : State) (h : HalfId) : State :=
  let t := s.enables
  let s := s.modHs h (fun x => { x with release := true })
  { s with sum := { s.sum with handoverAt := some t } }

/-- FAILOVER in context scope (R265): the holder is to release the summit, or LATCH_OFF. -/
def State.failoverCtx (s : State) (c : CtxId) (k : FClass) : State :=
  let now := s.clk.time
  let recent := s.recentFailover c
  let s0 := s.modCtx c (fun x => { x with prot := { x.prot with
    lastFailover := some now
    ovTimer := if k.val = 0 then 0 else x.prot.ovTimer
    uvTimer := if k.val = 1 then 0 else x.prot.uvTimer } })
  if recent || !s.shadowEligible then s0.latchCtx c
  else match s.holder with
    | none => s0.latchCtx c
    | some h => s0.takeRelease h

/-- Rank of a response in R263: the larger acts. -/
def respRank : Nat → Nat
  | 3 => 6
  | 4 => 5
  | 5 => 4
  | 2 => 3
  | 1 => 2
  | _ => 1

/-- The acting response of several classes declared at one boundary: highest rank, then lowest class (R263). -/
def State.acting (s : State) (c : CtxId) : List FClass → Option FClass
  | [] => none
  | k :: ks => match s.acting c ks with
    | none => some k
    | some j =>
      if respRank (s.resp c j) < respRank (s.resp c k) ∨ (respRank (s.resp c j) = respRank (s.resp c k) ∧ k.val ≤ j.val)
      then some k else some j

def State.setLast (s : State) (c : CtxId) (k : FClass) : State :=
  s.modCtx c (fun x => { x with prot := { x.prot with lastClass := ⟨k.val, by omega⟩ } })

/-- The response of the class that acts on the context. -/
def State.actCtx (s : State) (c : CtxId) (k : FClass) : State :=
  let s := s.setLast c k
  match s.resp c k with
  | 3 => s.latchCtx c
  | 4 => s.retryCtx c
  | 5 => if k.val = 13 then s else s.failoverCtx c k
  | _ => s

/-- Classes of context scope declared together (R263). The phases of SHED_PHASE declarations are marked by the
caller. -/
def State.declareCtx (s : State) (c : CtxId) (ks : List FClass) : State :=
  let s := ks.foldl (fun s k => s.declareFlag c k) s
  match s.acting c ks with
  | none => s
  | some k => s.actCtx c k

/-- A class of channel scope is declared; LOG and IGNORE release the FAULT that the class itself made (R245, R246, R262, R264), and a
LATCH_OFF outlasts any retry (R261). -/
def State.declareChan (s : State) (c : CtxId) (k : FClass) : State :=
  let s := (s.declareFlag c k).setLast c k
  let latch (s : State) : State :=
    let s := if k.val = 12 ∧ s.ctx[c].chan.st ≠ .fault then
        (s.chanFault c .senseShunt).modChan c (fun x => { x with toDeclare := none }) else s
    let s := s.modChan c (fun x => { x with retryDue := none, retryOn := false, granted := false, latchOff := true })
    if c.val = 0 then s.safeTrigger .fault else s
  match s.resp c k with
  | 3 => latch s
  | 4 =>
    if s.ctx[c].prot.retryUsed < s.retryCount c then
      let due := s.clk.time + s.retryTicks c
      let now := s.clk.time
      let s := s.modChan c (fun x => { x with retryDue := if x.latchOff then none else some due })
      s.modCtx c (fun x => { x with prot := { x.prot with lastRetry := now } })
    else
      let now := s.clk.time
      latch (s.modCtx c (fun x => { x with prot := { x.prot with retryExhausted := true, exhausted := true, lastRetry := now } }))
  | _ =>
    if s.ctx[c].chan.st = .fault ∧ s.ctx[c].chan.cause.cls = k then
      (s.modChan c (fun x => { x with granted := true })).tryRelease c
    else s

/-- An IMON fault of a phase is declared (R154, R158, R258): SHED_PHASE, fixed. -/
def State.imonFault (s : State) (p : PhaseId) : State :=
  let c := (s.hph p).bind
  let s := s.modPh p (fun x => { x with unavImon := true, imonBit := true })
  if c.val = 0 then s
  else
    let s := s.modCtx c (fun x => { x with sense := { x.sense with imonFault := true } })
    s.declareCtx c [6]

/-- A released fault's event (R381). -/
def State.releasedEvent (s : State) (c : CtxId) (k : FClass) : State :=
  s.event c.val evFaultReleased (word k.val) s.ctx[c].prot.statusWord

end Sys2Proof.Machine
end

