-- ==== Sys2Proof/Machine/Capture.lean ====
section
/-!
DEFINITION. The capture of a calibration: its conditions and its sum, word by word (05_sensing_and_calibration.md, R159).
-/
namespace Sys2Proof.Machine

/-- Words a capture takes (R159, table Calibration operations). -/
def CalTarget.words : CalTarget → Nat
  | .phaseGain _ => 4096
  | _ => 2048

/-- The code of its operation (R170). -/
def CalTarget.op : CalTarget → Nat
  | .railP1 _ => 1
  | .railP2 _ => 2
  | .phaseGain _ => 3
  | .shuntGain _ => 4

/-- The conditions of a capture (R159). -/
def State.calCond (s : State) : CalTarget → Bool
  | .railP1 c | .railP2 c =>
    if c.val = 0 then decide (s.dev.st = .standby) || decide (s.dev.st = .run)
    else decide (s.dev.st = .run) && s.ctx[c].regulating && s.atTarget c
  | .phaseGain p =>
    let h := s.hph p
    decide (s.dev.st = .run) && (decide (h.state = .active) || decide (h.state = .on)) && decide ((s.cell h.bind).nAct = 1)
      && s.ph[p].offsetValid
  | .shuntGain c => decide (s.ctx[c].chan.st = .on) && s.ctx[c].chan.zeroed

/-- An operation ends with a result code (R170) and its event (R381). -/
def State.calEnd (s : State) (code : Nat) : State :=
  let s := { s with cal := { s.cal with running := none, code := code } }
  s.event 0xFF evCalDone s.calResultWord 0

/-- One word of a target: it joins the sum, or the capture ends as ABORTED (R159). -/
def State.calSample (s : State) (t : CalTarget) (code : Int) : State :=
  if s.cal.running = some t ∧ s.cal.count < t.words then
    if s.calCond t then { s with cal := { s.cal with sum := s.cal.sum + code, count := s.cal.count + 1 } }
    else s.calEnd 6
  else s

end Sys2Proof.Machine
end

