-- ==== Sys2Proof/Machine/Halves.lean ====
section
/-!
DEFINITION. Conditions of a half: its status word, the loss of eligibility, attributing errors and retirement
(10_summit_and_failover.md, R288 to R291, R319, R320).
-/
namespace Sys2Proof.Machine

def halfNum : HalfId → Nat
  | .east => 1
  | .west => 2

/-- One half's bits of DEV.HALF_STATUS (R320). -/
def HalfS.bits (x : HalfS) : Nat :=
  flag x.selftestFail 0 + flag x.attribErr 1 + flag x.writeMiss 2 + flag x.silent 3 + flag x.hbLost 4 + flag x.frozen 5
    + flag x.dieShut 6 + flag x.coreUv 7 + flag x.supRestarted 8 + flag x.disagreed 9 + flag x.resyncing 14 + flag x.retired 15
/-- DEV.HALF_STATUS (R320). -/
def State.halfStatusWord (s : State) : Word := word (s.sum.east.bits + 65536 * s.sum.west.bits)

/-- DEV.SUMMIT_STATUS (R319). -/
def State.summitWord (s : State) : Word :=
  s.sum.sticky

/-- A half loses a condition and with it its eligibility (R290); a resynchronization in progress ends. -/
def State.loseElig (s : State) (h : HalfId) (f : HalfS → HalfS) : State :=
  s.modHs h (fun x => { f x with eligible := false, resyncing := false, resyncTag := none, resyncCopied := false, resyncBad := false })

/-- A half is retired until the next BOOT (R291). -/
def State.retire (s : State) (h : HalfId) : State :=
  if (s.sum.half h).retired then s
  else
    let s := s.loseElig h (fun x => { x with retired := true })
    let s := s.event (srcHalf h).val evHalfRetired (word (halfNum h)) s.halfStatusWord
    s.summary (srcHalf h) evHalfRetired 0xFF none s.halfStatusWord

/-- An attributing error of a half is learned of (R288, R291). -/
def State.attribError (s : State) (h : HalfId) (f : HalfS → HalfS) : State :=
  let now := s.clk.time
  let t := s.enables
  let s := s.loseElig h (fun x =>
    let x := f x
    { x with errTimes := (now :: x.errTimes).filter (fun u => now < u + sTicks), errTags := (t :: x.errTags).filter (fun u => t < u + 8) })
  if 16 ≤ (s.sum.half h).errTimes.length then s.retire h else s

/-- A cell residue error, or a double-bit broadcast error of one half: an attributing error, and class CELL_RESIDUE of
the context (R16, R62, R258). -/
def State.residueError (s : State) (h : HalfId) (c : CtxId) : State :=
  let s := s.attribError h (fun x => { x with attribErr := true })
  (s.declareFlag c 13).setLast c 13

/-- What a step of one context did to a cell's count of residue errors is signalled (R62). -/
def State.signalResidue (before s : State) (c : CtxId) : State :=
  let s := if before.east.cell[c].residueErrors < s.east.cell[c].residueErrors then s.residueError .east c else s
  if before.west.cell[c].residueErrors < s.west.cell[c].residueErrors then s.residueError .west c else s

/-- A broadcast word's errors (R16): corrections are counted; a double-bit error in one half is attributed to it; in
both halves it is counted and summarized. -/
def State.countCorr (s : State) (h : HalfId) (c : CtxId) : State :=
  let s := s.modHs h (fun x => { x with bcastCorr := capInc x.bcastCorr 0xFFFFFFFF })
  s.modCtx c (fun x => match h with
    | .east => { x with corrE := x.corrE + 1 }
    | .west => { x with corrW := x.corrW + 1 })
def State.bcast (s : State) (c : CtxId) (e : BcastErr) : State :=
  let s := if e.east = .single then s.countCorr .east c else s
  let s := if e.west = .single then s.countCorr .west c else s
  match e.east, e.west with
  | .double, .double =>
    let s := { s with sum := { s.sum with bcastDbl := capInc s.sum.bcastDbl 0xFFFFFFFF } }
    s.summaryFree srcHeath (word c.val)
  | .double, _ => s.residueError .east c
  | _, .double => s.residueError .west c
  | _, _ => s
/-- The receiving ports take a word unless it holds a double-bit error (R16). -/
def State.toPorts (s : State) (c : CtxId) (e : BcastErr) (f : Cell → Cell) : State :=
  let put (x : Half) (q : Ecc) : Half := if q = .double then x else x.modCell c f
  { s with east := put s.east e.east, west := put s.west e.west }
def eccOf (e : BcastErr) : HalfId → Ecc
  | .east => e.east
  | .west => e.west

/-- A freeze holds the cells of a half still at a tag: from the tag boundary after the request on (R308). -/
def HalfS.froze (x : HalfS) (t : Nat) : Bool :=
  x.frozen && (match x.freezeTag with
    | some u => decide (u < t)
    | none => true)
/-- The cells of a half stand still at a tag: by a freeze, to the end of the tag of its UNFREEZE, or without their core supply (R308,
R444, R477). -/
def HalfS.stopped (x : HalfS) (t : Nat) : Bool := x.froze t || decide (x.thawTag = some t) || x.coreUv
/-- Cells that stand still keep what they hold. -/
def State.keepStopped (before s : State) : State :=
  let t := before.enables
  let s := if before.sum.east.stopped t then { s with east := before.east } else s
  if before.sum.west.stopped t then { s with west := before.west } else s
/-- A freeze takes hold in a half: its cells stop at the next tag boundary, and those of a frozen half go on standing still (R308). -/
def HalfS.freeze (x : HalfS) (t : Nat) : HalfS :=
  { x with frozen := true, freezeTag := if x.frozen then x.freezeTag else some t, freezeWait := false }
/-- UNFREEZE: cells that stand still resume at the next tag boundary (R477). -/
def HalfS.thaw (x : HalfS) (t : Nat) : HalfS :=
  { x with frozen := false, freezeTag := none, thawTag := if x.froze t then some t else x.thawTag, freezeWait := false }

/-- A capture word of a context's cell in the serving half (R70). -/
def State.capWord (s : State) (c : CtxId) (a : Nat) : CapWord := Memory.read {} (s.cell c).capture a
/-- A capture word as read (R70): the holder's, else the shadow's, else 0 and counted. -/
def State.capRead (s : State) (c : CtxId) (a : Nat) : State × Word :=
  let own := s.capWord c a
  if own.ecc ≠ .double then (s, own.w)
  else
    let other : CapWord := Memory.read {} ((s.half s.serving.other).cell[c]).capture a
    if other.ecc ≠ .double then (s, other.w)
    else (s.modCtx c (fun x => match s.serving with
      | .east => { x with corrE := x.corrE + 1 }
      | .west => { x with corrW := x.corrW + 1 }), 0)
/-- A list of capture words. -/
def State.capReads (s : State) (c : CtxId) : List Nat → State × List Word
  | [] => (s, [])
  | a :: rest => let x := s.capRead c a; let y := x.1.capReads c rest; (y.1, x.2 :: y.2)

end Sys2Proof.Machine
end

