-- ==== Sys2Proof/Machine/Store.lean ====
section
/-!
DEFINITION. The record store (11_ledger_and_record_store.md, R322 to R336): records, slots, log areas, reclaim, the
tally ring and the Cairn ring, and host-initiated writes.
-/
namespace Sys2Proof.Machine

/-- A log area (R322). -/
inductive Area where
  | q1
  | q2
  | q3
deriving DecidableEq, Repr

def Area.base : Area → Nat
  | .q1 => 0x8000
  | .q2 => 0x10000
  | .q3 => 0x18000
/-- Its blocks of 64 positions, and the number of its first block in the store. -/
def Area.blocks : Area → Nat
  | .q1 => 4
  | _ => 8
def Area.firstBlock (a : Area) : Nat := a.base / 4096
def Area.positions (a : Area) : Nat := 64 * a.blocks
def Area.quarter : Area → Nat
  | .q1 => 1
  | .q2 => 2
  | .q3 => 3
def Area.ofFin : Fin 3 → Area
  | 0 => .q1
  | 1 => .q2
  | _ => .q3
def Area.addr (a : Area) (pos : Nat) : Nat := a.base + 64 * pos

/-- Record types of R325, by quarter. -/
def typeOk (quarter typ : Nat) : Bool :=
  match quarter with
  | 0 => decide (1 ≤ typ) && decide (typ ≤ 3)
  | 1 => decide (0x10 ≤ typ) && decide (typ ≤ 0x14)
  | 2 => decide (typ = 0x20)
  | _ => decide (0x30 ≤ typ) && decide (typ ≤ 0x34)

/-- A record (R324): its payload is the 52 bytes, of which `len` are in use. -/
structure Rec where
  typ : Nat
  len : Nat
  slotB : Bool
  ident : Nat
  seq : Nat
  payload : List Byte
deriving DecidableEq, Repr

/-- The 64 bytes of a record (R324). -/
def Rec.bytes (r : Rec) : List Byte :=
  let b := leBytes 1 r.typ ++ leBytes 1 r.len ++ leBytes 2 (r.ident + flag r.slotB 15 : Nat) ++ leBytes 4 r.seq ++ padTo 52 r.payload
  b ++ leBytes 4 (crc32 b).toNat

/-- A byte of the store; an erased byte reads 0xFF (R323). -/
def Store.byte (x : Store) (a : Nat) : Byte := Memory.read (0xFF : Byte) x.mem a
def Store.bytes (x : Store) (a n : Nat) : List Byte := Memory.readList (0xFF : Byte) x.mem a n
/-- Program bytes. -/
def Store.program (x : Store) (a : Nat) (bs : List Byte) : Store := { x with mem := Memory.writeList (0xFF : Byte) x.mem a bs }
/-- A range of the store that holds nothing programmed. -/
def Store.erasedRange (x : Store) (a n : Nat) : Bool := x.mem.all (fun e => decide (e.1 < a) || decide (a + n ≤ e.1))

/-- The valid record at an address, if any (R325). -/
def Store.record (x : Store) (quarter a : Nat) : Option Rec :=
  if x.byte a = 0xFF then none
  else
    let b := x.bytes a 64
    let r : Rec := { typ := leAt b 0 1, len := leAt b 1 1, slotB := decide (32768 ≤ leAt b 2 2), ident := leAt b 2 2 % 32768, seq := leAt b 4 4,
                     payload := (b.drop 8).take 52 }
    if typeOk quarter r.typ ∧ r.len ≤ 52 ∧ leAt b 60 4 = (crc32 (b.take 60)).toNat then some r else none

/-- The valid records of a log area with their positions. -/
def Store.records (x : Store) (a : Area) : List (Nat × Rec) :=
  (List.range a.positions).filterMap (fun k => (x.record a.quarter (a.addr k)).map (fun r => (k, r)))

/-- Of two valid records of one identity, the one in force: the newer, slot A on a tie (R326 to R328). -/
def newerRec (x y : Nat × Rec) : Nat × Rec :=
  if serialNewer 32 y.2.seq x.2.seq then y
  else if serialNewer 32 x.2.seq y.2.seq then x
  else if x.2.slotB && !y.2.slotB then y else x
/-- The copy in force of an identity (R327). -/
def inForceIn (l : List (Nat × Rec)) (typ ident : Nat) : Option (Nat × Rec) :=
  match l.filter (fun r => r.2.typ = typ ∧ r.2.ident = ident) with
  | [] => none
  | r :: rs => some (rs.foldl newerRec r)
def Store.inForce (x : Store) (a : Area) (typ ident : Nat) : Option Rec := (inForceIn (x.records a) typ ident).map (·.2)
def Store.ptr (x : Store) : Area → Nat
  | .q1 => x.ptrQ1
  | .q2 => x.ptrQ2
  | .q3 => x.ptrQ3
def Store.setPtr (x : Store) (a : Area) (n : Nat) : Store :=
  match a with
  | .q1 => { x with ptrQ1 := n }
  | .q2 => { x with ptrQ2 := n }
  | .q3 => { x with ptrQ3 := n }

/-- A block is retired, and retires now (R336). -/
def Store.isRetired (x : Store) (b : Nat) : Bool := x.retiredBlocks.getLsbD b
def Store.retire (x : Store) (b : Nat) : Store := { x with retiredBlocks := x.retiredBlocks ||| (1#32 <<< b), blockRetired := true }
/-- A block fails a program at an address, after its retry (R336). -/
def Store.fails (x : Store) (a : Nat) : Bool :=
  if h : a / 4096 < 32 then Config.programFails (a / 4096) x.eraseCount[a / 4096] a else false

/-- Erase a block of the store, 0 to 31; it wears, and one that fails its erase is retired (R323, R330, R336; log entry 71). -/
def Store.eraseBlock (x : Store) (b : Nat) : Store :=
  if h : b < 32 then
    let n := x.eraseCount[b] + 1
    let y := { x with mem := Memory.clear x.mem (4096 * b) 4096, eraseCount := upd x.eraseCount ⟨b, h⟩ (· + 1),
                      worn := x.worn || decide (100000 < n) }
    if Config.eraseFails b n && !x.isRetired b then y.retire b else y
  else x

/-- A position of a ring or log area, past the blocks that are retired: `first` is the number of its first block, `per` its positions
in a block, `n` its blocks. -/
def Store.skip (x : Store) (first per n : Nat) : Nat → Nat → Nat
  | 0, p => p
  | k + 1, p => if x.isRetired (first + p / per % n) then x.skip first per n k ((p / per + 1) % n * per) else p

/-- Where the write pointer of a log area stands. -/
def Store.at (x : Store) (a : Area) : Nat := x.skip a.firstBlock 64 a.blocks a.blocks (x.ptr a % a.positions)
/-- The block after the one that the write pointer stands in, within its area. -/
def Store.nextBlock (x : Store) (a : Area) : Nat := x.skip a.firstBlock 64 a.blocks a.blocks ((x.at a / 64 + 1) % a.blocks * 64) / 64
def Store.nextErased (x : Store) (a : Area) : Bool := x.erasedRange (a.addr (64 * x.nextBlock a)) 4096

/-- The records of a block that a reclaim moves (R329): the copies in force, and those that `keep` marks (R439). -/
def Store.inBlock (x : Store) (a : Area) (b : Nat) (keep : Rec → Bool) : List (Nat × Rec) :=
  let l := x.records a
  l.filter (fun e => decide (e.1 / 64 = b) && (keep e.2 || decide (inForceIn l e.2.typ e.2.ident = some e)))

/-- The write pointer stands at the start of a block that is not erased: its reclaim still waits (R323, R329). -/
def Store.unready (x : Store) (a : Area) : Bool := decide (x.at a % 64 = 0) && !x.erasedRange (a.addr (x.at a)) 4096
/-- Program a record at the write pointer, which advances (R329). A block that fails it is retired: its copies in force move as in a
reclaim, and the record follows them (R336). Where they come to a block that is not erased, that block is reclaimed first, as no cell is
programmed twice between erases (R323). The fuel is the number of blocks. -/
def Store.append (a : Area) (keep : Rec → Bool) : Nat → Store → Rec → Store
  | 0, x, r => (x.program (a.addr (x.at a)) r.bytes).setPtr a ((x.at a + 1) % a.positions)
  | n + 1, x, r =>
    let p := x.at a
    if x.unready a then
      let moved := x.inBlock a (p / 64) keep
      Store.append a keep n (moved.foldl (fun y e => Store.append a keep n y e.2) (x.eraseBlock (a.firstBlock + p / 64))) r
    else if x.fails (a.addr p) then
      let moved := x.inBlock a (p / 64) keep
      let y := x.retire (a.firstBlock + p / 64)
      Store.append a keep n (moved.foldl (fun y e => Store.append a keep n y e.2) y) r
    else (x.program (a.addr p) r.bytes).setPtr a ((p + 1) % a.positions)

/-- Blocks of a log area after the one that the write pointer stands in, in the pointer's order. -/
def Store.ahead (x : Store) (a : Area) : List Nat :=
  ((List.range (a.blocks - 1)).map (fun k => (x.at a / 64 + 1 + k) % a.blocks)).filter (fun b => !x.isRetired (a.firstBlock + b))
/-- A block of a log area is erased. -/
def Store.blockErased (x : Store) (a : Area) (b : Nat) : Bool := x.erasedRange (a.addr (64 * b)) 4096
/-- Free positions before the first block ahead of the write pointer that is not erased. -/
def Store.freeAhead (x : Store) (a : Area) : Nat :=
  64 - x.at a % 64 + 64 * ((x.ahead a).takeWhile (x.blockErased a)).length
/-- Block b is reclaimed (R329): its copies in force move to the write pointer, and it is erased. What does not fit in the free positions
before it follows into it, once it is erased. -/
def Store.reclaimBlock (x : Store) (a : Area) (keep : Rec → Bool) (b : Nat) : Store :=
  let moved := x.inBlock a b keep
  let room := x.freeAhead a
  let y := (moved.take room).foldl (fun y e => Store.append a keep a.blocks y e.2) x
  (moved.drop room).foldl (fun y e => Store.append a keep a.blocks y e.2) (y.eraseBlock (a.firstBlock + b))
/-- A reclaim of the oldest block (R329), unless it is erased. -/
def Store.reclaim (x : Store) (a : Area) (keep : Rec → Bool) : Store :=
  if x.nextErased a || decide (x.nextBlock a = x.at a / 64) then x else x.reclaimBlock a keep (x.nextBlock a)
/-- The engine erases ahead until n positions are free (R437): each time the oldest block, that after the erased ones, is reclaimed. The
fuel is the number of blocks. -/
def Store.eraseAhead (a : Area) (keep : Rec → Bool) (n : Nat) : Nat → Store → Store
  | 0, x => x
  | f + 1, x =>
    if n ≤ x.freeAhead a then x
    else match (x.ahead a).find? (fun b => !x.blockErased a b) with
      | none => x
      | some b => Store.eraseAhead a keep n f (x.reclaimBlock a keep b)

/-- Positions that a write leaves free ahead of a reclaim: two for a host-initiated write (R331), and in Q1 the eleven records of a last
gasp (R353) with one more. -/
def Area.reserve : Area → Nat
  | .q1 => 12
  | _ => 2
/-- The oldest block must be reclaimed before a record is programmed, so that its copies in force keep their room (R329). -/
def Store.crowded (x : Store) (a : Area) (keep : Rec → Bool) : Bool :=
  !x.nextErased a && decide (64 - x.at a % 64 < (x.inBlock a (x.nextBlock a) keep).length + a.reserve + 1)
/-- Reclaims until there is room; the fuel is the number of blocks. -/
def Store.makeRoom (a : Area) (keep : Rec → Bool) : Nat → Store → Store
  | 0, x => x
  | n + 1, x => if x.crowded a keep then Store.makeRoom a keep n (x.reclaim a keep) else x

/-- Identities in force of an area, and how many it can hold (R330, R336). -/
def Store.identities (x : Store) (a : Area) : Nat :=
  let l := x.records a
  (l.filter (fun e => decide (inForceIn l e.2.typ e.2.ident = some e))).length
def Store.capacity (x : Store) (a : Area) : Nat :=
  64 * ((List.range a.blocks).filter (fun k => !x.retiredBlocks.getLsbD (a.firstBlock + k))).length - 128

/-- A log area can no longer hold its identities (R336, R359). -/
def Store.isFull (x : Store) : Bool := [Area.q1, Area.q2, Area.q3].any (fun a => decide (x.capacity a < x.identities a))

/-- DEV.NVM_STATUS (R359), DEV.NVM_WEAR (R358). -/
def bitCount (x : BitVec 32) : Nat := ((List.range 32).filter (fun k => x.getLsbD k)).length
def State.nvmStatusWord (s : State) : Word :=
  let x := s.nv
  x.sticky ||| word (flag (decide (x.work ≠ .idle) || x.erasing) 5 + flag x.isFull 6 + flag x.worn 7 + flag x.erasing 8
    + 16777216 * bitCount x.retiredBlocks)
def State.nvmWearWord (s : State) (q : Fin 4) : Word :=
  word ((List.range 8).foldl (fun m k => if h : 8 * q.val + k < 32 then max m s.nv.eraseCount[8 * q.val + k] else m) 0)

/-- The records a waiting fresh save protects (R439). -/
def State.keepRec (s : State) (r : Rec) : Bool :=
  s.dev.freshSave && decide (r.typ = 0x20) && decide (leAt r.payload 0 2 = s.dev.generation % 65536)
/-- What a change of the store reports (R336, R381): each block that it retired, and the first block past its rated erases. -/
def State.storeTo (s : State) (x : Store) : State :=
  let old := s.nv
  let s : State := { s with nv := x }
  let new := (List.range 32).filter (fun b => x.isRetired b && !old.isRetired b)
  let s := new.foldl (fun s b => (s.event srcStore.val evStore s.nvmStatusWord 0).summary srcStore evStore 0xFF none (word b)) s
  if x.worn && !old.worn then s.event srcStore.val evStore s.nvmStatusWord 0 else s
def State.reclaim (s : State) (a : Area) : State := s.storeTo (s.nv.reclaim a s.keepRec)
def State.makeRoom (s : State) (a : Area) : State := s.storeTo (Store.makeRoom a s.keepRec a.blocks s.nv)
/-- Step 3 of a save of n records (R437): n positions are free before the block that the area keeps erased ahead (R329), so that no
reclaim falls inside the save. -/
def State.eraseAhead (s : State) (a : Area) (n : Nat) : State := s.storeTo (Store.eraseAhead a s.keepRec (n + 65) a.blocks s.nv)

/-- The record that a write of an identity programs (R327). -/
def Store.nextRec (x : Store) (a : Area) (typ ident len : Nat) (payload : List Byte) : Rec :=
  match x.inForce a typ ident with
  | none => { typ := typ, len := len, slotB := false, ident := ident, seq := 1, payload := padTo 52 payload }
  | some o => { typ := typ, len := len, slotB := !o.slotB, ident := ident, seq := (o.seq + 1) % 4294967296, payload := padTo 52 payload }
/-- Write an identity (R327), with room kept for the copies in force of the oldest block (R329). -/
def State.putRecord (s : State) (a : Area) (typ ident len : Nat) (payload : List Byte) : State :=
  let s := s.makeRoom a
  s.storeTo (Store.append a s.keepRec a.blocks s.nv (s.nv.nextRec a typ ident len payload))
/-- A record of a host-initiated write is cut off after some of its cells (R323, R333): it fails its check. -/
def Store.cutOff (x : Store) (a : Area) (r : Rec) (cells : Nat) : Store :=
  (x.program (a.addr (x.at a)) (r.bytes.take (8 * cells))).setPtr a ((x.at a + 1) % a.positions)

/-- NVM_BP protects a quarter against host-initiated writes (R334). -/
def State.protects (s : State) (quarter : Nat) : Bool :=
  match (s.gp .nvmBp).toNat with
  | 0 => false
  | 1 => decide (quarter = 3)
  | 2 => decide (2 ≤ quarter)
  | _ => true

/-- Refusals of a host-initiated write of n new identities to an area: 0, or an answer code (R281, R334, R336). -/
def State.hostRefusal (s : State) (a : Area) (n : Nat) : Nat :=
  if s.protects a.quarter then 8
  else if !s.inWindow then 9
  else if s.nv.capacity a < s.nv.identities a + n then 0xA
  else 0

/-- The device's own NVM_BP record (R334). -/
def State.putBp (s : State) : State := s.putRecord .q3 0x34 0 1 (leBytes 1 (s.gp .nvmBp))

/-- A position of the tally ring (R322, R342). -/
def tallyAddr (k : Nat) : Nat := 0xC000 + 16 * (k % 1024)
/-- The 16 bytes of a tally entry (R342). -/
def tallyBytes (account : Nat) (classB : Bool) (tseq : Nat) (delta : Int) : List Byte :=
  let b := leBytes 1 (account + flag classB 7 : Nat) ++ leBytes 2 tseq ++ leBytes 5 delta
  b ++ leBytes 4 (crc32 b).toNat ++ leBytes 4 0
/-- What the 16 bytes of a tally position are (R342). -/
inductive TallyKind where
  | erased
  | void
  | committed (account : Fin 128) (classB : Bool) (tseq : Nat) (delta : Int)
  | torn
deriving DecidableEq, Repr
def tallyKind (b : List Byte) : TallyKind :=
  if b.all (· == 0xFF) then .erased
  else if b.all (· == 0) then .void
  else if leAt b 8 4 = (crc32 (b.take 8)).toNat ∧ leAt b 12 4 = 0 then
    .committed ⟨leAt b 0 1 % 128, by omega⟩ (decide (128 ≤ leAt b 0 1)) (leAt b 1 2) (signedOf 40 (leAt b 3 5))
  else .torn
def Store.tally (x : Store) (k : Nat) : TallyKind :=
  if x.byte (tallyAddr k) = 0xFF ∧ x.byte (tallyAddr k + 8) = 0xFF ∧ x.erasedRange (tallyAddr k) 16 = true then .erased
  else tallyKind (x.bytes (tallyAddr k) 16)
/-- Where the tally ring's pointer stands (R336, R342). -/
def Store.tallyAt (x : Store) : Nat := x.skip 12 256 4 4 (x.ptrTally % 1024)
/-- Program a tally entry in the ring. -/
def Store.putTally (x : Store) (account : Nat) (classB : Bool) (tseq : Nat) (delta : Int) : Store :=
  { x.program (tallyAddr x.tallyAt) (tallyBytes account classB tseq delta) with ptrTally := (x.tallyAt + 1) % 1024 }
/-- The tally ring is full: the position at the pointer is written (R343), or lies in a retired block. -/
def Store.tallyFull (x : Store) : Bool := !x.erasedRange (tallyAddr x.tallyAt) 16 || x.isRetired (12 + x.tallyAt / 256)
/-- Positions of the tally ring written since they were erased (R343). -/
def Store.tallyWritten (x : Store) : Nat := ((List.range 1024).filter (fun k => !x.erasedRange (tallyAddr k) 16)).length

/-- The four codes of a Cairn record's words, least significant byte first. -/
def wordsBytes (ws : List Word) : List Byte := ws.flatMap (fun w => leBytes 4 w.toNat)

/-- The payload of a Cairn summary (R349). -/
def CairnReq.payload (r : CairnReq) (suppressed : Nat) : List Byte :=
  leBytes 2 r.source.val ++ leBytes 1 r.code ++ leBytes 1 r.fclass ++ leBytes 6 r.ftime ++ leBytes 4 r.tag ++ leBytes 1 r.devState
    ++ leBytes 1 (flag r.valid 0 : Nat) ++ leBytes 4 suppressed ++ wordsBytes r.words

/-- The newest 16 entries of one signal of a context's pre-fault ring, oldest first, as capture words are read (R68, R70, R349). -/
def State.ringWords (s : State) (c : CtxId) (k : Nat) : State × List Word :=
  let p := s.ctx[c].prot.ringPos
  s.capReads c ((List.range 16).map (fun j => 0x700 + 4 * ((p + 48 + j) % 64) + k))
/-- The payload of a snapshot (R349). -/
def State.snapshotPayload (s : State) (c : CtxId) (k : Nat) : State × List Byte :=
  let ws := s.ringWords c k
  (ws.1, leBytes 2 c.val ++ leBytes 1 k ++ leBytes 1 ((ws.2.headD 0).toNat / 16777216 : Nat)
    ++ ws.2.flatMap (fun w => leBytes 3 (w.toNat % 16777216 : Nat)))

/-- Where the Cairn ring's pointer stands (R336, R347). -/
def Store.cairnAt (x : Store) : Nat := x.skip 0 64 8 8 (x.ptrCairn % 512)
/-- The block after the one being written is kept erased (R347), also after a last gasp, which erases none, or a retirement. -/
def Store.cairnAhead (x : Store) : Store :=
  let nb := x.skip 0 64 8 8 ((x.cairnAt / 64 + 1) % 8 * 64) / 64
  if x.erasedRange (4096 * nb) 4096 then x else x.eraseBlock nb
/-- A block that the ring's pointer enters is erased before its first cell is programmed (R323, R347). -/
def Store.cairnReady (x : Store) : Store :=
  if x.cairnAt % 64 = 0 ∧ x.erasedRange (64 * x.cairnAt) 4096 = false then x.eraseBlock (x.cairnAt / 64) else x
/-- Program one Cairn record in the ring (R347); the block after the one that is written next is kept erased. -/
def Store.putCairn (x : Store) (r : Rec) : Store :=
  let x := x.cairnReady
  ({ x.program (64 * x.cairnAt) r.bytes with ptrCairn := (x.cairnAt + 1) % 512 } : Store).cairnAhead
/-- A Cairn record takes the next sequence (R347). -/
def State.cairnRec (s : State) (typ ident len : Nat) (payload : List Byte) : Rec :=
  { typ := typ, len := len, slotB := false, ident := ident, seq := (s.cairn.newest + 1) % 4294967296, payload := padTo 52 payload }
def State.cairnPut (s : State) (typ ident len : Nat) (payload : List Byte) : State :=
  let r := s.cairnRec typ ident len payload
  let s := s.storeTo (s.nv.putCairn r)
  { s with cairn := { s.cairn with newest := r.seq } }

/-- The valid records of the Cairn ring. -/
def Store.cairnRecords (x : Store) : List Rec := (List.range 512).filterMap (fun k => x.record 0 (64 * k))

/-- A consolidation is due (R343): 768 positions of the tally ring are written. Nothing runs before the ledger is recovered. -/
def State.consolidationDue (s : State) : Bool :=
  decide (s.dev.bootStep = 6) && decide (768 ≤ s.nv.mem.length) && decide (768 ≤ s.nv.tallyWritten)
/-- DEV.LEDGER_STATUS (R360) and DEV.HOLD_STATUS (R352, R361). -/
def State.openItems (s : State) : Nat := ((List.finRange 32).filter (fun k => (s.led.items[k]).isSome)).length
def State.ledgerDeferred (s : State) : Bool :=
  (s.routineDeferred || s.nv.held) && (s.nv.routine.contains .entries || s.consolidationDue)
def State.ledgerStatusWord (s : State) : Word := s.led.sticky ||| word (flag s.ledgerDeferred 0 + 16777216 * s.openItems)
/-- HOLD_OK (R352): VHOLD is at least 10.0 V, and the last measured capacitance at least 47 µF. -/
def CairnS.holdOk (x : CairnS) : Bool := decide (1000 ≤ x.vhold) && decide (47 ≤ x.cap)
def State.holdWord (s : State) : Word := word (flag s.cairn.holdOk 0 + 16 * min s.cairn.cap 4095 + 65536 * s.cairn.vhold)

end Sys2Proof.Machine
end

