-- ==== Sys2Proof/Machine/Params.lean ====
section
/-!
DEFINITION. How a parameter write is judged when it is accepted (14_parameter_space.md, R432; the limits of every
chapter). A judgement answers 0 or an answer code of R373, from the newest accepted values.
-/
namespace Sys2Proof.Machine

/-- Answer codes of R373. -/
def ansAccess : Nat := 1
def ansRange : Nat := 2
def ansState : Nat := 3
def ansNoIndex : Nat := 4
def ansTracking : Nat := 5
def ansPinBusy : Nat := 6
def ansBusy : Nat := 7
def ansProtected : Nat := 8
def ansTemp : Nat := 9
def ansFull : Nat := 0xA
def ansNotExported : Nat := 0xB
def ansNoItem : Nat := 0xC
def ansBadItem : Nat := 0xD
def ansAuth : Nat := 0xE
def ansBadCommand : Nat := 0xF
def ansInterrupted : Nat := 0x10
def ansSchedule : Nat := 0x11

/-- The first refusal of a list of tests. -/
def firstRefusal : List (Bool × Nat) → Nat
  | [] => 0
  | (b, k) :: l => if b then k else firstRefusal l

/-- A response code allowed for a class (R258, R261). -/
def respOk (input : Bool) (cls code : Nat) : Bool :=
  match cls with
  | 0 => if input then [1, 3].contains code else [1, 3, 4, 5].contains code
  | 1 => if input then [0, 1, 3].contains code else [0, 1, 3, 4, 5].contains code
  | 2 => [1, 2, 3, 4].contains code
  | 4 => [3, 4].contains code
  | 8 | 9 => [1, 3, 4].contains code
  | 11 => [0, 1, 3].contains code
  | _ => [1, 3].contains code
/-- Fields of FAULT_RESP0 and FAULT_RESP1: class and lowest bit (R284). -/
def respFields (second : Bool) : List (Nat × Nat) :=
  if second then [(8, 0), (9, 4), (10, 8), (11, 12), (12, 16)] else [(0, 0), (1, 4), (2, 8), (4, 12), (5, 16), (7, 20)]
/-- The value that a write gives a FAULT_RESP word: at context 0 the fields of classes 2 and 4 keep their reset values
(R284). -/
def respValue (input second : Bool) (v : Int) : Int :=
  if input && !second then ((v.toNat &&& 0x00FF00FF : Nat) : Int) + 0x3200 else v
def respAllowed (input second : Bool) (v : Int) : Bool :=
  (respFields second).all (fun f => (input && (f.1 = 2 || f.1 = 4)) || respOk input f.1 (bitsOf v f.2 4))

/-- VOUT_MAX ÷ VDIV exceeds 1.5 V (R146, R147). -/
def overPin (vmax vdiv : Int) : Bool := decide (98304 * vdiv < vmax * 65536)

/-- A context follows c: TRACK set with c as its leader (R211). -/
def State.isLeader (s : State) (c : CtxId) : Bool :=
  ctxIds.any (fun d => bitOf (s.ctx[d].newest .mode) modeTrack && decide ((s.ctx[d].newest .trackLeader).toNat = c.val))

/-- A MODE write (R199, R211). -/
def State.judgeMode (s : State) (c : CtxId) (v : Int) : Nat :=
  let l := (s.ctx[c].newest .trackLeader).toNat % 64
  if !bitOf v modeTrack then 0
  else if l = 0 ∨ l = c.val then ansRange
  else if bitOf (s.ctx[(⟨l, by omega⟩ : CtxId)].newest .mode) modeTrack || s.isLeader c then ansRange else 0

/-- The rules that tie a context entry to the state and to other entries, beside its own limits (R432). -/
def State.judgeCtx (s : State) (c : CtxId) (p : CP) (v : Int) : Nat :=
  let x := s.ctx[c]
  let n := x.newest
  match p with
  | .mode => s.judgeMode c v
  | .mRatio => if x.regulating then ansState else 0
  | .vset => if x.inE modeTrack then ansTracking else 0
  | .voutMin => if n .voutMax < v then ansRange else 0
  | .voutMax => firstRefusal [(decide (v < n .voutMin), ansRange), (decide (c.val ≠ 0) && decide (3538944 < v), ansRange),
      (overPin v (n .vdiv), ansRange)]
  | .iMin => if n .iMax < v then ansRange else 0
  | .iMax => if v < n .iMin then ansRange else 0
  | .add k => if 9 * v < 10 * n (.shed k) then ansRange else 0
  | .shed k => if 9 * n (.add k) < 10 * v then ansRange else 0
  | .vdiv => firstRefusal [(x.regulating, ansState), (overPin (n .voutMax) v, ansRange)]
  | .trackLeader => if bitOf (n .mode) modeTrack then ansState else 0
  | .probeCfg =>
    let form := bitOf v 31
    let live := match x.probe.st with
      | .settling | .integrating | .paused => true
      | _ => false
    firstRefusal [(form && decide (bitsOf v 27 4 < 7), ansRange), (decide (bitsOf v 16 8 = 0), ansRange),
      (form && decide (bitsOf v 8 8 = 0), ansRange), (live, ansState)]
  | .probeRptr => if v % 2 = 1 then ansRange else 0
  | .tripCfg =>
    let cls := bitsOf v 16 2
    let ph := bitsOf v 8 7
    firstRefusal [(decide (cls = 3), ansRange), (decide (95 < ph) && decide (ph ≠ 127), ansRange),
      (decide (cls = 2) && decide (ph = 127), ansRange)]
  | .faultResp0 => if respAllowed (c.val = 0) false v then 0 else ansRange
  | .faultResp1 => if respAllowed (c.val = 0) true v then 0 else ansRange
  | .retryCfg => if bitsOf v 16 4 = 0 ∨ bitsOf v 0 16 = 0 then ansRange else 0
  | .tarnCfg => if bitsOf v 16 8 = 0 ∨ bitsOf v 8 8 = 0 then ansRange else 0
  | .tarnVmin => if n .tarnVmax < v then ansRange else 0
  | .tarnVmax => if v < n .tarnVmin then ansRange else 0
  | _ => 0

/-- Own limits of an entry (the tables of each chapter). -/
def Row.within (r : Row) (v : Int) : Bool := decide (r.lo ≤ v) && decide (v ≤ r.hi)

/-- A write of a context entry. -/
def State.refuseCtx (s : State) (c : CtxId) (p : CP) (v : Int) : Nat :=
  if c.val = 0 ∧ p = .mode then (if v = 0 then 0 else ansState)
  else if c.val = 0 ∧ p.row.ctx0 = false then ansState
  else if !p.row.within v then ansRange else s.judgeCtx c p v

/-- A write of a coefficient: every C32 word is accepted, but context 0 has none (R428). -/
def State.refuseCoef (c : CtxId) : Nat := if c.val = 0 then ansState else 0

/-- Joined in the newest accepted masks (R112). -/
def State.joinedNew (s : State) (p : PhaseId) : Bool :=
  let k := p.val / 2
  if k < 32 then bitOf (s.gNew (.pairMask 0)) k else bitOf (s.gNew (.pairMask 1)) (k - 32)
/-- A write of a phase entry (R112, R114, R121, R273, R280). -/
def State.refusePh (s : State) (p : PhaseId) (e : PP) (v : Int) : Nat :=
  if e = .owner ∧ p.val % 2 = 1 ∧ s.joinedNew p = true then ansState
  else if !e.row.within v then ansRange else 0

/-- A pair whose bit a write of PAIR_MASKk changes has an owned Spur (R113). -/
def State.pairOwned (s : State) (k : Fin 2) (v : Int) : Bool :=
  phaseIds.any (fun p => decide (p.val / 64 = k.val) && (bitOf v (p.val / 2 % 32) != bitOf (s.gNew (.pairMask k)) (p.val / 2 % 32))
    && decide (s.ph[p].newest .owner ≠ 0))

/-- The 24 bytes of the compatibility map, with one word replaced (R479). -/
def State.mapBytes (s : State) (k : Fin 6) (v : Int) : List Nat :=
  (List.finRange 6).flatMap (fun i =>
    let w := if i = k then v else s.gNew (.compatMap i)
    [bitsOf w 0 8, bitsOf w 8 8, bitsOf w 16 8, bitsOf w 24 8])
/-- No entry occurs twice in a list. -/
def noRepeat : List Nat → Bool
  | [] => true
  | x :: l => !l.contains x && noRepeat l
def State.mapOk (s : State) (k : Fin 6) (v : Int) : Bool :=
  let b := (s.mapBytes k v).filter (fun x => x ≠ 255)
  b.all (fun x => x < 96) && noRepeat b

/-- A write of a thermal threshold: range and the order within its set (R276). -/
def State.thermOk (s : State) (k : Fin 9) (v : Int) : Bool :=
  let g := 3 * (k.val / 3)
  let at_ (j : Nat) : Int := if g + j = k.val then thermT v else if h : g + j < 9 then thermT (s.gNew (.therm ⟨g + j, h⟩)) else 0
  decide (-5120 ≤ thermT v) && decide (thermT v ≤ 19200) && decide (128 ≤ bitsOf v 16 16) && decide (bitsOf v 16 16 ≤ 2048)
    && decide (at_ 0 < at_ 1) && decide (at_ 1 < at_ 2)

/-- A write of MF_SELi (R222). -/
def State.judgeMf (s : State) (k : Fin 16) (v : Int) : Nat :=
  let f := bitsOf v 0 8
  let arg := bitsOf v 8 8
  let old := s.gNew (.mfSel k)
  if 6 < f ∨ (if 1 ≤ f ∧ f ≤ 4 then 63 < arg else arg ≠ 0) then ansRange
  else if f ≠ 0 ∧ bitsOf old 0 8 ≠ 0 ∧ v ≠ old then ansPinBusy else 0

/-- P_s in microseconds of a time source (R173). -/
def pulseUs (src : Nat) : Nat := if src = 1 then 1000000 else 1000
/-- The load that FT_LOAD_HI and FT_LOAD_LO name, in microseconds (R174). -/
def State.ftLoad (s : State) : Nat := bitsOf (s.gNew .ftLoadHi) 0 16 * 4294967296 + (s.gNew .ftLoadLo).toNat % 4294967296

/-- A write of a global entry. -/
def State.refuseGlob (s : State) (g : GP) (v : Int) : Nat :=
  if !g.row.within v then ansRange
  else match g with
    | .compat => if s.dev.st = .standby then 0 else ansState
    | .compatMap k => if s.dev.st = .standby then (if s.mapOk k v then 0 else ansRange) else ansState
    | .pairMask k => if s.pairOwned k v then ansState else 0
    | .imonType _ => if (List.range 8).any (fun j => bitOf v (4 * j + 3)) then ansRange else 0
    | .mfSel k => s.judgeMf k v
    | .therm k => if s.thermOk k v then 0 else ansRange
    | .ledgerCfg => if v < 10 ∨ 3600 < v then ansRange else 0
    | .tarnMap k =>
      let o := s.gNew (.tarnMap ⟨(k.val + 2) % 4, by omega⟩)
      if v.toNat &&& o.toNat = 0 then 0 else ansRange
    | _ => 0

/-- A write of FT_CFG (R174, R177). -/
def State.refuseFtCfg (s : State) (w : Word) : Nat :=
  let src := w.toNat % 4
  if src = 3 then ansRange
  else if w.getLsbD 3 && decide (src ≠ 0) && decide (s.ftLoad % pulseUs src ≠ 0) then ansRange else 0

/-- A calibration command waits for its commit tag, a capture runs, or its record is being written (R159). -/
def State.calBusy (s : State) : Bool := s.cal.waiting.isSome || s.cal.running.isSome || s.cal.writing.isSome
/-- The operation and target a CAL_CMD word names, if it names one (R170). -/
def calTargetOf (w : Word) : Option CalTarget :=
  let t := w.toNat % 128
  match w.toNat / 268435456 with
  | 1 => if h : t < 64 then some (.railP1 ⟨t, h⟩) else none
  | 2 => if h : t < 64 then some (.railP2 ⟨t, h⟩) else none
  | 3 => if h : t < 96 then some (.phaseGain ⟨t, h⟩) else none
  | 4 => if h : t < 64 then some (.shuntGain ⟨t, h⟩) else none
  | _ => none

/-- The shadow: the half that does not hold the summit; none where no half holds it or the other is retired (R305). -/
def State.shadow (s : State) : Option HalfId :=
  match s.holder with
  | none => none
  | some h => if (s.sum.half h.other).retired then none else some h.other
/-- An FW_CTL operation waits for its commit tag. -/
def State.fwPending (s : State) : Bool := s.commits.any (fun k => match k.act with
  | .fwCtl _ _ => true
  | _ => false)

/-- The last VERIFY of the shadow's bank answered OK, and the bank has not been written since (R305). -/
def State.shadowVerified (s : State) : Bool :=
  match s.shadow with
  | some .east => s.sum.verifiedA
  | some .west => s.sum.verifiedB
  | none => false
/-- A write of FW_CTL (R305, R317). An absent shadow is reported by FW_STATUS at the commit tag (log entry 21). -/
def State.refuseFw (s : State) (w : Word) : Nat :=
  let op := w.toNat / 268435456
  if op < 1 ∨ 3 < op then ansRange
  else if s.sum.fwRunning || s.fwPending then ansState
  else if op = 3 ∧ s.shadow.isSome = true ∧ s.shadowVerified = false then ansState else 0

/-- A write of LEDGER_RESOLVE (R334, R346, R358). -/
def State.refuseResolve (s : State) (w : Word) : Nat :=
  let op := w.toNat / 268435456
  let it : Fin 32 := ⟨w.toNat % 32, by omega⟩
  if op < 1 ∨ 2 < op then ansRange
  else match s.led.items[it] with
    | none => ansNoItem
    | some b =>
      if leAt b 1 1 ≠ 1 then ansNoItem
      else if op = 1 ∧ leAt b 0 1 ≠ 1 then ansBadItem
      else s.hostRefusal .q1 0

/-- A write of SEL (R426). -/
def selOk (w : Word) : Bool :=
  let n := w.toNat
  decide (n / 16 % 8 ≤ 4) && decide (n / 256 % 8 ≤ 5) && decide (n / 65536 % 4 ≤ 2) && decide (n / 1048576 % 8 ≤ 5)

/-- A write of a context register that is not plain storage. -/
def State.refuseCReg (s : State) (c : CtxId) (r : CReg) (w : Word) : Nat :=
  if c.val = 0 ∧ r.ctx0 = false then ansState
  else match r with
    | .sel => if selOk w then 0 else ansRange
    | .lawCtl => if w.getLsbD 1 && s.ctx[c].swapPending then ansState else 0
    | .swCtl => if w.getLsbD 0 && !s.stateAllowsOn c then ansState else 0
    | _ => 0

/-- A write of a global register that is not plain storage. -/
def State.refuseGReg (s : State) (r : GReg) (w : Word) : Nat :=
  match r with
  | .ftCfg => s.refuseFtCfg w
  | .calCmd => if s.calBusy then ansBusy else if (calTargetOf w).isNone then ansRange else 0
  | .fwCtl => s.refuseFw w
  | .ledgerResolve => s.refuseResolve w
  | .ledgerMarkClr => if 63 < w.toNat then ansRange else s.hostRefusal .q1 (if (s.nv.inForce .q1 0x10 w.toNat).isNone then 1 else 0)
  | .cairnAck => if s.cairn.returned.contains w.toNat then 0 else ansNotExported
  | .cairnCtl =>
    if !w.getLsbD 0 then 0
    else if s.cairn.ackNew ≠ s.cairn.newest then ansNotExported
    else if s.protects 0 then ansProtected
    else if s.nv.erasing then ansState else 0
  | _ => 0

/-- The privileged view: a request carried by mailbox M1 (R423). M1 takes requests only within a session (R384), and one
already BUSY is completed after its session ends. -/
def privileged (i : Iface) : Bool := decide (i = .m1)

/-- The access class permits the write or the read (R6, R423). -/
def mayWrite (i : Iface) (k : Access) : Bool :=
  match k with
  | .u | .w1c => true
  | .ur | .p => privileged i
  | .ro => false
def mayRead (i : Iface) (k : Access) : Bool :=
  match k with
  | .p => privileged i
  | _ => true

/-- DEV.COMPAT or a word of the phase map (R478, R479). -/
def Slot.isCompat : Slot → Bool
  | .glob .compat | .glob (.compatMap _) => true
  | _ => false
/-- The judgement of a write of a word to whatever an index names (R6, R432). Through the compatibility view, a write of DEV.COMPAT or of
the map outside STANDBY is refused for the state (R481). -/
def State.refuse (s : State) (i : Iface) (x : Slot) (w : Word) : Nat :=
  if x.isCompat && s.dev.compatEn && decide (s.dev.st ≠ .standby) then ansState
  else if !mayWrite i x.cls then ansAccess
  else match x with
    | .ctx c p => s.refuseCtx c p (p.row.fmt.decode w)
    | .coef c _ => State.refuseCoef c
    | .creg c r => s.refuseCReg c r w
    | .ph p e => s.refusePh p e (e.row.fmt.decode w)
    | .preg _ _ => ansAccess
    | .glob g => s.refuseGlob g (g.row.fmt.decode w)
    | .greg r => s.refuseGReg r w

end Sys2Proof.Machine
end

