-- ==== Sys2Proof/Machine/Mailbox.lean ====
section
/-!
DEFINITION. Mailbox slots and credits, and who serves the interfaces (12_host_mailbox_and_pmbus.md, R364 to R374, R386;
14 R484).
-/
namespace Sys2Proof.Machine

/-- The half whose supervisor serves the interfaces (R484). -/
def State.servingHalf (s : State) : Option HalfId :=
  match s.holder with
  | some h => some h
  | none => if !s.sum.east.retired then some .east else if !s.sum.west.retired then some .west else none
/-- Its supervisor runs: not restarting, not halted, and past its self-test, that of requalification included (R294, R297, R368,
R386). -/
def State.supServing (s : State) : Bool :=
  match s.servingHalf with
  | none => false
  | some h => let x := s.sum.half h; x.supRunning && !x.supHalted && !s.sum.testing
/-- The device state in which the interfaces serve requests (R41). -/
def DevState.serves : DevState → Bool
  | .standby | .run | .safe => true
  | _ => false
/-- BUSY of the status word (R364, R368). -/
def State.busy (s : State) : Bool := decide (s.dev.st = .boot) || !s.supServing
/-- A host-initiated record is being programmed: the interfaces are silent (R332, R385). -/
def State.silent (s : State) : Bool := decide (s.nv.work = .host) || decide (s.nv.work = .cal)
/-- The interfaces answer. -/
def State.interfaces (s : State) : Bool := s.dev.st.serves && s.supServing && !s.silent
/-- The next request is executed: none that asked for a host-initiated write is waiting for it (R331, R372). -/
def State.takes (s : State) : Bool := s.interfaces && s.nv.hostWrite.isNone

/-- A slot, and a change of it. -/
def Mbox.slot (m : Mbox) (r : Req) : Slot64 :=
  match r.box with
  | .m1 => m.m1[r.slot]
  | _ => m.m0[r.slot]
def Mbox.modSlot (m : Mbox) (r : Req) (f : Slot64 → Slot64) : Mbox :=
  match r.box with
  | .m1 => { m with m1 := upd m.m1 r.slot f }
  | _ => { m with m0 := upd m.m0 r.slot f }
/-- Slot words from a list: words beyond it read 0 (R369). -/
def words64 (ws : List Word) : Vector Word 64 := Vector.ofFn (fun i => ws.getD i.val 0)

/-- The words of a response (R371). -/
def responseWords (head : Word) (answer detail : Nat) (data : List Word) : List Word :=
  word (head.toNat / 16777216 * 16777216 + 65536 * data.length + head.toNat % 65536)
    :: word (16777216 * answer + detail % 16777216) :: data
/-- A response is placed in a slot: BUSY to DONE, and its credit returns (R369, R370). -/
def Mbox.respond (m : Mbox) (r : Req) (answer detail : Nat) (data : List Word) : Mbox :=
  m.modSlot r (fun x =>
    let ws := responseWords x.words[0] answer detail data
    { st := .done, words := words64 ws, written := ws.length, unread := true })
def State.respond (s : State) (r : Req) (answer detail : Nat) (data : List Word) : State :=
  { s with mb := s.mb.respond r answer detail data }

/-- A bit of STATUS_CML sets (R394). -/
def State.cml (s : State) (k : Nat) : State := { s with pmb := { s.pmb with cml := s.pmb.cml ||| (1#8 <<< k) } }
/-- A refused write: bit 6, and its code and answer in DEV.PMB_LAST (R395, R396). -/
def State.pmbRefuse (s : State) (code answer : Nat) : State :=
  let s := s.cml 6
  { s with pmb := { s.pmb with last := word (256 * code + answer) } }
/-- The supervisor that now serves answers INTERRUPTED to every request that was not accepted (R386); a PMBus write that
waited is refused so (log entry 128). -/
def State.interrupt (s : State) : State :=
  let l := s.mb.queue
  let js := s.pmb.jobs
  let s : State := { s with mb := { s.mb with queue := [] }, pmb := { s.pmb with jobs := [] } }
  let s := js.foldl (fun s j => s.pmbRefuse j.code ansInterrupted) s
  l.foldl (fun s r => if r.box = .pmb then s else s.respond r ansInterrupted 0 []) s

/-- The request that asked for a host-initiated write is answered: its slot goes from BUSY to DONE (R332, R385). -/
def Mbox.release (m : Mbox) : Option Req → Mbox
  | none => m
  | some r => m.modSlot r (fun x => { x with st := .done, unread := true })

end Sys2Proof.Machine
end

