-- ==== Sys2Proof/Machine/Ledger.lean ====
section
/-!
DEFINITION. The ledger (11_ledger_and_record_store.md, R337 to R346): counts, takes, tally entries, consolidation and
in-doubt items.
-/
namespace Sys2Proof.Machine

/-- The context of an account, and whether it is the account of its energy (R337). -/
def accCtx (a : Fin 128) : CtxId := ⟨a.val / 2, by omega⟩
def accEnergy (a : Fin 128) : Bool := decide (a.val % 2 = 1)
/-- Staged and uncommitted counts of an account in a cell (R338, R341). -/
def Cell.staged (k : Cell) (a : Fin 128) : Int := if accEnergy a then k.sEnergy.v else k.sCharge.v
def Cell.uncommitted (k : Cell) (a : Fin 128) : Int := if accEnergy a then k.uEnergy.v else k.uCharge.v
/-- Committed count of an account: it counts a tally entry from the commit tag at which S gives it up (R341, R378). -/
def State.committed (s : State) (a : Fin 128) : Int :=
  if accEnergy a then s.ctx[accCtx a].energy else s.ctx[accCtx a].charge
def State.live (s : State) (a : Fin 128) : Int :=
  s.committed a + (s.cell (accCtx a)).staged a + (s.cell (accCtx a)).uncommitted a
/-- LOSS (R340). -/
def State.loss (s : State) : Int :=
  ctxIds.foldl (fun v c => if c.val = 0 then v else v - s.live ⟨2 * c.val + 1, by omega⟩) (s.live 1)
def State.mark (s : State) (a : Fin 128) : Bool := if accEnergy a then s.ctx[accCtx a].markE else s.ctx[accCtx a].markQ
def Ctx.setMark (x : Ctx) (energy b : Bool) : Ctx := if energy then { x with markE := b } else { x with markQ := b }
/-- A class-B increment lies in what an account has staged (R339). -/
def Ctx.stagedMark (x : Ctx) (energy : Bool) : Bool := if energy then x.sMarkE else x.sMarkQ
def Ctx.clearStaged (x : Ctx) (energy : Bool) : Ctx := if energy then { x with sMarkE := false } else { x with sMarkQ := false }

/-- What programmed entries of an account still wait to be taken from S (R341). -/
def State.pendingSub (s : State) (a : Fin 128) : Int :=
  s.commits.foldl (fun v k => match k.act with
    | .tallySub b w => if b = a then v + w else v
    | _ => v) 0
/-- The count with every programmed entry of the account. -/
def State.programmed (s : State) (a : Fin 128) : Int := s.committed a + s.pendingSub a

/-- At its commit tag an entry leaves S and joins the committed count (R341). -/
def State.tallySub (s : State) (a : Fin 128) (v : Int) : State :=
  let f (k : Cell) : Cell := if accEnergy a then { k with sEnergy := tag (k.sEnergy.v - v) } else { k with sCharge := tag (k.sCharge.v - v) }
  (s.halves (fun x => x.modCell (accCtx a) f)).modCtx (accCtx a)
    (fun x => if accEnergy a then { x with energy := x.energy + v } else { x with charge := x.charge + v })

/-- The newer of two tally sequences (R342). -/
def newerSeq (o : Option Nat) (q : Nat) : Option Nat :=
  match o with
  | none => some q
  | some t => if serialNewer 16 q t then some q else o
/-- TSEQ of the newest entry of a context in the ring that is newer than its base, else that of its base (R343). A context that has
neither takes the last one given out: DESIGN CHOICE, log entry 141. -/
def State.covered (s : State) (c : CtxId) : Nat :=
  let base := (s.nv.inForce .q1 0x10 c.val).map (fun r => leAt r.payload 2 2)
  let newest := (List.range 1024).foldl (fun o k => match s.nv.tally k with
    | .committed a _ q _ => if accCtx a = c then newerSeq o q else o
    | _ => o) base
  newest.getD ((s.led.nextSeq + 65535) % 65536)

/-- LEDGER_BASE payload of a context (R343). -/
def State.basePayload (s : State) (c : CtxId) (markQ markE : Bool) : List Byte :=
  leBytes 1 c.val ++ leBytes 1 (flag markQ 0 + flag markE 1 : Nat) ++ leBytes 2 (s.covered c)
    ++ leBytes 8 (s.programmed ⟨2 * c.val, by omega⟩) ++ leBytes 8 (s.programmed ⟨2 * c.val + 1, by omega⟩) ++ leBytes 6 s.ftUs

/-- A take in both halves: U joins S (R341). -/
def Cell.take (k : Cell) : Cell :=
  { k with sCharge := tag (k.sCharge.v + k.uCharge.v), sEnergy := tag (k.sEnergy.v + k.uEnergy.v), uCharge := tag 0, uEnergy := tag 0 }
def State.takeCounts (s : State) : State :=
  let s := s.halves (fun x => { x with cell := every x.cell (fun _ k => k.take) })
  { s with ctx := every s.ctx (fun _ x => { x with sMarkQ := x.sMarkQ || x.uMarkQ, sMarkE := x.sMarkE || x.uMarkE, uMarkQ := false, uMarkE := false }) }
/-- The accounts with S ≠ 0 queue for their entries, in rising number, and one whose count has come back to 0 leaves (R341, R342). -/
def State.queueEntries (s : State) : State :=
  let l := (List.finRange 128).filter (fun a => decide ((s.cell (accCtx a)).staged a - s.pendingSub a ≠ 0) && !s.led.queue.contains a)
  { s with led := { s.led with queue := (s.led.queue ++ l).filter (fun a => decide ((s.cell (accCtx a)).staged a - s.pendingSub a ≠ 0)) } }
/-- A routine write waits for its turn, once for each kind (R281). -/
def Store.await (x : Store) (r : Routine) : Store := if x.routine.contains r then x else { x with routine := x.routine ++ [r] }
def State.await (s : State) (r : Routine) : State := { s with nv := s.nv.await r }
/-- A take at its commit tag; the commit is a routine write (R281, R341). -/
def State.take (s : State) : State := s.takeCounts.await .entries

/-- LEDGER_TAKE (R341): every PERIOD seconds, at a commit tag. -/
def execLedgerTake (s : State) : Host.Outcome State Fault Refusal :=
  let up := match s.dev.st with
    | .standby | .run | .safe => true
    | _ => false
  if up && decide (s.led.lastTake + bitsOf (s.gp .ledgerCfg) 0 16 * sTicks ≤ s.clk.time) then
    .next ({ s with led := { s.led with lastTake := s.clk.time } }.commit s.globTag .take)
  else .next s

/-- The bound of a tally entry's delta (R341). -/
def deltaMax : Int := 549755813887

/-- What an account's next tally entry carries (R341): what S holds beside programmed entries, within its bound. -/
def State.nextDelta (s : State) (a : Fin 128) : Int := clamp ((s.cell (accCtx a)).staged a - s.pendingSub a) (-deltaMax) deltaMax
/-- S holds more than the account's next entry carries (R341). -/
def State.moreStaged (s : State) (a : Fin 128) : Bool := decide ((s.cell (accCtx a)).staged a - s.pendingSub a ≠ s.nextDelta a)
/-- One tally entry is programmed (R341, R342); its class-B flag stays with what S still holds (R339). -/
def State.programEntry (s : State) (a : Fin 128) : State :=
  let v := s.nextDelta a
  if v = 0 then s
  else
    let b := s.ctx[accCtx a].stagedMark (accEnergy a)
    let more := s.moreStaged a
    let s := { s with nv := s.nv.putTally a.val b s.led.nextSeq v, led := { s.led with nextSeq := (s.led.nextSeq + 1) % 65536 } }
    let s := if b then s.modCtx (accCtx a) (fun x => x.setMark (accEnergy a) true) else s
    let s := if more then s else s.modCtx (accCtx a) (fun x => x.clearStaged (accEnergy a))
    s.commit s.globTag (.tallySub a v)
/-- The write engine is free again (R331). -/
def State.workDone (s : State) : State := { s with nv := { s.nv with work := .idle } }

/-- A block of the tally ring that fails its program is retired, and the entry goes to the next (R336). -/
def State.tallyFails (s : State) : Bool := s.nv.fails (tallyAddr s.nv.tallyAt)
def State.tallyRoom (s : State) : State := if s.tallyFails then s.storeTo (s.nv.retire (12 + s.nv.tallyAt / 256)) else s

/-- TALLY_ENTRY_COMMITTED (R331, R341, R342): the second cell of the entry in progress is programmed. A block that fails it is retired,
and the entry is tried again in the next (R336); a count that has come back to 0 programs nothing. -/
def execTallyEntryCommitted (s : State) : Host.Outcome State Fault Refusal :=
  match s.nv.work, s.led.queue with
  | .entry, a :: rest =>
    let s := s.workDone
    if s.nextDelta a ≠ 0 ∧ s.tallyFails = true then .next s.tallyRoom
    else .next (({ s with led := { s.led with queue := rest } } : State).programEntry a)
  | _, _ => .next s

/-- An entry newer than its context's base (R343, R344). -/
def newerThanBase (base : Option Rec) (tseq : Nat) : Bool :=
  match base with
  | none => true
  | some r => serialNewer 16 tseq (leAt r.payload 2 2)

/-- Contexts with committed entries newer than their base (R343). -/
def State.toConsolidate (s : State) : List CtxId :=
  let l := (List.range 1024).filterMap (fun k => match s.nv.tally k with
    | .committed a _ q _ => some (accCtx a, q)
    | _ => none)
  ctxIds.filter (fun c => l.any (fun e => decide (e.1 = c) && newerThanBase (s.nv.inForce .q1 0x10 c.val) e.2))

/-- A tally block that may be erased: something is programmed in it, and every entry is covered, void or erased (R343). -/
def State.tallyDone (s : State) (b : Fin 4) : Bool :=
  !s.nv.erasedRange (0xC000 + 4096 * b.val) 4096 && (List.range 256).all (fun j => match s.nv.tally (256 * b.val + j) with
    | .erased | .void => true
    | .committed a _ q _ => !newerThanBase (s.nv.inForce .q1 0x10 (accCtx a).val) q
    | .torn => false)

/-- A consolidation (R343). -/
def State.consolidate (s : State) : State :=
  let s := s.toConsolidate.foldl (fun s c =>
    s.putRecord .q1 0x10 c.val 26 (s.basePayload c s.ctx[c].markQ s.ctx[c].markE)) s
  (List.finRange 4).foldl (fun s b => if s.tallyDone b then s.storeTo (s.nv.eraseBlock (12 + b.val)) else s) s

/-- CONSOLIDATION (R331, R343): the write engine's consolidation ends. -/
def execConsolidation (s : State) : Host.Outcome State Fault Refusal :=
  if s.nv.work = .consolidate then .next s.workDone.consolidate else .next s

/-- RECLAIM (R329, R331): the write engine's reclaim of a log area ends. -/
def execReclaim (area : Fin 3) (s : State) : Host.Outcome State Fault Refusal :=
  if s.nv.work = .reclaim area then .next (s.workDone.reclaim (Area.ofFin area)) else .next s

/-- IN_DOUBT payload (R345). -/
def itemPayload (kind state field run : Nat) (raw : List Byte) (lost : Nat) (ftime : Nat) : List Byte :=
  leBytes 1 kind ++ leBytes 1 state ++ leBytes 2 field ++ leBytes 4 run ++ padTo 16 raw ++ leBytes 8 lost ++ leBytes 6 ftime
/-- The payload with another state and field. -/
def itemState (b : List Byte) (state field : Nat) : List Byte := b.take 1 ++ leBytes 1 state ++ leBytes 2 field ++ b.drop 4

/-- The summary that holds an item's payload (R345, R346): its eight words are the payload's first 32 bytes. -/
def State.itemSummary (s : State) (b : List Byte) : CairnReq :=
  { source := srcStore, code := evLedgerItem, fclass := 0xFF, tag := s.tag32, ftime := s.ftUs,
    devState := s.devStateWord.toNat % 256, valid := s.ft.valid, words := (List.range 8).map (fun j => word (leAt b (4 * j) 4)), signal := none }
/-- A new in-doubt item: its record is written first (R345). With all 32 in use, the item is written as a Cairn summary. -/
def State.openItem (s : State) (kind field run : Nat) (raw : List Byte) (lost : Nat) : State :=
  let b := padTo 52 (itemPayload kind 1 field run raw lost s.ftUs)
  let s := match kind with
    | 1 => { s with led := { s.led with torn := true } }
    | 2 => { s with led := { s.led with gap := true } }
    | _ => { s with led := { s.led with remLost := true } }
  match (List.finRange 32).find? (fun k => (s.led.items[k]).isNone) with
  | some k =>
    let s := { s with led := { s.led with items := s.led.items.set k (some b) } }
    (s.putRecord .q1 0x14 k.val 38 b).event 0xFF evLedgerItem (word k.val) (word kind)
  | none =>
    let s : State := { s with led := { s.led with overflow := capInc s.led.overflow 255, full := true } }
    s.request (s.itemSummary b)

/-- What a host-initiated record does when its last cell is programmed (R339, R346, R440). -/
def State.recordDone (s : State) (typ ident : Nat) (b : List Byte) : State :=
  match typ with
  | 0x10 => if h : ident < 64 then s.modCtx ⟨ident, h⟩ (fun x => { x with markQ := bitOf (leAt b 1 1) 0, markE := bitOf (leAt b 1 1) 1 }) else s
  | 0x14 =>
    if h : ident < 32 then
      let k : Fin 32 := ⟨ident, h⟩
      if leAt b 1 1 = 2 then
        let raw := (b.drop 8).take 16
        let acc : Fin 128 := ⟨leAt raw 0 1 % 128, by omega⟩
        let cls := decide (128 ≤ leAt raw 0 1)
        let v := signedOf 40 (leAt raw 3 5)
        let tseq := leAt b 2 2
        let s := (if s.nv.tallyFull then s.consolidate else s).tallyRoom
        let s := { s with led := { s.led with items := s.led.items.set k (some b), nextSeq := (tseq + 1) % 65536 }, nv := s.nv.putTally acc.val cls tseq v }
        s.modCtx (accCtx acc) (fun x =>
          let x := if cls then x.setMark (accEnergy acc) true else x
          if accEnergy acc then { x with energy := x.energy + v } else { x with charge := x.charge + v })
      else { s with led := { s.led with items := s.led.items.set k none } }
    else s
  | 0x20 =>
    if ident = 0 then { s with dev := { s.dev with generation := leAt b 0 4, records := leAt b 4 1 } } else s
  | _ => s

/-- A host-initiated write waits for the engine (R331, R332): its records, and the request that waits for them. -/
def State.startHost (s : State) (recs : List (Nat × Nat × List Byte)) (reply : Option Req) : State :=
  { s with nv := { s.nv with hostWrite := some (s.nv.hostQueue.length + recs.length, reply), hostQueue := s.nv.hostQueue ++ recs } }

/-- LEDGER_RESOLVE as it is accepted (R25, R332, R346): it acts at its commit tag, and the request that asked for it waits for its
records. -/
def State.resolve (s : State) (w : Word) (reply : Option Req) : State :=
  let it : Fin 32 := ⟨w.toNat % 32, by omega⟩
  let s := { s with led := { s.led with lastResolve := w &&& 0xF000001F#32 } }
  match s.led.items[it] with
  | none => s
  | some _ =>
    let add := decide (w.toNat / 268435456 = 1)
    ({ s with nv := { s.nv with hostWrite := some (if add then 2 else 1, reply) } } : State).commit s.globTag (.resolve it add)
/-- The records that an open item's resolution programs (R346): ADD writes it ADDING, then its tally entry, then FREE. DISMISS frees it
once the Cairn holds its payload; where that summary is suppressed, the item stays open (R348; log entry 142). -/
def State.resolveApply (s : State) (it : Fin 32) (add : Bool) : State :=
  match s.led.items[it], s.nv.hostWrite with
  | some b, some (_, reply) =>
    if add then
      { s with nv := { s.nv with hostQueue := s.nv.hostQueue ++ [(0x14, it.val, itemState b 2 s.led.nextSeq), (0x14, it.val, itemState b 0 s.led.nextSeq)] } }
    else
      let t := s.request { s.itemSummary b with frees := some it }
      if t.cairn.queue.length = s.cairn.queue.length then { t with nv := { t.nv with hostWrite := none }, mb := t.mb.release reply } else t
  | _, _ => s
/-- A dismissed item's summary is in the ring: the item is freed (R346). -/
def State.freeItem (s : State) (it : Fin 32) : State :=
  match s.led.items[it], s.nv.hostWrite with
  | some b, some _ => { s with nv := { s.nv with hostQueue := s.nv.hostQueue ++ [(0x14, it.val, itemState b 0 (leAt b 2 2))] } }
  | _, _ => s

/-- LEDGER_MARK_CLR as it is accepted (R339). -/
def State.markClr (s : State) (w : Word) (reply : Option Req) : State :=
  let c : CtxId := ⟨w.toNat % 64, by omega⟩
  ({ s with led := { s.led with lastMarkClr := w } }).startHost [(0x10, c.val, padTo 52 (s.basePayload c false false))] reply

/-- A record of a host-initiated write as its programming starts: an item's ADDING record takes the TSEQ that its entry will take
(R346), and a base record the counts of this moment (R339). -/
def State.freshen (s : State) (r : Nat × Nat × List Byte) : Nat × Nat × List Byte :=
  if r.1 = 0x14 ∧ leAt r.2.2 1 1 = 2 then (r.1, r.2.1, itemState r.2.2 2 s.led.nextSeq)
  else if r.1 = 0x10 then (r.1, r.2.1, padTo 52 (s.basePayload ⟨r.2.1 % 64, by omega⟩ false false))
  else r
/-- Area of a record type (R325). -/
def typeArea (typ : Nat) : Area := if typ < 0x20 then .q1 else if typ < 0x30 then .q2 else .q3
/-- Payload bytes in use by a host-initiated record. -/
def typeLen (typ : Nat) : Nat :=
  match typ with
  | 0x10 => 26
  | 0x14 => 38
  | _ => 52

end Sys2Proof.Machine
end

