-- ==== Sys2Proof/Machine/Accept.lean ====
section
/-!
DEFINITION. Acceptance of a judged write (R25, R432), the W1C clears (R7), and reads (R433).
-/
namespace Sys2Proof.Machine

/-- The SEL copies of an interface (R425). -/
def Ctx.sel (x : Ctx) : Iface → Word
  | .m0 => x.selM0
  | .m1 => x.selM1
  | .pmb => x.selPmb
def Ctx.setSel (x : Ctx) (i : Iface) (w : Word) : Ctx :=
  match i with
  | .m0 => { x with selM0 := w }
  | .m1 => { x with selM1 := w }
  | .pmb => { x with selPmb := w }
def State.sel (s : State) (i : Iface) (c : CtxId) : Word := s.ctx[c].sel i

/-- The compatibility view is in force for an interface (R478, R480). -/
def State.viewOn (s : State) (i : Iface) : Bool := s.dev.compatEn && decide (i ≠ .m1)
/-- The view has no target for a context: context 0 (R481). -/
def State.hides (s : State) (i : Iface) (c : CtxId) : Bool := s.viewOn i && decide (c.val = 0)
/-- The view has no target for a slot that a row names (R480, R481). -/
def State.noTarget (s : State) (i : Iface) : Slot → Bool
  | .ctx c _ | .coef c _ | .creg c _ => s.hides i c
  | _ => false
/-- What an index of an interface reaches while the compatibility view is in force (R480): none has no target. -/
def State.compatIndex (s : State) (i : Nat) : Option Nat :=
  if 0x1000 ≤ i ∧ i < 0x3000 then (if (i - 0x1000) / 128 < 63 then some (i + 128) else none)
  else if h : 0x4000 ≤ i ∧ i < 0x4600 then
    let q := (i - 0x4000) / 16
    if hq : q < 24 then
      let e := (s.dev.compatMap[q / 4]'(by omega)).toNat / 256 ^ (q % 4) % 256
      if e < 96 then some (0x4000 + 16 * e + (i - 0x4000) % 16) else none
    else none
  else some i
/-- The native index that an interface's index names (R480). -/
def State.native (s : State) (i : Iface) (index : Nat) : Option Nat :=
  if s.viewOn i then s.compatIndex index else some index
/-- What an index names for an interface (R4, R422, R424). -/
def State.slotOf (s : State) (i : Iface) (index : Nat) : Option Slot :=
  match s.native i index with
  | none => none
  | some n => slotAt (s.sel i) n

/-- Newest accepted values. -/
def State.setNew (s : State) (c : CtxId) (p : CP) (v : Int) : State :=
  s.modCtx c (fun x => { x with acc := x.acc.set p.ix v p.ix_lt })
def State.setPhNew (s : State) (p : PhaseId) (e : PP) (v : Int) : State :=
  s.modPh p (fun x => { x with acc := x.acc.set e.ix v e.ix_lt })
def State.setGlobNew (s : State) (g : GP) (v : Int) : State := { s with gAcc := s.gAcc.set g.ix v g.ix_lt }

/-- The value a write gives a context entry (R5, R284). -/
def ctxValue (c : CtxId) (p : CP) (w : Word) : Int :=
  let v := p.row.fmt.decode w
  match p with
  | .faultResp0 => respValue (c.val = 0) false v
  | .faultResp1 => respValue (c.val = 0) true v
  | _ => v

/-- A write of a context entry is accepted (R25). -/
def State.acceptCtx (s : State) (c : CtxId) (p : CP) (w : Word) : State :=
  if c.val = 0 ∧ p = .mode then s
  else (s.setNew c p (ctxValue c p w)).commit (s.ctxTag c) (.ctxPar c p (ctxValue c p w))

/-- A write of a global entry is accepted (R25, R42, R222, R479). -/
def State.acceptGlob (s : State) (g : GP) (v : Int) : State :=
  match g with
  | .compat | .compatMap _ => s.setGlobNew g v
  | .mfSel k => if v = s.gNew (.mfSel k) then s else (s.setGlobNew g v).commit s.globTag (.glob g v)
  | _ => (s.setGlobNew g v).commit s.globTag (.glob g v)

/-- A write of LAW_CTL (R102, R105). -/
def State.acceptLaw (s : State) (c : CtxId) (w : Word) : State :=
  let t := s.ctxTag c
  let s := s.modCtx c (fun x => { x with view := w.getLsbD 2, swapPending := x.swapPending || w.getLsbD 1 })
  if w.getLsbD 1 then s.commit t (.swap c) else s

/-- A write of a context register is accepted. -/
def State.acceptCReg (s : State) (i : Iface) (c : CtxId) (r : CReg) (w : Word) : State :=
  match r with
  | .sel => s.modCtx c (fun x => x.setSel i (w &&& 0x00733777))
  | .lawCtl => s.acceptLaw c w
  | .faultCtl => if w.getLsbD 0 || w.getLsbD 1 then s.commit (s.ctxTag c) (.faultCtl c (w.getLsbD 0) (w.getLsbD 1)) else s
  | .swCtl => s.commit (s.ctxTag c) (.swCtl c (w.getLsbD 0) (w.getLsbD 1))
  | .tarnCtl => if w.getLsbD 0 then s.commit (s.ctxTag c) (.tarnRelease c) else s
  | _ => s.w1cCtx c r w

/-- A calibration command as it is accepted (R159): its conditions are judged, and the capture starts at the commit tag (R25). PHASE_GAIN
and SHUNT_GAIN discard the pending point here, whatever becomes of them: DESIGN CHOICE, log entry 167. -/
def State.calAsk (s : State) (w : Word) : State :=
  match calTargetOf w with
  | none => s
  | some t =>
    let s := { s with cal := { s.cal with lastCmd := w &&& 0xF000007F#32, op := t.op, point := if t.op ≤ 2 then s.cal.point else none } }
    if s.calCond t then ({ s with cal := { s.cal with waiting := some t, code := 1 } } : State).commit s.globTag .calStart else s.calEnd 5

/-- A write of RUN_CTL is accepted (R38): each of its bits acts at the commit tag. -/
def State.acceptRun (s : State) (w : Word) : State :=
  let t := s.globTag
  let auto : Int := if w.getLsbD 1 then 2 else 0
  let s := ((s.setGlobNew .autoRun auto).commit t (.glob .autoRun auto)).commit t (.runReq (w.getLsbD 0))
  if w.getLsbD 2 then s.commit t .safeClr else s

/-- A write of a global register is accepted. -/
def State.acceptGReg (s : State) (r : GReg) (w : Word) (reply : Option Req) : State :=
  match r with
  | .runCtl => s.acceptRun w
  | .summitCtl =>
    if w.getLsbD 0 then ({ s with sum := { s.sum with handoverBit := true } }).commit s.globTag .handover else s
  | .ftCfg =>
    let v : Int := w.toNat % 8
    ((s.setGlobNew .ftCfg v).commit s.globTag (.glob .ftCfg v)).commit s.globTag (.ftArm (w.getLsbD 3))
  | .calCmd => s.calAsk w
  | .fwCtl =>
    let s := { s with sum := { s.sum with fwCtl := w &&& 0xF0000000#32 } }
    s.commit s.globTag (.fwCtl ⟨w.toNat / 268435456 % 16, by omega⟩ false)
  | .ledgerResolve => s.resolve w reply
  | .ledgerMarkClr => s.markClr w reply
  | .cairnAck => ({ s with cairn := { s.cairn with ackNew := w.toNat } } : State).commit s.globTag (.cairnAck w)
  | .cairnCtl => if w.getLsbD 0 then s.commit s.globTag .cairnErase else s
  | _ => s.w1cGlob r w

/-- A write that no rule refuses is accepted. -/
def State.accept (s : State) (i : Iface) (x : Slot) (w : Word) (reply : Option Req) : State :=
  match x with
  | .ctx c p => s.acceptCtx c p w
  | .coef c k => s.commit (s.ctxTag c) (.coef c k w.toInt)
  | .creg c r => s.acceptCReg i c r w
  | .ph p e => (s.setPhNew p e (e.row.fmt.decode w)).commit s.globTag (.phPar p e (e.row.fmt.decode w))
  | .preg _ _ => s
  | .glob g => s.acceptGlob g (g.row.fmt.decode w)
  | .greg r => s.acceptGReg r w reply

/-- A write through an interface: the state it leaves and its answer code (R6, R432). -/
def State.writeIndex (s : State) (i : Iface) (index : Nat) (w : Word) (reply : Option Req) : State × Nat :=
  match s.slotOf i index with
  | none => (s, ansNoIndex)
  | some x => let k := s.refuse i x w; if k = 0 then (s.accept i x w reply, 0) else (s, k)

/-- An interface can carry a request now: the serving supervisor takes requests (R368, R484), none waits for a host-initiated write
(R332), and M1 has a session (R384). -/
def State.carries (s : State) (i : Iface) : Bool := s.takes && (decide (i ≠ .m1) || s.mb.session)

/-- A register-write row: the write of one word through an interface, as a step of its own (log entry 4). The serving
supervisor takes it (R368, R484); while a host-initiated record is programmed the interfaces are silent (R332, R385). What the
compatibility view has no target for is no index (R481). -/
def State.writeReg (s : State) (i : Iface) (x : Slot) (w : Word) : State :=
  if !s.carries i then s
  else
    let k := if s.noTarget i x then ansNoIndex else s.refuse i x w
    let s := if k = 0 then s.accept i x w none else s
    { s with mb := { s.mb with lastAnswer := k } }

/-- A pending write of RUN_REQ, or its value (R433). -/
def State.runReqNew (s : State) : Bool :=
  s.commits.foldl (fun b k => match k.act with
    | .runReq on => on
    | _ => b) s.dev.runReq
def State.armNew (s : State) : Bool :=
  s.commits.foldl (fun b k => match k.act with
    | .ftArm on => on
    | _ => b) s.ft.armBit

/-- TARN_REQ and TARN_STATUS (R419, R421). -/
def TarnS.reqWord (x : TarnS) : Word :=
  let r := x.inForce.getD {}
  word (r.value % 65536 + 1048576 * x.lastAnswer + 16777216 * r.prio + 67108864 * r.slew + 1073741824 * r.kind)
def TarnS.statusWord (x : TarnS) : Word :=
  x.sticky ||| word (flag x.quarantined 5 + 64 * x.nodeBits + 4096 * x.lastViol + 65536 * min x.run 255)

/-- The word of a coefficient that a read returns (R101). -/
def State.coefWord (s : State) (c : CtxId) (k : Coef) : Word :=
  let x := s.cell c
  let a := if x.bankBActive = s.ctx[c].view then x.bankB else x.bankA
  wordOf a[k].v

/-- A context register as a read returns it. -/
def State.readCReg (s : State) (i : Iface) (c : CtxId) (r : CReg) : Word :=
  let x := s.ctx[c]
  match r with
  | .modeStatus => s.modeStatusWord c
  | .sel => x.sel i
  | .lawCtl => s.lawCtlWord c
  | .lawStatus => s.lawStatusWord c
  | .satFlags => s.satWord c
  | .pulseStatus => s.pulseWord c
  | .pulseDeficit => wordOf (s.cell c).deficit
  | .phaseStatus => x.phaseStatus
  | .vgain => wordOf (s.vgain c)
  | .voff => wordOf (s.voff c)
  | .senseStatus => s.senseWord c
  | .schStatus => s.schWord c
  | .probeStatus => s.probeWord c
  | .probePtr => s.probePtrWord c
  | .tripHits => word x.prot.tripHits
  | .faultStatus => x.prot.statusWord
  | .faultCtl => 0
  | .tarnReq => x.tarn.reqWord
  | .tarnNode => x.tarn.node
  | .tarnStatus => x.tarn.statusWord
  | .tarnCtl => 0
  | .swSgain => wordOf (s.sgain c)
  | .swSofs => wordOf x.chan.sofs
  | .swVs => wordOf x.chan.vs
  | .swCtl => word (flag x.chan.on 0)
  | .swStatus => x.chan.statusWord
  | .gdlyOn => word (learned x.chan.d8On)
  | .gdlyOff => word (learned x.chan.d8Off)

/-- Residue errors of a half (R431). -/
def Half.residues (x : Half) : Nat := min (ctxIds.foldl (fun n c => n + x.cell[c].residueErrors) 0) 4294967295
/-- A summary word of R431. -/
def State.summaryWord (s : State) (k : Fin 14) : Word :=
  ctxWord (32 * (k.val % 2)) (fun c => match k.val / 2 with
    | 0 => s.ctx[c].regulating
    | 1 => s.ctx[c].prot.latched
    | 2 => s.ctx[c].sense.classB
    | 3 => decide (s.ctx[c].chan.st = .on)
    | 4 => decide (s.ctx[c].chan.st = .fault)
    | 5 => s.ctx[c].chan.seated
    | _ => s.ctx[c].tarn.quarantined)

/-- DEV.FW_STATUS (R321). -/
def State.fwStatusWord (s : State) : Word :=
  let x := s.sum
  word (flag x.bankAValid 0 + flag x.bankBValid 1 + flag x.mixed 2 + flag x.fallback 3 + 16777216 * x.fwOp + 268435456 * x.fwCode)
/-- DEV.CFG_STATUS (R440). -/
def State.cfgStatusWord (s : State) : Word :=
  word (s.dev.blocksReset % 256 + 256 * (s.dev.records % 256) + 65536 * (s.dev.generation % 65536))
/-- DEV.CLK_STATUS (R454). -/
def State.clkWord (s : State) : Word :=
  let x := s.clk
  word (flag x.srcRef 0 + flag x.rootOk 1 + flag x.lockE 2 + flag x.lockW 3 + flag x.lockH 4
    + 65536 * (if x.rootOk then s.dev.rcMhz % 256 else 0) + 16777216 * (x.lossCount % 256))
/-- A word of DEV.CAIRN_SRC (R431). -/
def State.cairnSrcWord (s : State) (k : Fin 69) : Word := word (min s.cairn.suppressed[k] 65535 + 65536 * min s.cairn.written[k] 65535)
/-- The level DEV.MF_IN reads (R222). -/
def State.mfInWord (s : State) : Word :=
  bitWord 16 0 (fun j => if h : j < 16 then s.dev.mfPins.getLsbD j && decide (bitsOf (s.gp (.mfSel ⟨j, h⟩)) 0 8 = 6) else false)
/-- Words of the extended buffers (R408, R419). -/
def State.tarnExtWord (s : State) (k : Fin 32) : Word :=
  if h : k.val < 16 then s.tarnA.ext[k.val] else s.tarnB.ext[k.val - 16]'(by omega)

/-- A global register as a read returns it. -/
def State.readGReg (s : State) (i : Iface) (r : GReg) : Word :=
  match r with
  | .state => s.devStateWord
  | .runCtl => word (flag s.runReqNew 0 + (s.gNew .autoRun).toNat)
  | .cfgStatus => s.cfgStatusWord
  | .serialHi => Config.serialHi
  | .serialLo => Config.serialLo
  | .siliconRev => Config.siliconRev
  | .summitCtl => word (flag s.sum.handoverBit 0)
  | .summitStatus => s.summitWord
  | .halfStatus => s.halfStatusWord
  | .fwCtl => s.sum.fwCtl
  | .fwStatus => s.fwStatusWord
  | .fwReleaseA => if s.sum.bankAValid then s.sum.releaseA else 0
  | .fwReleaseB => if s.sum.bankBValid then s.sum.releaseB else 0
  | .fwFloor => s.sum.floor
  | .phActive k => phWord (32 * k.val) s.phActive
  | .tokenStatus => s.tokenWord
  | .imonFault k => phWord (32 * k.val) (fun p => s.ph[p].imonBit || s.ph[p].imonOld)
  | .calCmd => s.cal.lastCmd
  | .calResult => s.calResultWord
  | .ftCfg => word ((s.gNew .ftCfg).toNat + flag s.armNew 3)
  | .ftNowHi => word (s.ftUs / 4294967296)
  | .ftNowLo => match i with
    | .m0 => s.ft.latchM0.getD (word s.ftUs)
    | .m1 => s.ft.latchM1.getD (word s.ftUs)
    | .pmb => s.ft.latchPmb.getD (word s.ftUs)
  | .ftStatus => s.ftStatusWord
  | .ftRate => word s.ft.rate
  | .mfIn => s.mfInWord
  | .crgState => s.crgWord
  | .pgStatus k => ctxWord (32 * k.val) (fun c => decide (c.val ≠ 0) && s.ctx[c].prot.pg)
  | .tsens k => s.tsensWord k
  | .tsensBroken => s.th.broken.setWidth 32
  | .tzone k => s.tzoneWord k
  | .tzoneLevel k => s.levelWord k
  | .thermStatus => s.thermWord
  | .nvmStatus => s.nvmStatusWord
  | .nvmWear k => s.nvmWearWord k
  | .ledgerStatus => s.ledgerStatusWord
  | .ledgerResolve => s.led.lastResolve
  | .ledgerMarkClr => s.led.lastMarkClr
  | .ledgerRun => s.led.run
  | .holdStatus => s.holdWord
  | .cairnNewest => word s.cairn.newest
  | .cairnAck => word s.cairn.ackNew
  | .cairnCtl => 0
  | .cairnSrc k => s.cairnSrcWord k
  | .pmbAddr => word s.pmb.addr
  | .pmbLast => s.pmb.last
  | .tarnExt k => s.tarnExtWord k
  | .tarnExtInfo => word (s.tarnB.extLen + 256 * s.tarnB.extAddr + 65536 * s.tarnA.extLen + 16777216 * s.tarnA.extAddr)
  | .tarnStray => word (s.tarnA.stray % 65536 + 65536 * (s.tarnB.stray % 65536))
  | .summary k => s.summaryWord k
  | .bcastCorr k => word (if k = 0 then s.sum.east.bcastCorr else s.sum.west.bcastCorr)
  | .scrub k => word (if k = 0 then s.sum.east.scrub else s.sum.west.scrub)
  | .residue k => word (if k = 0 then s.east.residues else s.west.residues)
  | .arbFix => word s.sum.arbFix
  | .safeFix => word s.sum.safeFix
  | .vsup k => word s.dev.vsup[k]
  | .supStatus => s.dev.supStatus ||| word (flag s.dev.uvE 0 + flag s.dev.uvW 1)
  | .clkStatus => s.clkWord
  | .bcastDbl => word s.sum.bcastDbl
  | .testCounter n => Config.testCounter n.val s.free

/-- What a read of a defined index returns (R5, R433). -/
def State.readSlot (s : State) (i : Iface) (x : Slot) : Word :=
  match x with
  | .ctx c p => if c.val = 0 ∧ p.row.ctx0 = false then 0 else wordOf (s.ctx[c].newest p)
  | .coef c k => if c.val = 0 then 0 else s.coefWord c k
  | .creg c r => if c.val = 0 ∧ r.ctx0 = false then 0 else s.readCReg i c r
  | .ph p e =>
    if e = .owner ∧ p.val % 2 = 1 ∧ s.joinedNew p = true then wordOf (s.ph[pairLead p].newest .owner) else wordOf (s.ph[p].newest e)
  | .preg p .gain => wordOf (s.gain p)
  | .preg p .offset => wordOf (s.hph p).offset.v
  | .glob g => wordOf (s.gNew g)
  | .greg r => s.readGReg i r

/-- The latch of an interface (R178). -/
def FieldT.latch (x : FieldT) (i : Iface) (v : Option Word) : FieldT :=
  match i with
  | .m0 => { x with latchM0 := v }
  | .m1 => { x with latchM1 := v }
  | .pmb => { x with latchPmb := v }
/-- What a read changes: the field-time latch (R178), and the count of free values a test counter takes. -/
def State.readEffect (s : State) (i : Iface) (x : Slot) : State :=
  match x with
  | .greg .ftNowHi => { s with ft := s.ft.latch i (some (word s.ftUs)) }
  | .greg .ftNowLo => { s with ft := s.ft.latch i none }
  | .greg (.testCounter _) => { s with free := s.free + 1 }
  | _ => s

/-- A read through an interface: its word, its answer code and the state it leaves (R4, R6). -/
def State.readIndex (s : State) (i : Iface) (index : Nat) : State × Word × Nat :=
  match s.slotOf i index with
  | none => (s, 0, 0)
  | some x => if mayRead i x.cls then (s.readEffect i x, s.readSlot i x, 0) else (s, 0, ansAccess)

/-- The live readings of the supplies, the MF pins and the RC oscillator that a read finds (R222, R452 to R454). -/
def State.latchLive (s : State) (l : LivePins) : State :=
  let v : Vector Nat 5 := #v[l.vsupIo % 65536, l.vsupA % 65536, l.vsupE % 65536, l.vsupW % 65536, l.vsupH % 65536]
  let w := flag l.ilimIo 4 + flag l.ilimA 5 + flag l.ilimE 6 + flag l.ilimW 7 + flag l.chgLimit 8 + flag (decide (3300 < l.vin10mV)) 9
    + 65536 * (l.vin10mV % 65536)
  { s with dev := { s.dev with vsup := v, supStatus := word w, rcMhz := l.rcMhz % 256, mfPins := l.mf }
           cairn := { s.cairn with vhold := l.vhold10mV % 65536 } }

end Sys2Proof.Machine
end

