-- ==== Sys2Proof/Machine/Registers.lean ====
section
/-!
DEFINITION. The rows that are the write or the read of one register through an interface (R6, R7, R25; log entry 4). An
accepted write acts when its rule says: most at a commit tag, those of SEL, VIEW, W1C, CAL_CMD, LEDGER_RESOLVE,
LEDGER_MARK_CLR, CAIRN_ACK and CAIRN_CTL on acceptance.
-/
namespace Sys2Proof.Machine

/-- AUTO_RUN as RUN_CTL reads it, in its place. -/
def State.autoBit (s : State) : Nat := if s.gNew .autoRun = 2 then 2 else 0
/-- A write of RUN_CTL that leaves AUTO_RUN as it reads. -/
def State.writeRun (s : State) (i : Iface) (v : Nat) : State := s.writeReg i (.greg .runCtl) (word (v + s.autoBit))

/-- RUN_REQ (R33, R38). -/
def execRunReq (i : Iface) (s : State) : Host.Outcome State Fault Refusal := .next (s.writeRun i 1)
/-- RUNDOWN (R36, R38). -/
def execRundown (i : Iface) (s : State) : Host.Outcome State Fault Refusal := .next (s.writeRun i 0)
/-- SAFE_CLR (R38, R39): RUN_REQ is written as it reads. -/
def execSafeClr (i : Iface) (s : State) : Host.Outcome State Fault Refusal := .next (s.writeRun i (4 + flag s.runReqNew 0))
/-- HANDOVER (R295, R318). -/
def execHandover (i : Iface) (s : State) : Host.Outcome State Fault Refusal := .next (s.writeReg i (.greg .summitCtl) 1)

/-- W1C_CLEAR (R7): a write of any register of class W1C. -/
def execW1cClear (i : Iface) (index : BitVec 16) (w : Word) (s : State) : Host.Outcome State Fault Refusal :=
  match s.slotOf i index.toNat with
  | none => .next s
  | some x => if x.cls = .w1c then .next (s.writeReg i x w) else .next s
/-- SEL (R425, R426). -/
def execSel (i : Iface) (c : CtxId) (w : Word) (s : State) : Host.Outcome State Fault Refusal := .next (s.writeReg i (.creg c .sel) w)
/-- SWAP (R102, R105): LAW_CTL with SWAP = 1. -/
def execSwap (i : Iface) (c : CtxId) (view : Bool) (s : State) : Host.Outcome State Fault Refusal :=
  .next (s.writeReg i (.creg c .lawCtl) (word (2 + flag view 2)))
/-- VIEW (R101, R105): LAW_CTL with SWAP = 0. -/
def execView (i : Iface) (c : CtxId) (v : Bool) (s : State) : Host.Outcome State Fault Refusal :=
  .next (s.writeReg i (.creg c .lawCtl) (word (flag v 2)))
/-- COMPAT (R42). -/
def execCompat (i : Iface) (w : Word) (s : State) : Host.Outcome State Fault Refusal := .next (s.writeReg i (.glob .compat) w)
/-- COMPAT_MAP (R479). -/
def execCompatMap (i : Iface) (k : Fin 6) (w : Word) (s : State) : Host.Outcome State Fault Refusal :=
  .next (s.writeReg i (.glob (.compatMap k)) w)

/-- A CAL_CMD word (R170). -/
def calWord (op target : Nat) : Word := word (268435456 * op + target)
/-- RAIL_P1, RAIL_P2, PHASE_GAIN and SHUNT_GAIN (R159, R160, R170). -/
def execRailP1 (i : Iface) (c : CtxId) (s : State) : Host.Outcome State Fault Refusal := .next (s.writeReg i (.greg .calCmd) (calWord 1 c.val))
def execRailP2 (i : Iface) (c : CtxId) (s : State) : Host.Outcome State Fault Refusal := .next (s.writeReg i (.greg .calCmd) (calWord 2 c.val))
def execPhaseGain (i : Iface) (p : PhaseId) (s : State) : Host.Outcome State Fault Refusal := .next (s.writeReg i (.greg .calCmd) (calWord 3 p.val))
def execShuntGain (i : Iface) (c : CtxId) (s : State) : Host.Outcome State Fault Refusal := .next (s.writeReg i (.greg .calCmd) (calWord 4 c.val))

/-- ARM (R174, R177): FT_CFG with ARM = 1 and its other fields as they read. -/
def execArm (i : Iface) (s : State) : Host.Outcome State Fault Refusal :=
  .next (s.writeReg i (.greg .ftCfg) (word ((s.gNew .ftCfg).toNat + 8)))

/-- A read of one register as a row of its own: its word is kept for the reader (log entry 4). -/
def State.readReg (s : State) (i : Iface) (x : Slot) : State :=
  if s.carries i && mayRead i x.cls then
    let w := s.readSlot i x
    let s := s.readEffect i x
    { s with mb := { s.mb with lastRead := w, lastAnswer := 0 } }
  else s
/-- FT_NOW_HI and FT_NOW_LO (R178). -/
def execFtNowHi (i : Iface) (s : State) : Host.Outcome State Fault Refusal := .next (s.readReg i (.greg .ftNowHi))
def execFtNowLo (i : Iface) (s : State) : Host.Outcome State Fault Refusal := .next (s.readReg i (.greg .ftNowLo))

/-- SWITCH_ON, SWITCH_OFF and SWITCH_CLEAR (R232, R233, R246, R249); CLEAR leaves ON as it reads. -/
def execSwitchOn (i : Iface) (c : CtxId) (s : State) : Host.Outcome State Fault Refusal := .next (s.writeReg i (.creg c .swCtl) 1)
def execSwitchOff (i : Iface) (c : CtxId) (s : State) : Host.Outcome State Fault Refusal := .next (s.writeReg i (.creg c .swCtl) 0)
def execSwitchClear (i : Iface) (c : CtxId) (s : State) : Host.Outcome State Fault Refusal :=
  .next (s.writeReg i (.creg c .swCtl) (word (2 + flag s.ctx[c].chan.on 0)))

/-- FAULT_CLEAR (R262) and RETRY_RESET (R264). -/
def execFaultClear (i : Iface) (c : CtxId) (s : State) : Host.Outcome State Fault Refusal := .next (s.writeReg i (.creg c .faultCtl) 1)
def execRetryReset (i : Iface) (c : CtxId) (s : State) : Host.Outcome State Fault Refusal := .next (s.writeReg i (.creg c .faultCtl) 2)

/-- LEDGER_RESOLVE_ADD and LEDGER_RESOLVE_DISMISS (R346), LEDGER_MARK_CLR (R339). -/
def execLedgerResolveAdd (i : Iface) (item : Fin 32) (s : State) : Host.Outcome State Fault Refusal :=
  .next (s.writeReg i (.greg .ledgerResolve) (word (268435456 + item.val)))
def execLedgerResolveDismiss (i : Iface) (item : Fin 32) (s : State) : Host.Outcome State Fault Refusal :=
  .next (s.writeReg i (.greg .ledgerResolve) (word (536870912 + item.val)))
def execLedgerMarkClr (i : Iface) (c : CtxId) (s : State) : Host.Outcome State Fault Refusal :=
  .next (s.writeReg i (.greg .ledgerMarkClr) (word c.val))

/-- CAIRN_ACK (R378) and CAIRN_ERASE (R351). -/
def execCairnAck (i : Iface) (seq : Word) (s : State) : Host.Outcome State Fault Refusal := .next (s.writeReg i (.greg .cairnAck) seq)
def execCairnErase (i : Iface) (s : State) : Host.Outcome State Fault Refusal := .next (s.writeReg i (.greg .cairnCtl) 1)

/-- FW_ERASE, FW_VERIFY and FW_RESTART (R305, R317). -/
def execFwErase (i : Iface) (s : State) : Host.Outcome State Fault Refusal := .next (s.writeReg i (.greg .fwCtl) 0x10000000)
def execFwVerify (i : Iface) (s : State) : Host.Outcome State Fault Refusal := .next (s.writeReg i (.greg .fwCtl) 0x20000000)
def execFwRestart (i : Iface) (s : State) : Host.Outcome State Fault Refusal := .next (s.writeReg i (.greg .fwCtl) 0x30000000)

/-- TARN_RELEASE (R418). -/
def execTarnRelease (i : Iface) (c : CtxId) (s : State) : Host.Outcome State Fault Refusal := .next (s.writeReg i (.creg c .tarnCtl) 1)

end Sys2Proof.Machine
end

