-- ==== Sys2Proof/Machine/Tick.lean ====
section
/-!
DEFINITION. When the Heath's dividers run (R171, R309, R310), and the vote of the arbiter's copies (R292).
-/
namespace Sys2Proof.Machine

/-- The root is present and the three PLLs are locked (R309). -/
def Clk.ok (x : Clk) : Bool := x.rootOk && x.lockE && x.lockW && x.lockH

/-- The Heath's dividers run: from the sync pulse, while the clock is not lost, outside COLD and HOLDUP (R171, R310). -/
def State.clocked (s : State) : Bool :=
  s.clk.synced && s.clk.ok && (match s.dev.st with
    | .cold | .holdup => false
    | _ => true)

/-- All three copies of the arbiter hold a state, each with its code (R292). -/
def State.setHolder (s : State) (h : Option HalfId) : State :=
  { s with sum := { s.sum with armA := h, armB := h, armC := h, eccA := .ok, eccB := .ok, eccC := .ok } }
/-- A copy of the arbiter agrees with the majority, and its code finds no error. -/
def Summit.sound (x : Summit) (a : Option HalfId) (e : Ecc) : Bool := decide (a = x.holder) && decide (e = .ok)
/-- Copies that the vote rewrites. -/
def Summit.arbBad (x : Summit) : Nat :=
  flag (!x.sound x.armA x.eccA) 0 + flag (!x.sound x.armB x.eccB) 0 + flag (!x.sound x.armC x.eccC) 0
/-- The vote of the arbiter's copies: one that differs, or whose word holds an error, is rewritten from the majority, counted and
summarized (R292, R431). -/
def State.arbVote (s : State) : State :=
  if s.sum.arbBad = 0 then s
  else
    let n := s.sum.arbBad
    let s := s.setHolder s.holder
    ({ s with sum := { s.sum with arbFix := min (s.sum.arbFix + n) 0xFFFFFFFF } } : State).summaryFree srcHeath (word (holderNum s.holder))
/-- The vote of the safe-state logic's copies: one that differs is rewritten, and counted (R312, R431; log entry 139). -/
def Summit.safeVote (x : Summit) : Summit :=
  let h := x.safeHeld
  let n := flag (x.safeA != h) 0 + flag (x.safeB != h) 0 + flag (x.safeC != h) 0
  { x with safeA := h, safeB := h, safeC := h, safeFix := min (x.safeFix + n) 0xFFFFFFFF }

end Sys2Proof.Machine
end

