-- ==== Sys2Proof/Machine/Arbiter.lean ====
section
/-!
DEFINITION. The operations of the summit (10_summit_and_failover.md, R292 to R303): where the summit goes, releases,
requalification, and the copy of a resynchronization.
-/
namespace Sys2Proof.Machine

/-- A release is over, taken or refused: HANDOVER reads 0, unless a later HANDOVER write still waits for its commit tag (R295,
R318). -/
def State.endRelease (s : State) : State :=
  { s with sum := { s.sum with handoverAt := none, handoverBit := s.commits.any (fun k => decide (k.act = .handover)) } }
/-- The summit moves to a half (R293, R298, R308): a freeze that waited takes hold, and requests that the old holder
had not accepted are answered (R386). -/
def State.moveSummit (s : State) (h : HalfId) : State :=
  let t := s.enables
  let s := (s.setHolder (some h)).endRelease
  let s := s.modHs h (fun x => { x with release := false })
  let s := s.modHs h.other (fun x => { (if x.freezeWait then x.freeze t else x) with release := false })
  s.interrupt

/-- A refused release (R295): the flag sets and HANDOVER reads 0. -/
def State.refuseRelease (s : State) (h : HalfId) : State :=
  let s := (s.modHs h (fun x => { x with release := false })).endRelease
  { s with sum := { s.sum with fRefused := true } }

/-- A release request of a half (R293, R295): taken where the half holds the summit and the other half is eligible. -/
def State.requestRelease (s : State) (h : HalfId) : State :=
  if s.holder ≠ some h then s
  else if (s.sum.half h.other).eligible || !(s.sum.half h).eligible then s.takeRelease h
  else s.refuseRelease h

/-- No resynchronization is in progress in a half (R302, R320). -/
def HalfS.noResync (x : HalfS) : HalfS := { x with resyncing := false, resyncTag := none, resyncCopied := false, resyncBad := false }
/-- No half is eligible: the summit is vacant, the device enters SAFE, and the halves run their self-test again in place of any
resynchronization (R33, R293, R294, R303). -/
def State.noHalf (s : State) : State :=
  let t := s.enables
  let s := (s.setHolder none).endRelease
  let f (x : HalfS) : HalfS := { (if x.freezeWait then x.freeze t else x).noResync with release := false }
  let s := (s.modHs .east f).modHs .west f
  ({ s with sum := { s.sum with testing := true } } : State).safeTrigger .noHalf

/-- The arbiter takes an ineligible holder's summit away (R293). -/
def State.failover (s : State) (h : HalfId) : State :=
  if (s.sum.half h.other).eligible then
    let s := s.moveSummit h.other
    let s : State := { s with sum := { s.sum with fFailover := true, failovers := capInc s.sum.failovers 255 } }
    (s.event srcHeath.val evFailover (word (halfNum h.other)) s.halfStatusWord).summary srcHeath evFailover 0xFF none s.halfStatusWord
  else s.noHalf

/-- The first three rows of the table Summit arbiter (R293, R294). -/
def State.firstHolder (s : State) : State :=
  if s.sum.east.eligible then (s.setHolder (some .east)).interrupt
  else if s.sum.west.eligible then (s.setHolder (some .west)).interrupt
  else s.noHalf

/-- The lasting conditions that keep a half from its eligibility (R290). -/
def HalfS.blocked (x : HalfS) : Bool :=
  x.retired || x.selftestFail || x.noImage || x.frozen || x.freezeWait || x.dieShut || x.coreUv || (x.supRestarted && !x.supRunning)
/-- A half is eligible again: the conditions that its return ends clear (R290, R302, R320). -/
def HalfS.regain (x : HalfS) : HalfS :=
  { x with eligible := true, resyncing := false, resyncTag := none, resyncCopied := false, resyncBad := false, resyncFails := 0, disagreed := false, supRestarted := false,
           hbLost := false, silent := false, writeMiss := false, attribErr := false }

/-- The cells of a half are cleared (R59, R294). -/
def Half.clear (x : Half) : Half :=
  { x with cell := every x.cell (fun _ k => k.begin 0 0)
           ph := every x.ph (fun _ h => { h with iph := tag 0, bal := tag 0, thr := tag 0, ton := tag 0, remIph := tag 0, remBal := tag 0,
                                                 remThr := tag 0, remTonN := tag 0, remTonD := tag 0 }) }
/-- A half's window of requalification ends (R294): a half that has passed, and that no lasting condition holds back,
is eligible. -/
def HalfS.requalified (x : HalfS) (pass : Bool) : HalfS :=
  if pass && !x.blocked then x.regain
  else { x with eligible := false, resyncing := false, resyncTag := none, resyncCopied := false, resyncBad := false }
def State.requalify (s : State) (east west : Bool) : State :=
  let s := s.halves Half.clear
  let s := (s.modHs .east (fun x => x.requalified east)).modHs .west (fun x => x.requalified west)
  let s := s.firstHolder
  { s with sum := { s.sum with testing := false } }

/-- What a resynchronizing half copies from the holder (R64, R124, R302); residue-error counts and the capture RAM stay
its own, and its stream begins anew. -/
def Half.copyFrom (dst src : Half) : Half :=
  { src with cell := Vector.ofFn (fun c : CtxId => { src.cell[c] with residueErrors := dst.cell[c].residueErrors,
                                                                      capture := dst.cell[c].capture })
             edges := [], prevEdges := [] }
/-- The words of a boundary that later rules look back on. -/
def Boundary.words (b : Boundary) : List Tagged := [b.vmeas, b.ref, b.icmd]
/-- A word that a resynchronization copies is uncorrectable: its residue tag does not fit, or a binding word holds a double-bit
error in both copies (R302, R303). -/
def Cell.unsound (k : Cell) : Bool :=
  let l := k.port :: k.portIsw :: k.portRaw :: k.ftWord :: k.words.toList.map (·.word) ++ k.bankA.toList ++ k.bankB.toList
    ++ [k.vmeas, k.ref, k.pos, k.err, k.der, k.int, k.pid, k.bq1, k.bq1s1, k.bq1s2, k.bq2, k.bq2s1, k.bq2s2, k.icmd, k.errPrev, k.iff,
        k.iffPrev, k.remVmeas, k.remRef, k.remPos, k.remDer, k.remPid, k.remBq1, k.remBq2, k.remIcmd, k.trackI, k.qRem, k.eRem, k.uCharge,
        k.uEnergy, k.sCharge, k.sEnergy]
    ++ k.last.words ++ k.prev.words ++ (k.swapOld.elim [] (·.toList))
  l.any (fun w => !w.ok)
def HPhase.unsound (h : HPhase) : Bool :=
  [h.iph, h.bal, h.thr, h.ton, h.remIph, h.remBal, h.remThr, h.remTonN, h.remTonD, h.raw, h.gain.word, h.offset].any (fun w => !w.ok) || !h.azSum.ok
def Half.unsound (x : Half) : Bool := ctxIds.any (fun c => x.cell[c].unsound) || phaseIds.any (fun p => x.ph[p].unsound)
/-- The two copies of a binding word, as a resynchronization reads them: corrected, or the other copy's (R19, R302). -/
def bindRead (a b : CtxId × Ecc) : CtxId × Ecc := if a.2 = .double then (if b.2 = .double then a else (b.1, .ok)) else (a.1, .ok)
/-- The profile word of an event in a half (R187). -/
def Event.f (e : Event) : HalfId → Tagged
  | .east => e.fE
  | .west => e.fW
def Event.setF (e : Event) (h : HalfId) (w : Tagged) : Event :=
  match h with
  | .east => { e with fE := w }
  | .west => { e with fW := w }
/-- A half takes the holder's state (R302): in one sample, at 48 tags. A schedule's profiles go with it. -/
def State.copyHalf (s : State) (h : HalfId) : State :=
  let o := s.sum.half h.other
  let bad := (s.half h.other).unsound || phaseIds.any (fun p => decide ((bindRead o.bindA[p] o.bindB[p]).2 = .double))
    || ctxIds.any (fun c => (s.ctx[c].sched.events).any (fun e => !(e.f h.other).ok))
  let s := s.setHalf h ((s.half h).copyFrom (s.half h.other))
  let s : State := { s with ctx := every s.ctx (fun _ x => { x with sched := { x.sched with events := x.sched.events.map (fun e => e.setF h (e.f h.other)) } }) }
  s.modHs h (fun x => { x with bindA := every o.bindA (fun p w => bindRead w o.bindB[p]), bindB := every o.bindB (fun p w => bindRead w o.bindA[p]),
                               resyncCopied := true, resyncBad := bad })

end Sys2Proof.Machine
end

