-- ==== Sys2Proof/Machine/Crag.lean ====
section
/-!
DEFINITION. Crag comparators, windows and trip groups (09_protection_and_thermal.md, R251 to R257).
-/
namespace Sys2Proof.Machine

/-- POL and the hysteresis of a comparator in microvolts (R252). -/
def State.cragField (s : State) (k : Fin 16) : Nat :=
  if k.val < 8 then bitsOf (s.gp (.crgCfg 0)) (4 * k.val) 4 else bitsOf (s.gp (.crgCfg 1)) (4 * (k.val - 8)) 4
def cragHys (f : Nat) : Int :=
  match f % 4 with
  | 0 => 0
  | 1 => 10000
  | 2 => 20000
  | _ => 40000

/-- A comparator under its differential input V(P) − V(N), from its output as it stands (R251). -/
def Crag.follow (x : Crag) (f : Nat) (diff : Int) : Crag :=
  let h := cragHys f
  let d := if f / 4 % 2 = 0 then diff else -diff
  { tripped := if x.tripped then !decide (d < -h) else decide (0 < d), diff := diff }

/-- The input of a trip group (R254). -/
def State.groupInput (s : State) (c : CtxId) : Bool :=
  let src := s.cp c .tripSrc
  (List.finRange 16).any (fun k => bitOf src k.val && (s.crag[k]).tripped)
    || (List.finRange 8).any (fun j => bitOf src (16 + j.val) && s.window j)

/-- The targets of a trip group are forced (R127, R255). -/
def State.forceTargets (s : State) (c : CtxId) : State :=
  { s with ph := every s.ph (fun p x => if s.groupTargets c p then { x with forced := true } else x) }
/-- A trip group asserts (R127, R255, R257): its targets are forced, and so is a new target of one that is asserted. -/
def State.assertGroup (s : State) (c : CtxId) : State :=
  (s.modCtx c (fun x => { x with prot := { x.prot with tripAsserted := true, tripSeen := true, tripHits := (x.prot.tripHits + 1) % 4294967296 } })).forceTargets c
/-- A trip group deasserts (R255): the outputs stay safe until their next start edge (R127). -/
def State.deassertGroup (s : State) (c : CtxId) : State := s.modCtx c (fun x => { x with prot := { x.prot with tripAsserted := false } })

/-- FILT of a group (R254). -/
def State.tripFilt (s : State) (c : CtxId) : Nat := bitsOf (s.cp c .tripCfg) 0 8

/-- A group's input as it stands, and its output where it has no filter (R254). -/
def State.followGroup (s : State) (c : CtxId) : State :=
  let inp := s.groupInput c
  let now := s.clk.time
  let x := s.ctx[c].prot
  let s := if inp = x.tripFilter.isSome then s
    else s.modCtx c (fun y => { y with prot := { y.prot with tripFilter := if inp then some now else none } })
  if s.tripFilt c = 0 then
    if inp && !x.tripAsserted then s.assertGroup c
    else if !inp && x.tripAsserted then s.deassertGroup c
    else s
  else s
def State.followGroups (s : State) : State := ctxIds.foldl State.followGroup s

/-- Comparators under a new POL and HYS follow from their state at once (R252). -/
def State.cragConfig (s : State) : State :=
  ({ s with crag := every s.crag (fun k x => x.follow (s.cragField k) x.diff) } : State).followGroups

/-- CRAG_CROSSING (R251, R253, R254): comparator k sees a differential input. -/
def execCragCrossing (k : Fin 16) (microvolt : Int) (s : State) : Host.Outcome State Fault Refusal :=
  .next (({ s with crag := upd s.crag k (fun x => x.follow (s.cragField k) microvolt) } : State).followGroups)

/-- TRIP_GROUP_ASSERT (R254, R255): the input has been tripped for FILT fast ticks. -/
def execTripGroupAssert (c : CtxId) (s : State) : Host.Outcome State Fault Refusal :=
  match s.ctx[c].prot.tripFilter with
  | none => .next s
  | some t => if s.ctx[c].prot.tripAsserted = false ∧ t + s.tripFilt c ≤ s.clk.time then .next (s.assertGroup c) else .next s

/-- TRIP_GROUP_DEASSERT (R254, R255): the input is sampled clear. -/
def execTripGroupDeassert (c : CtxId) (s : State) : Host.Outcome State Fault Refusal :=
  if s.ctx[c].prot.tripAsserted && s.ctx[c].prot.tripFilter.isNone then .next (s.deassertGroup c) else .next s

end Sys2Proof.Machine
end

