-- ==== Sys2Proof/Machine/Pulse.lean ====
section
/-!
DEFINITION. Spurs, pulses and the inner decision (03 R93 to R100, 04, 05 R148 to R158).
-/
namespace Sys2Proof.Machine

/-- The timing word an act changes in a phase's set, if any (R124, R125). -/
def Act.timing (bind p : Nat) : Act → TimingSet → TimingSet
  | .phPar q .tmin v, t => if q.val = p then { t with tmin := v.toNat } else t
  | .phPar q .dtRise v, t => if q.val = p then { t with dtRise := v.toNat } else t
  | .phPar q .dtFall v, t => if q.val = p then { t with dtFall := v.toNat } else t
  | .ctxPar c .tpause v, t => if c.val = bind then { t with tpause := v.toNat } else t
  | .ctxPar c .tonMax v, t => if c.val = bind then { t with tonMax := v.toNat } else t
  | .throttle q v, t => if q.val = p then { t with thr := v } else t
  | _, t => t

/-- A word lands in the pending set in a fast tick (R125). -/
def HPhase.land (h : HPhase) (fast : Nat) (f : TimingSet → TimingSet) : HPhase :=
  match h.landed with
  | none => { h with landed := some (fast, f h.pend) }
  | some (g, t) => if g = fast then { h with landed := some (g, f t) } else { h with pend := t, landed := some (fast, f t) }

/-- What landed before a fast tick is in the pending set at that tick. -/
def HPhase.promote (h : HPhase) (fast : Nat) : HPhase :=
  match h.landed with
  | some (g, t) => if g < fast then { h with pend := t, landed := none } else h
  | none => h

/-- A reload: the whole pending set becomes the active set (R125). -/
def HPhase.reload (h : HPhase) (fast : Nat) : HPhase :=
  let h := h.promote fast
  { h with act := h.pend }

/-- The pending set a start request finds at its presentation tick: what has landed before it, and the writes whose
commit tag begins before it (R125). -/
def HPhase.pendAt (h : HPhase) (p : PhaseId) (commits : List Commit) (pf : Nat) : TimingSet :=
  commits.foldl (fun t k => if 16 * k.tag < pf then k.act.timing h.bind.val p.val t else t) (h.promote pf).pend

/-- The pause P of R117. -/
def HPhase.pause (h : HPhase) : Nat := max h.act.tpause h.act.thr

/-- The minimum m of R121. -/
def TimingSet.minimum (t : TimingSet) (paired : Bool) : Nat := if paired then t.dtRise + t.tmin else t.tmin

/-- A pulse whose end has come: the phase goes back to ACTIVE, parks, or parks in the free pool (R22, R115, R133). -/
def HPhase.finish (h : HPhase) (now : Nat) : HPhase :=
  match h.pulse with
  | none => h
  | some q => match q.endAt with
    | none => h
    | some e =>
      if e ≤ now then
        let h := { h with pulse := none, lastEnd := e }
        if h.leaving then { h with state := .unbound, bind := 0, leaving := false, parkedTag := some (e / 512) }
        else if q.parks then { h with state := .parked } else { h with state := .active }
      else h

/-- An OFFTIME pulse with no end decision by S + TON_MAX falls there (R119). The second part says that it did. -/
def HPhase.peakMiss (h : HPhase) (p : PhaseId) (now : Nat) : HPhase × List EdgeWord × Bool :=
  match h.pulse with
  | none => (h, [], false)
  | some q =>
    let x := q.start + h.act.tonMax
    if q.fall.isNone ∧ h.state = .on ∧ x ≤ now then
      let e := endOf h.act q.paired x
      ({ h with pulse := some { q with fall := some x, endAt := some e }, offTime := h.ton.v.toNat }, endEdges p q.paired x e, true)
    else (h, [], false)

/-- What the passage of time does to a half's pulses up to an instant in edge steps: TON_MAX, then ends. PEAK_MISS is that of the
context the phase pulsed for, which it may leave with this end (R22, R119). -/
def Half.settleOne (now : Nat) (x : Half) (p : PhaseId) : Half :=
  let b := x.ph[p].bind
  let r := x.ph[p].peakMiss p now
  let h := r.1.finish now
  let x := { x with ph := x.ph.set p h, edges := x.edges ++ r.2.1 }
  if r.2.2 then x.modCell b (fun c => { c with peakMiss := true }) else x
/-- The instant now, in edge steps after the sync pulse. -/
def State.steps (s : State) : Nat := 32 * s.clk.fast
/-- Settle the pulses of a list of phases in both halves. -/
def State.settle (s : State) (ps : List PhaseId) : State :=
  s.halves (fun x => ps.foldl (fun x p => if x.ph[p].pulse.isSome then x.settleOne s.steps p else x) x)

/-- The short-pulse rule of R122: width, deficit, and the clipped edge steps, if any. -/
structure Short where
  width : Nat
  deficit : Int
  clip : Option Int
  stretched : Bool
  skipped : Bool
deriving DecidableEq, Repr
def shortRule (w : Nat) (d : Int) (m : Nat) : Short :=
  let hi : Int := 4 * m
  let (d, clip) := if d > hi then (hi, some (d - hi)) else if d < -hi then (-hi, some (d + hi)) else (d, none)
  let e : Int := w + d
  if e ≥ m then
    if e > 16777215 then ⟨16777215, e - 16777215, clip, false, false⟩ else ⟨e.toNat, 0, clip, false, false⟩
  else if 2 * e ≥ m then ⟨m, e - m, clip, true, false⟩
  else ⟨0, e, clip, false, true⟩

/-- Counts and flags of a short request (R123). -/
def Cell.shortCounts (c : Cell) (r : Short) : Cell :=
  { c with deficit := r.deficit,
           shortCount := if r.stretched || r.skipped then capInc c.shortCount 65535 else c.shortCount,
           stretched := c.stretched || r.stretched, skipped := c.skipped || r.skipped,
           clipCount := if r.clip.isSome then capInc c.clipCount 4095 else c.clipCount,
           clipped := c.clipped || r.clip.isSome }

/-- Rotation order after the pointer (R115): the phases above it, then the rest. -/
def rotation (ptr : PhaseId) (l : List PhaseId) : List PhaseId :=
  l.filter (fun p => ptr.val < p.val) ++ l.filter (fun p => p.val ≤ ptr.val)

/-- An eligible phase at a tag that begins at an instant in edge steps (R115, R119). The first OFFTIME start after a constant-on-time or HELD
pulse, or after a fresh acquisition, waits for the off-time of the phase's last end decision, 0 where it has made none: DESIGN CHOICE,
log entry 152. -/
def HPhase.eligible (h : HPhase) (offtime : Bool) (now : Nat) : Bool :=
  decide (h.state = .active) && h.pulse.isNone && decide (h.lastEnd + h.pause ≤ now)
    && (!offtime || decide (h.lastEnd + h.offTime ≤ now))

/-- The due phase (R115). -/
def Half.due (x : Half) (bound : List PhaseId) (ptr : PhaseId) (offtime : Bool) (now : Nat) : Option PhaseId :=
  (rotation ptr bound).find? (fun p => x.ph[p].eligible offtime now)

/-- Presentation tick P_f of a phase: a fast tick (R99, R118). -/
def presentAt (base : Nat) (bound : List PhaseId) (p : PhaseId) : Nat := 2 * (base + bound.idxOf p / 16)

/-- What an inner decision of a context reads besides its half. -/
structure InnerIn where
  t : Nat
  offtime : Bool
  vin : Int
  bound : List PhaseId
  boundary : Bool
  balance : Bool
  paired : PhaseId → Bool
  commits : List Commit

/-- What it yields: the half, phases that took a start edge, and a deficit clip. -/
structure InnerOut where
  half : Half
  started : List PhaseId := []
  clip : Option Int := none

/-- THR and TON of one phase (R93, R94). -/
def innerStages (i : InnerIn) (c : CtxId) (x : Half) (p : PhaseId) : Half :=
  let r := thrStage x.cell[c] x.ph[p]
  let r := tonStage i.offtime i.vin r.1 r.2
  { x with cell := x.cell.set c r.1, ph := x.ph.set p r.2 }

/-- An OFFTIME phase in its on-time ends it at its peak (R96, R119). -/
def innerStop (i : InnerIn) (base : Nat) (x : Half) (p : PhaseId) : Half :=
  let h := x.ph[p]
  match h.pulse with
  | none => x
  | some q =>
    let pf := presentAt base i.bound p
    if h.state = .on ∧ q.fall.isNone ∧ h.thr.v ≤ h.iph.v ∧ 32 * pf ≤ q.start + h.act.tonMax then
      let f := max (32 * (pf + 2)) (q.start + q.min)
      let e := endOf h.act q.paired f
      { x with ph := x.ph.set p { h with pulse := some { q with fall := some f, endAt := some e }, offTime := h.ton.v.toNat },
               edges := x.edges ++ endEdges p q.paired f e }
    else x

/-- A start request of the due phase (R118, R119, R122, R125). -/
def innerStart (i : InnerIn) (c : CtxId) (base : Nat) (x : Half) (p : PhaseId) : InnerOut :=
  let pf := presentAt base i.bound p
  let h := { x.ph[p] with act := x.ph[p].pendAt p i.commits pf }
  let start := 32 * (pf + 2)
  let paired := i.paired p
  let m := h.act.minimum paired
  if i.offtime then
    let q : Pulse := { start := start, min := m, fall := none, endAt := none, paired := paired }
    let x := x.modCell c (fun k => { k with pointer := p })
    { half := { x with ph := x.ph.set p { h with state := .on, pulse := some q },
                       edges := x.edges ++ startEdges p paired start h.act.dtRise },
      started := [p] }
  else
    let r := shortRule h.ton.v.toNat x.cell[c].deficit m
    let x := x.modCell c (fun k => { (k.shortCounts r) with pointer := p })
    if r.skipped then { half := { x with ph := x.ph.set p { h with lastEnd := start } }, clip := r.clip }
    else
      let f := start + r.width
      let e := endOf h.act paired f
      let q : Pulse := { start := start, min := m, fall := some f, endAt := some e, paired := paired }
      { half := { x with ph := x.ph.set p { h with state := .on, pulse := some q },
                         edges := x.edges ++ startEdges p paired start h.act.dtRise ++ endEdges p paired f e },
        started := [p], clip := r.clip }

/-- The inner decision of one context in one half at a tag (R93 to R96, R99, R115). At a balance boundary whose shedding step changes n_act,
ceil(n_act/16) counts the new one: DESIGN CHOICE, log entry 150. -/
def innerCtx (i : InnerIn) (c : CtxId) (x : Half) : InnerOut :=
  let x := i.bound.foldl (innerStages i c) x
  let base := presentBase i.t x.cell[c].presented x.cell[c].nAct i.boundary i.balance
  let x := x.modCell c (fun k => { k with presented := base + (i.bound.length - 1) / 16 })
  let x := i.bound.foldl (innerStop i base) x
  match x.due i.bound x.cell[c].pointer i.offtime (512 * i.t) with
  | none => { half := x }
  | some p =>
    if i.offtime || decide (x.ph[p].iph.v ≤ x.ph[p].thr.v) then innerStart i c base x p else { half := x }

/-- Whether a phase carries no current at a tag: UNBOUND, PARKED or FORCED (R153). -/
def State.noCurrent (s : State) (p : PhaseId) : Bool :=
  match (s.hph p).state with
  | .unbound | .parked => true
  | _ => s.ph[p].forced

/-- The counts of a phase's word at a tag: the auto-zero window (R153, R154), and the sensor counts (R158). The second part says
that a window was aborted: by an IMON fault at any of its tags, the first included, or because the phase left PARKED or FORCED. -/
def PhaseS.sample (x : PhaseS) (tag : Nat) (bind : CtxId) (bound quiet parked irefBad : Bool) (code : Int) : PhaseS × Bool :=
  let full := parked && (decide (code = -512) || decide (code = 511))
  let fullRun := if full then x.fullRun + 1 else 0
  let irefRun := if irefBad then x.irefRun + 1 else 0
  let now := decide (25 ≤ fullRun) || decide (25 ≤ irefRun)
  let q := if quiet then x.quiet + 1 else 0
  let at0 := decide (tag % (if x.offsetValid then 2500000 else 250000) = 0)
  let starts := x.azRun.isNone && at0 && bound && decide (251 ≤ q)
  let az : Option Nat :=
    match x.azRun with
    | some n => if n < 64 then (if quiet && !now && bound then some (n + 1) else none) else some n
    | none => if starts && !now then some 1 else none
  let missed := at0 && bound && x.offsetValid && az.isNone
  let gone := x.offsetValid && x.azRun.isSome && az.isNone && !missed
  ({ x with fullRun := fullRun, irefRun := irefRun, quiet := q, imonNow := now, azRun := az, azCtx := if starts then bind else x.azCtx,
            azMissed := if missed || gone then x.azMissed + 1 else x.azMissed,
            azStale := x.azStale || ((missed || gone) && decide (600 ≤ x.azMissed + 1)) },
   (starts || x.azRun.isSome) && az.isNone)

/-- A half's sum of the window takes the word at its port, which a double-bit error leaves at the last valid one (R16, R153). -/
def HPhase.azAdd (h : HPhase) (old new : Option Nat) : HPhase :=
  match old, new with
  | none, some _ => { h with azSum := h.raw.acc }
  | some n, some m => if n < m then { h with azSum := h.azSum.add h.raw.acc } else h
  | _, none => h

/-- One half's part of a phase word (R15, R16, R125, R142, R148): the port tags the word (R60), and a phase that is not ON reloads its
timing words, a HELD one too. -/
def Half.phaseWord (x : Half) (p : PhaseId) (fast : Nat) (raw gain : Int) (e : Ecc) : Half :=
  let f := { x.ph[p] with gain := (x.ph[p]).gain.hold gain }
  let f : HPhase := match e with
    | .double => f
    | _ => { f with raw := tag raw, rawTag := fast / 16 % 4294967296 }
  let f := if f.state = .on then f else f.reload fast
  match f.state, f.leaving with
  | .unbound, _ | _, true => { x with ph := x.ph.set p f }
  | _, false =>
    let r := iphStage x.cell[f.bind] f
    { x with cell := x.cell.set f.bind r.1, ph := x.ph.set p r.2 }

/-- The phase's shared counts after the IPH stage of a tag, from the word that stands at the port: overcurrent test, window and
sensor counts (R16, R153, R158, R258). -/
def State.senseOf (s : State) (p : PhaseId) (irefBad : Bool) : PhaseS × Bool :=
  let h := s.hph p
  let isBound := decide (h.state ≠ .unbound)
  let y := s.ph[p].sample s.tag32 h.bind isBound (s.noCurrent p) (decide (h.state = .parked)) irefBad (h.raw.v / 16384)
  ({ y.1 with ocSeen := y.1.ocSeen || (isBound && decide (s.cp h.bind .ocLevel < h.iph.v)) }, y.2)

/-- The counts of a phase word, and the faults that they complete (R154, R158). -/
def State.phaseCounts (s : State) (code : BitVec 10) (irefBad : Bool) (p : PhaseId) : State :=
  let old := s.ph[p]
  let r := s.senseOf p irefBad
  let y := r.1
  let t := (s.modPh p (fun _ => y)).halves (fun x => x.modPh p (fun h => h.azAdd old.azRun y.azRun))
  let t := t.calSample (.phaseGain p) code.toInt
  let t := if r.2 then t.modCtx y.azCtx (fun x => { x with sense := { x.sense with azAbort := true } }) else t
  if (old.fullRun < 25 ∧ y.fullRun = 25) ∨ (old.irefRun < 25 ∧ y.irefRun = 25) then t.imonFault p else t

/-- The phase word of one phase at a tag. -/
def State.phaseWord (s : State) (code : BitVec 10) (irefBad : Bool) (e : BcastErr) (p : PhaseId) : State :=
  let raw : Int := code.toInt * 16384
  let fast := 16 * s.enables
  ({ s with east := s.east.phaseWord p fast raw (s.gain p) e.east,
            west := s.west.phaseWord p fast raw (s.gain p) e.west } : State).phaseCounts code irefBad p

/-- A context runs inner decisions: it regulates, and PASS is not in force (R23, R92). -/
def State.decides (s : State) (c : CtxId) : Bool := s.ctx[c].regulating && !s.ctx[c].mode.passInForce

/-- The request in force, of a KIND (R409, R413). -/
def State.inForce (s : State) (c : CtxId) (kind : Nat) : Option TarnReq :=
  match s.ctx[c].tarn.inForce with
  | some r => if s.ctx[c].inE modeCommand ∧ r.kind = kind then some r else none
  | none => none

/-- Step limit of the reference (R77, R412): that of the request for as long as it is in force. -/
def State.stepLimit (s : State) (c : CtxId) : Int :=
  let v := s.cp c .vslew
  match s.inForce c 1 with
  | some r => if r.slew = 0 ∨ s.dev.rundown.isSome = true then v else max 1 (v / 2 ^ r.slew)
  | none => v

/-- The values that a cell's held words follow (R25, R60): parameters in force, calibration words in use, the operand of the
request in force, a voltage or a current (R412, R413), the step limit and the target of the boundary (R74, R77), and its injection
(R216). -/
def State.heldWordOf (s : State) (c : CtxId) : CellWord → Int
  | .vgain => s.vgain c
  | .voff => s.voff c
  | .loadline => s.cp c .loadline
  | .kbal => s.cp c .kbal
  | .kOn => s.cp c .kOn
  | .toff => s.cp c .toff
  | .trackRatio => s.cp c .trackRatio
  | .trackOffset => s.cp c .trackOffset
  | .icmd => s.cp c .icmd
  | .request => match s.ctx[c].tarn.inForce with
    | some r => if r.kind = 1 then tarnCode r.value else signed16 r.value * 256
    | none => 0
  | .vslew => s.stepLimit c
  | .target => s.ctx[c].tgt
  | .injV => s.ctx[c].probe.injV
  | .injI => s.ctx[c].probe.injI
/-- Both halves hold the words of a context. -/
def State.holdWords (s : State) (c : CtxId) : State := s.halves (fun x => x.modCell c (fun k => k.hold (s.heldWordOf c)))

/-- The output stage of a phase follows its timing block from the start edge just presented (R127). -/
def State.followStart (s : State) (p : PhaseId) : State :=
  match (s.hph p).pulse with
  | some q => s.modPh p (fun x => { x with followAt := some (q.start / 32) })
  | none => s
/-- Start edges that fall in this fast tick: an output stage that no force holds follows from here (R127). -/
def State.follow (s : State) : State :=
  { s with ph := every s.ph (fun p x => match x.followAt with
    | some f => if f ≤ s.clk.fast then { x with followAt := none, forced := x.forced && s.forceNow p } else x
    | none => x) }

/-- The inner decision of one context in both halves; the clip's Cairn entry and event (R123), and the output stages
that follow a start edge (R127). -/
def State.innerOne (s : State) (c : CtxId) : State :=
  if s.decides c then
    let t := s.enables
    let boundary := decide (s.ctx[c].lastDone = some t)
    let inp (x : Half) : InnerIn :=
      { t := t, offtime := s.ctx[c].inE modeOfftime, vin := vinD x.cell[(0 : CtxId)] t,
        bound := x.bound c, boundary := boundary, balance := boundary && decide (s.ctx[c].outerCount % 16 = 1),
        paired := s.joined, commits := s.commits }
    let old := s
    let s := s.holdWords c
    let e := innerCtx (inp s.east) c s.east
    let w := innerCtx (inp s.west) c s.west
    let r := match s.serving with
      | .east => e
      | .west => w
    let s := { s with east := e.half, west := w.half }
    let s := r.started.foldl State.followStart s
    let s := match r.clip with
      | none => s
      | some k => (s.event c.val evPulseClip (wordOf k) (s.pulseWord c)).summary (srcCtx c) evPulseClip 0xFF none (wordOf k)
    State.signalResidue old s c
  else s



/-- The error of a phase's word among those of a tag (R16). -/
def errOf (errs : List (PhaseId × BcastErr)) (p : PhaseId) : BcastErr := ((errs.find? (fun e => e.1 = p)).map (·.2)).getD {}
/-- The phase words of a tag, phase by phase. -/
def State.phaseWords (s : State) (codes : Vector (BitVec 10) 96) (irefOut : BitVec 12) (errs : List (PhaseId × BcastErr)) :
    State :=
  phaseIds.foldl (fun s p => s.phaseWord codes[p] (irefOut.getLsbD (p.val / 8)) (errOf errs p) p) s

/-- The broadcast errors of the phase words of a tag, each judged for the context its phase serves (R16). An error in the word of
a phase that serves none is charged to context 0: DESIGN CHOICE, log entry 133. -/
def State.phaseErr (s : State) (errs : List (PhaseId × BcastErr)) : State :=
  phaseIds.foldl (fun s p => let e := errOf errs p; if e = {} then s else s.bcast (s.hph p).bind e) s

/-- Residue errors of every cell since a state. -/
def State.signalAll (before s : State) : State := ctxIds.foldl (fun s c => State.signalResidue before s c) s

/-- The inner decisions of every context. -/
def State.innerAll (s : State) : State := ctxIds.foldl State.innerOne s

/-- A tag's words have come, in its first fast tick, and every boundary of the tag has had its outer step (R58, R143). -/
def State.innerTime (s : State) : Bool :=
  s.converting && decide (s.clk.fast % 16 = 0) && decide (s.clk.lastInner ≠ some s.enables)
    && ctxIds.all (fun c => !s.atBoundary c || decide (s.ctx[c].lastDone = some s.enables))
/-- INNER_DECISION (R58, R93 to R96, R143, R148, R158): a sample tag. -/
def execInnerDecision (codes : Vector (BitVec 10) 96) (irefOut : BitVec 12) (errs : List (PhaseId × BcastErr)) (s : State) :
    Host.Outcome State Fault Refusal :=
  if s.innerTime then
    let s : State := { s with clk := { s.clk with lastInner := some s.enables } }
    let s := (s.settle phaseIds).phaseErr errs
    .next (s.keepStopped (State.signalAll s (s.phaseWords codes irefOut errs)).innerAll)
  else .next s

/-- PULSE_END (R115, R118, R133): the pulse of a phase whose end has come is over. -/
def execPulseEnd (p : PhaseId) (s : State) : Host.Outcome State Fault Refusal := .next (s.settle [p])

/-- PEAK_MISS (R119): an OFFTIME pulse with no end decision by S + TON_MAX. -/
def execPeakMiss (p : PhaseId) (s : State) : Host.Outcome State Fault Refusal := .next (s.settle [p])

/-- The level of a PWM pin (R37, R111). -/
inductive Level3 where
  | highZ
  | low
  | mid
  | high
deriving DecidableEq, Repr

/-- High side of a pulse at an instant (R118, table Paired pulse). -/
def Pulse.highAt (q : Pulse) (dtRise now : Nat) : Bool :=
  decide ((if q.paired then q.start + dtRise else q.start) ≤ now) && (match q.fall with
    | none => true
    | some f => decide (now < f))
/-- Low side of a pair during a pulse. -/
def Pulse.lowAt (q : Pulse) (now : Nat) : Bool :=
  decide (now < q.start) || (match q.endAt with
    | none => false
    | some e => decide (e ≤ now))

/-- PWM ball p at an instant of edge-word time (R37, R111, R112, R127): high impedance before the pin drivers are enabled, safe while forced, else what the holder's timing
block says. From the boundary at which a PARKED phase is designated for PASS to its start edge it has the levels of ACTIVE: DESIGN CHOICE,
log entry 165. -/
def State.pwm (s : State) (p : PhaseId) : Level3 :=
  let paired := s.joined p
  let lead := if paired then pairLead p else p
  let h := s.hph lead
  let hiSide := decide (p = lead)
  if !s.dev.drivers then .highZ
  else if s.ph[lead].forced || s.forceNow lead || s.holder.isNone then (if paired then .low else .mid)
  else match h.pulse with
    | some q =>
      if paired then
        if hiSide then (if q.highAt h.act.dtRise s.steps then .high else .low) else (if q.lowAt s.steps then .high else .low)
      else if q.highAt 0 s.steps then .high else .low
    | none => match h.state with
      | .active => if paired && !hiSide then .high else .low
      | .on | .held => if hiSide then .high else .low
      | _ => if paired then .low else .mid

end Sys2Proof.Machine
end

