-- ==== Sys2Proof/Machine/Probe.lean ====
section
/-!
DEFINITION. Probe and trace of a context (07_rail_modes.md R215 to R221; 12 R377).
-/
namespace Sys2Proof.Machine

/-- π in units of 2^-96. -/
def piFix : Int := 248902613312231085230521944622
/-- One more term of the sine series: the term so far, its index and the sum, in units of 2^-96. -/
def sineTerms (x2 : Int) : Nat → Int → Int → Int → Int
  | 0, _, _, sum => sum
  | n + 1, i, term, sum =>
    let t := -(term * x2) / ((2 : Int) ^ 96 * ((2 * i) * (2 * i + 1)))
    sineTerms x2 n (i + 1) t (sum + t)
/-- The sine of a quarter turn's k-th part of 1,024, in units of 2^-96. -/
def sineQuarter (k : Nat) : Int :=
  let x := piFix * k / 2048
  sineTerms (x * x / (2 : Int) ^ 96) 24 1 x x
/-- S[k] of R216: round(8,388,607 × sin(2πk ÷ 4096)), ties away from zero. -/
def sineTable (k : Nat) : Int :=
  let k := k % 4096
  let q := k / 1024
  let r := k % 1024
  let m := if q % 2 = 0 then r else 1024 - r
  let v := roundAway (8388607 * sineQuarter m) ((2 : Int) ^ 96)
  if q < 2 then v else -v

/-- Fields of PROBE_CFG (R225). -/
def State.probeForm (s : State) (c : CtxId) : Bool := bitOf (s.cp c .probeCfg) 31
def State.probeOrder (s : State) (c : CtxId) : Nat := bitsOf (s.cp c .probeCfg) 27 4
def State.probeCycles (s : State) (c : CtxId) : Nat := bitsOf (s.cp c .probeCfg) 16 8
def State.probeSettle (s : State) (c : CtxId) : Nat := bitsOf (s.cp c .probeCfg) 8 8

/-- The taps of R218 as a mask, s[1] in bit 0. -/
def seqTaps : Nat → BitVec 15
  | 7 => 0x60
  | 8 => 0xB8
  | 9 => 0x110
  | 10 => 0x240
  | 11 => 0x500
  | 12 => 0x829
  | 13 => 0x100D
  | 14 => 0x2015
  | _ => 0x6000
/-- Parity of a register's bits. -/
def parity (x : BitVec 15) : Bool := (List.range 15).foldl (fun a j => a != x.getLsbD j) false
/-- One shift of the register (R218). -/
def seqShift (order : Nat) (x : BitVec 15) : BitVec 15 :=
  let b := parity (x &&& seqTaps order)
  ((x <<< 1) ||| (if b then 1 else 0)) &&& BitVec.ofNat 15 (2 ^ order - 1)
def seqSeed (order : Nat) : BitVec 15 := BitVec.ofNat 15 (2 ^ order - 1)

/-- Write a capture word in both halves' cells (R67). -/
def State.capPut (s : State) (c : CtxId) (a : Nat) (w : Word) : State := s.halves (fun x => x.modCell c (fun k => k.capPut a w))

def State.modProbe (s : State) (c : CtxId) (f : Probe → Probe) : State := s.modCtx c (fun x => { x with probe := f x.probe })

/-- Phase increment of a sine point (R216). -/
def State.probeInc (s : State) (c : CtxId) (i : Nat) : State × Nat :=
  if i < 64 then ((s.capRead c i).1, (s.capRead c i).2.toNat) else (s, 0)
/-- The table entry ends the probe with ABORTED: above 2^29, or below round(10 Hz ÷ f_v × 2^32) (R216). -/
def State.probeBadInc (s : State) (c : CtxId) (inc : Nat) : Bool :=
  decide (2 ^ 29 < inc) || decide ((inc : Int) < roundAway (10 * s.ratio c * 4294967296) 25000000)

/-- A probe has finished (R220). -/
def State.probeDone (s : State) (c : CtxId) : State :=
  let s := s.modProbe c (fun p => { p with st := .done, done := true, injV := 0, injI := 0 })
  s.event c.val evProbeDone (s.probeWord c) 0

/-- Begin a sine point, or end the sweep at the end of its table (R216). -/
def State.probePoint (s : State) (c : CtxId) (i : Nat) : State :=
  let r := s.probeInc c i
  let s := r.1
  let inc := r.2
  if inc = 0 then s.probeDone c
  else if s.probeBadInc c inc then s.modProbe c (fun p => { p with st := .aborted, injV := 0, injI := 0 })
  else s.modProbe c (fun p => { p with st := if s.probeSettle c = 0 then .integrating else .settling, point := i, acc := 0,
                                       cycles := 0, inI := 0, inQ := 0, outI := 0, outQ := 0 })

/-- Start of a probe at the boundary at which its bit takes effect (R215), and its abort and release as the bit or PASS
says (R203, R206). -/
def State.probeStart (s : State) (c : CtxId) : State :=
  let x := s.ctx[c]
  let bit := bitOf (x.p .mode) modeProbe
  let seen := x.probe.bitSeen
  let s := s.modProbe c (fun p => { p with bitSeen := bit })
  if bit && !seen then
    if x.mode.passInForce then
      s.modCtx c (fun x => { x with probe := { x.probe with st := .refusedPass }, mode := { x.mode with probeRefused := true } })
    else if x.owner = .trace then
      s.modCtx c (fun x => { x with probe := { x.probe with st := .refusedBusy }, mode := { x.mode with probeRefused := true } })
    else
      let s := s.modCtx c (fun x => { x with owner := .probe })
      if s.probeForm c then
        s.modProbe c (fun p => { p with st := .integrating, point := 0, seq := seqSeed (s.probeOrder c), chipCount := 0, chips := 0,
                                        periods := 0, wptr := 0 })
      else s.probePoint c 0
  else if !bit && seen then
    s.modCtx c (fun x => { x with probe := x.probe.abort, owner := if x.owner = .probe then .none else x.owner })
  else if x.mode.passInForce then s.modProbe c Probe.abort
  else s
/-- A probe runs or is paused (R201). -/
def Probe.live (p : Probe) : Bool :=
  match p.st with
  | .settling | .integrating | .paused => true
  | _ => false

/-- Pause and resume of a probe (R220). -/
def State.probePause (s : State) (c : CtxId) (pause : Bool) : State :=
  let p := s.ctx[c].probe
  if !p.live then s
  else if pause then
    s.modProbe c (fun p => { p with st := .paused, injV := 0, injI := 0 })
  else if p.st = .paused then
    if s.probeForm c then
      s.modProbe c (fun p => { p with st := .integrating, seq := seqSeed (s.probeOrder c), chipCount := 0, chips := 0, periods := 0 })
    else s.probePoint c p.point
  else s

/-- The injection of this boundary (R216, R218): steps 1 and 2, or the chip value. -/
def State.probeInject (s : State) (c : CtxId) (cur : Bool) : State :=
  let p := s.ctx[c].probe
  let amp := s.cp c .probeAmp
  let put (v : Int) (q : Probe) : Probe := if cur then { q with injV := 0, injI := v } else { q with injV := v, injI := 0 }
  match p.st with
  | .settling | .integrating =>
    if s.probeForm c then
      if p.chipCount = 0 then
        let hi := p.seq.getLsbD (s.probeOrder c - 1)
        s.modProbe c (fun q => put (if hi then amp else -amp) { q with chipVal := hi, seq := seqShift (s.probeOrder c) q.seq })
      else s.modProbe c (put (if p.chipVal then amp else -amp))
    else s.modProbe c (put ((amp * sineTable (p.acc / 2 ^ 20)) / 8388608))
  | _ => s.modProbe c (put 0)

/-- A 64-bit sum that stops at its bound (R216). -/
def sum64 (a b : Int) : Int × Bool := (clamp (a + b) (-9223372036854775808) 9223372036854775807, clamps (a + b) (-9223372036854775808) 9223372036854775807)

/-- Store a point's sums (R217). -/
def State.storeSums (s : State) (c : CtxId) : State :=
  let p := s.ctx[c].probe
  let a := 0x40 + 8 * p.point
  let hi (v : Int) : Word := word (field v 64 / 4294967296)
  let lo (v : Int) : Word := word (field v 64)
  let s := ((s.capPut c a (hi p.inI)).capPut c (a + 1) (lo p.inI)).capPut c (a + 2) (hi p.inQ)
  let s := ((s.capPut c (a + 3) (lo p.inQ)).capPut c (a + 4) (hi p.outI)).capPut c (a + 5) (lo p.outI)
  (s.capPut c (a + 6) (hi p.outQ)).capPut c (a + 7) (lo p.outQ)

/-- A pair of the sequence form (R219). -/
def State.probePair (s : State) (c : CtxId) (inp out : Int) : State :=
  let p := s.ctx[c].probe
  let next := (p.wptr + 2) % 1792
  if next = (s.cp c .probeRptr).toNat then
    s.modProbe c (fun q => { q with overruns := capInc q.overruns 65535, overrun := true })
  else
    let n := s.ctx[c].outerCount
    let s := (s.capPut c p.wptr (ringWord n inp)).capPut c (p.wptr + 1) (ringWord n out)
    s.modProbe c (fun q => { q with wptr := next })

/-- After the outer step: sums, captures and the move to the next chip, cycle or point (R216 to R220). -/
def State.probeAfter (s : State) (c : CtxId) (inp out : Int) : State :=
  let p := s.ctx[c].probe
  match p.st with
  | .settling | .integrating =>
    if s.probeForm c then
      let s := s.probePair c inp out
      let chip := max 1 (s.probeSettle c)
      if p.chipCount + 1 < chip then s.modProbe c (fun q => { q with chipCount := q.chipCount + 1 })
      else if p.chips + 1 < 2 ^ s.probeOrder c - 1 then s.modProbe c (fun q => { q with chipCount := 0, chips := q.chips + 1 })
      else if p.periods + 1 < s.probeCycles c then
        s.modProbe c (fun q => { q with chipCount := 0, chips := 0, periods := q.periods + 1 })
      else s.probeDone c
    else
      let idx := p.acc / 2 ^ 20
      let si := sineTable idx
      let sq := sineTable (idx + 1024)
      let s := if p.st = .integrating then
          let a := sum64 p.inI (inp * si)
          let b := sum64 p.inQ (inp * sq)
          let d := sum64 p.outI (out * si)
          let e := sum64 p.outQ (out * sq)
          s.modProbe c (fun q => { q with inI := a.1, inQ := b.1, outI := d.1, outQ := e.1,
                                          sumSat := q.sumSat || a.2 || b.2 || d.2 || e.2 })
        else s
      let r := s.probeInc c p.point
      let t := p.acc + r.2
      let s := r.1.modProbe c (fun q => { q with acc := t % 4294967296 })
      if t < 4294967296 then s
      else
        let n := p.cycles + 1
        if p.st = .settling then
          s.modProbe c (fun q => if n < s.probeSettle c then { q with cycles := n } else { q with st := .integrating, cycles := 0 })
        else if n < s.probeCycles c then s.modProbe c (fun q => { q with cycles := n })
        else (s.storeSums c).probePoint c (p.point + 1)
  | _ => s

/-- A signal of a trace as R68 forms it (R377): the second word of context 0 is its shunt current. -/
def State.traceSignal (s : State) (c : CtxId) (sumI : Int) : Nat → Int
  | 0 => (s.cell c).vmeas.v
  | 1 => if c.val = 0 then (s.cell c).portIsw.v else (s.cell c).err.v
  | 2 => (s.cell c).icmd.v
  | _ => sumI

/-- A trace stops (R377). -/
def State.traceStop (s : State) (c : CtxId) : State :=
  let x := s.ctx[c]
  let oldest := if x.tracePairs < 896 then 0 else x.tracePos
  let s := s.modCtx c (fun x => { x with traceRunning := false })
  s.event c.val evTraceDone (word oldest) 0

/-- A running trace at a boundary (R377). -/
def State.traceStep (s : State) (c : CtxId) (sumI : Int) : State :=
  let x := s.ctx[c]
  if !x.traceRunning then s
  else if 0 < x.traceSkip then s.modCtx c (fun x => { x with traceSkip := x.traceSkip - 1 })
  else
    let n := x.outerCount
    let a := s.traceSignal c sumI (bitsOf x.traceWord.toNat 30 2)
    let b := s.traceSignal c sumI (bitsOf x.traceWord.toNat 28 2)
    let s := (s.capPut c x.tracePos (ringWord n a)).capPut c (x.tracePos + 1) (ringWord n b)
    let s := s.modCtx c (fun x =>
      { x with tracePos := (x.tracePos + 2) % 1792, tracePairs := x.tracePairs + 1, traceSkip := bitsOf x.traceWord.toNat 8 8 - 1,
               traceTail := x.traceTail.map (· - 1) })
    match x.traceTail with
    | some k => if k ≤ 1 then s.traceStop c else s
    | none => if bitsOf x.traceWord.toNat 26 2 = 0 ∧ 896 ≤ x.tracePairs + 1 then s.traceStop c else s

end Sys2Proof.Machine
end

