-- ==== Sys2Proof/Machine/Bind.lean ====
section
/-!
DEFINITION. Binding of phases at a boundary (01 R21, R22), the active phases (04 R129 to R133), the effective set (07
R200 to R214) and the target (03 R74 to R78).
-/
namespace Sys2Proof.Machine

/-- A phase leaves its context at a boundary of sample t: at once where no pulse is in flight, else at its pulse's end;
a HELD phase falls with the outer step (R22). -/
def HPhase.leave (h : HPhase) (t pf : Nat) : HPhase :=
  match h.state, h.pulse with
  | .held, _ => { h.drop pf with leaving := true }
  | _, some _ => { h with leaving := true }
  | _, none => { h with state := .unbound, bind := 0, parkedTag := some t }

/-- The phases that a context holds and does not own leave it (R22). -/
def Half.releaseAll (x : Half) (owner : PhaseId → CtxId) (c : CtxId) (t : Nat) : Half :=
  let pf := x.boundaryTick c t
  phaseIds.foldl (fun (x : Half) (p : PhaseId) =>
    let h := x.ph[p]
    if h.bind = c ∧ h.state ≠ .unbound ∧ h.leaving = false ∧ owner p ≠ c then
      { x with ph := x.ph.set p (h.leave t pf), edges := x.edges ++ h.dropEdges p pf }
    else x) x

/-- The timing words a phase is acquired with: those in force (R124). -/
def State.timingOf (s : State) (c : CtxId) (p : PhaseId) : TimingSet :=
  { tmin := (s.pp p .tmin).toNat, dtRise := (s.pp p .dtRise).toNat, dtFall := (s.pp p .dtFall).toNat,
    tpause := (s.cp c .tpause).toNat, tonMax := (s.cp c .tonMax).toNat, thr := s.ph[p].throttle }

/-- A phase that may be acquired by context c at a boundary of sample t (R22, R112). -/
def State.acquirable (s : State) (x : Half) (c : CtxId) (t : Nat) (p : PhaseId) : Bool :=
  let h := x.ph[p]
  decide (s.ownerOf p = c) && !s.follower p && decide (h.state = .unbound) && decide (h.bind.val = 0)
    && (match h.parkedTag with
      | none => true
      | some u => decide (u < t))

/-- Acquisition: the phase is bound and parked, its stores and remainder registers 0 (R22, R59). -/
def State.acquireAll (s : State) (c : CtxId) (t : Nat) (x : Half) : Half :=
  phaseIds.foldl (fun (y : Half) (p : PhaseId) =>
    if s.acquirable x c t p then
      let h := x.ph[p]
      { y with ph := y.ph.set p { state := .parked, bind := c, raw := h.raw, rawTag := h.rawTag, gain := h.gain, offset := h.offset, azSum := h.azSum, lastEnd := h.lastEnd, pend := s.timingOf c p,
                                  act := s.timingOf c p } }
    else y) x

/-- A phase that a context has just acquired starts without what its overcurrent test saw for another context (R258). -/
def PhaseS.fresh (x : PhaseS) : PhaseS := { x with ocSeen := false, ocTimer := 0 }
/-- Releases and acquisitions of a context at its boundary; an acquired phase whose group is asserted is FORCED (R22,
R255), and its overcurrent test starts afresh (R258). -/
def State.rebind (s : State) (c : CtxId) : State :=
  if c.val = 0 then s
  else
    let t := s.enables
    let s := s.halves (fun x => x.releaseAll s.ownerOf c t)
    let got (p : PhaseId) : Bool := s.acquirable (s.half s.serving) c t p
    let s := { s with ph := every s.ph (fun p x => if got p then x.fresh else x) }
    let s := s.halves (s.acquireAll c t)
    { s with ph := every s.ph (fun p x => if (s.hph p).bind = c ∧ (s.hph p).state = .parked ∧ s.forceNow p = true then { x with forced := true } else x) }

/-- A phase that counts in n_act. -/
def HPhase.isActive (h : HPhase) : Bool :=
  match h.state, h.pulse with
  | .active, _ => true
  | .on, some q => !q.parks
  | _, _ => false
/-- An added phase joins the rotation (R133). -/
def HPhase.activate (h : HPhase) : HPhase :=
  match h.state, h.pulse with
  | .parked, _ => { h with state := .active }
  | .on, some q => { h with pulse := some { q with parks := false } }
  | _, _ => h
def Half.modList (x : Half) (l : List PhaseId) (f : HPhase → HPhase) : Half := l.foldl (fun x p => x.modPh p f) x
def Half.actives (x : Half) (bound : List PhaseId) : List PhaseId := bound.filter (fun p => x.ph[p].isActive)

/-- The active phases become n of the available ones: unavailable phases park, additions take the lowest-numbered parked ones,
sheds the highest-numbered active one (R129, R133). Where fewer are parked than are to be added, because a shed phase is still in
its pulse, that phase is taken back at once: DESIGN CHOICE, log entry 132. -/
def Half.setActive (x : Half) (bound avail : List PhaseId) (n : Nat) : Half :=
  let x := x.modList (bound.filter (fun p => x.ph[p].isActive && !avail.contains p)) HPhase.park
  let act := x.actives bound
  if act.length < n then
    let parked := avail.filter (fun p => decide (x.ph[p].state = .parked))
    let ending := avail.filter (fun p => !x.ph[p].isActive && decide (x.ph[p].state ≠ .parked))
    x.modList ((parked ++ ending).take (n - act.length)) HPhase.activate
  else x.modList (act.reverse.take (act.length - n)) HPhase.park

/-- n_act in both halves, with its active phases. -/
def State.setNAct (s : State) (c : CtxId) (n : Nat) : State :=
  let avail := s.avail c
  s.halves (fun x => (x.setActive (x.bound c) avail n).modCell c (fun k => { k with nAct := n }))

/-- n_act before the law, where PASS is not in force (R92, R128, R203): every available phase while SHED is out of E, else those of the active phases that are
available, at least one (R129 to R131). -/
def State.preAct (s : State) (c : CtxId) : State :=
  if s.ctx[c].mode.passInForce then s else
  let avail := s.avail c
  let shed := s.ctx[c].inE modeShed
  let act := ((s.half s.serving).actives (s.bound c)).filter (fun p => avail.contains p)
  s.setNAct c (if shed then max 1 (min act.length avail.length) else avail.length)

/-- The bus of R209 at this boundary: context 0's VMEAS as R95 looks back on it, at full resolution. -/
def State.bus (s : State) : Int := ((s.cell 0).lookBack s.enables).vmeas.v

/-- PASS at a boundary (R207, R209): in force, waiting for headroom, and blocked by a high bus. -/
structure PassNow where
  force : Bool
  wait : Bool
  blocked : Bool
def State.passNow (s : State) (c : CtxId) : PassNow :=
  let x := s.ctx[c]
  let cur := x.mode.passInForce
  let bit := bitOf (x.p .mode) modePass
  if !bit || s.dev.rundown.isSome || (s.avail c).isEmpty then ⟨false, bit && x.mode.passWait, false⟩
  else if s.bus > x.p .voutMax then ⟨false, x.mode.passWait || cur, cur⟩
  else if cur || !x.mode.passWait then ⟨true, false, false⟩
  else if s.bus ≤ x.p .voutMax - x.p .passHeadroom then ⟨true, false, false⟩
  else ⟨false, true, false⟩

/-- The effective set from the MODE word, with PASS as it stands (R201, R203). PROBE joins while it runs. -/
def effective (mode : Nat) (pass rundown live : Bool) : BitVec 8 :=
  let b (k : Nat) : Bool := mode.testBit k
  let track := b modeTrack && !pass && !rundown
  BitVec.ofNat 8 (flag pass modePass + flag track modeTrack + flag (b modeCurrent) modeCurrent
    + flag (b modeCommand && !track) modeCommand + flag (b modeSchedule) modeSchedule + flag (b modeShed && !pass) modeShed
    + flag (b modeOfftime && !pass) modeOfftime + flag (b modeProbe && !pass && live) modeProbe)

/-- The leader of a context and whether it is lost (R213). -/
def State.leader (s : State) (c : CtxId) : CtxId := ⟨(s.cp c .trackLeader).toNat % 64, by omega⟩
def State.leaderIsLost (s : State) (c : CtxId) : Bool :=
  let l := s.ctx[s.leader c]
  !l.regulating || l.mode.passInForce

/-- What the change of E asks of this boundary's step: the starting current of a reseat (R205, R206). -/
structure Entry where
  leftCurrent : Bool
  leftPass : Bool

/-- PASS of a boundary, with its flags, and the probe's start or abort (R209, R215). -/
def State.formPass (s : State) (c : CtxId) : State :=
  let now := s.passNow c
  let s := s.modCtx c (fun x => { x with mode := { x.mode with passInForce := now.force, passWait := now.wait,
                                                               passBlocked := x.mode.passBlocked || now.blocked } })
  s.probeStart c

/-- A context's E of this boundary, and its entries and exits (R201, R206, R213). -/
def State.formE (s : State) (c : CtxId) : State × Entry :=
  let old := s.ctx[c].mode.eff
  let oldLost := s.ctx[c].mode.leaderLost
  let s := s.formPass c
  let x := s.ctx[c]
  let mode := (x.p .mode).toNat
  let e := effective mode x.mode.passInForce s.dev.rundown.isSome x.probe.live
  let was (k : Nat) : Bool := old.getLsbD k
  let is (k : Nat) : Bool := e.getLsbD k
  let lost := is modeTrack && s.leaderIsLost c
  let back := is modeTrack && oldLost && !lost
  let s := s.modCtx c (fun x =>
    { x with
      mode := { x.mode with eff := e, leaderLost := lost, trackIgnored := x.mode.trackIgnored || (mode.testBit modeTrack && x.mode.passInForce),
                            rejoin := if is modeTrack then x.mode.rejoin || !was modeTrack || back else false },
      tgtFresh := x.tgtFresh || (was modeCommand && !is modeCommand && x.tarn.inForce.isSome) || (was modeCurrent && !is modeCurrent)
      tarn := if was modeCommand && !is modeCommand then { x.tarn with inForce := none } else x.tarn })
  let s := if was modeSchedule && !is modeSchedule then s.flush c else s
  let s := if is modeShed && !was modeShed then
      (s.setNAct c (s.avail c).length).halves (fun h => h.modCell c (fun k => { k with dwell := 0 }))
    else s
  (s, { leftCurrent := was modeCurrent && !is modeCurrent, leftPass := was modePass && !is modePass })

/-- The voltage a Tarn request asks for, clamped into its window (R412). -/
def tarnTarget (value : Nat) (vmin vmax : Int) : Int := clamp (tarnCode value) vmin vmax
def State.tarnVolt (s : State) (c : CtxId) (r : TarnReq) : Int := tarnTarget r.value (s.cp c .tarnVmin) (s.cp c .tarnVmax)
def State.tarnCur (s : State) (c : CtxId) (r : TarnReq) : Int :=
  clamp (signed16 r.value * 256) (s.cp c .iMin) (s.cp c .iMax)

/-- The tracked value of R92 as a plain target, for the rejoin (R213). -/
def State.trackedTarget (s : State) (c : CtxId) : Int :=
  let l := (s.cell (s.leader c)).lookBack s.enables
  clamp (roundTo (s.cp c .trackRatio * l.ref.v + s.cp c .trackOffset * F24) F24) 0 (s.cp c .voutMax)

/-- TRACK sets the reference: TRACK in E without CURRENT (R74, R214). -/
def Ctx.follows (x : Ctx) : Bool := x.inE modeTrack && !x.inE modeCurrent

/-- The source of the target before its clamp (R74). -/
def State.rawTarget (s : State) (c : CtxId) : Int :=
  if s.ctx[c].inE modeCurrent then s.cp c .voutMax
  else match s.inForce c 1 with
    | some r => s.tarnVolt c r
    | none => s.cp c .vset

def sgn (x : Int) : Int := if 0 < x then 1 else if x < 0 then -1 else 0

/-- A target that takes effect at this boundary, against the exact reference X (R78); where the reference followed a
leader, any target that X does not stand on is a redirect (R206). -/
def Ctx.retarget (x : Ctx) (tgt : Int) (gap0 : Int) (gap1 : Int) (counts : Bool) : Ctx :=
  if counts && (if x.tracked then decide (gap1 ≠ 0) else decide (tgt ≠ x.tgt) && decide (gap0 ≠ 0)) then
    { x with tgt := tgt, redirects := capInc x.redirects 65535, redirected := true,
             reversed := x.reversed || decide (sgn gap1 ≠ x.gapSign) }
  else { x with tgt := tgt }

/-- The target of this boundary (R74 to R76, R78). A clamp sets TGT_CLAMPED wherever a target takes effect or its window does (R75): at
a write or a request, as regulation begins, and as TRACK, CURRENT or a request leaves, its value being that of VSET or not. At a boundary with a reseat (R205) the new target
is judged against the X of before REF is loaded anew: DESIGN CHOICE, log entry 136. A context that follows its leader takes the tracked value while it
rejoins, and otherwise what its REF stage wrote. -/
def State.formTarget (s : State) (c : CtxId) : State :=
  let x := s.ctx[c]
  let k := s.cell c
  let ref := k.ref.v * F24 + k.remRef.v
  let put (tgt : Int) (y : Ctx) : Ctx := y.retarget tgt (ref - y.tgt * F24) (tgt * F24 - ref) (!x.firstStep)
  if s.dev.rundown.isSome then s.modCtx c (fun y => { (put 0 y) with tgtSrc := (0, 0, 0), tracked := false })
  else if x.follows then
    s.modCtx c (fun y => { y with tgt := if y.mode.rejoin then s.trackedTarget c else y.tgt, tracked := true })
  else
    let raw := s.rawTarget c
    let lo := x.p .voutMin
    let hi := x.p .voutMax
    let src := (raw, lo, hi)
    s.modCtx c (fun y =>
      { (put (clamp raw lo hi) y) with
        tgtSrc := src, tracked := false, tgtFresh := false,
        tgtClamped := y.tgtClamped || ((y.tgtFresh || y.tracked || y.firstStep || decide (src ≠ y.tgtSrc)) && clamps raw lo hi) })

end Sys2Proof.Machine
end

