-- ==== Sys2Proof/Machine/Profile.lean ====
section
/-!
DEFINITION. The schedule at an outer-sample boundary (06_section_schedule.md, R184 to R193): lead, gate timer, rise,
profile, floor and ending.
-/
namespace Sys2Proof.Machine

/-- A field time in units of 2^-40 microseconds has come at a boundary's broadcast field time, by serial arithmetic
over 48 bits and the word's 8 further bits (R171, R172, R482). -/
def ftReached (word256 t256 : Nat) : Bool := serialAtOrAfter 56 word256 (t256 % 2 ^ 56)

/-- The field-time word n boundaries ahead of a word at hand, by the rate word (R184, log entry 2). -/
def State.ftWordAhead (s : State) (c : CtxId) (word256 n : Nat) : Nat :=
  ((word256 * 2 ^ 32 + n * (16 * s.ratio c) * s.ft.rate) % 2 ^ 88) / 2 ^ 32

/-- The gate instant t − d in units of 2^-40 microseconds (R185). -/
def gateInstant (t d : Nat) : Nat := (t * 2 ^ 40 + 2 ^ 88 - d * 2 ^ 40 / usTicks) % 2 ^ 88

/-- An event's lead boundary: the profile may begin, and the Heath's gate timer is armed (R184, R185). -/
def Event.lead_ (e : Event) (word : Nat) (dOn dOff : Nat) : Event :=
  if !e.entered || e.leadDone || e.ended || e.withdrawing then e
  else if e.late || ftReached word ((e.t + 2 ^ 48 - e.lead) * 256) then
    { e with leadDone := true,
             armed := match e.kind with
               | .on => some (gateInstant e.t dOn)
               | .off => some (gateInstant e.t dOff)
               | .step => none }
  else e

/-- k of R187 at this boundary: it starts at the rise boundary with the profile's parameters of that instant (R197). -/
def Event.advance (e : Event) (ahead : Nat) (rise settle handover : Nat) : Event :=
  if !e.entered || e.ended then e
  else if 0 < e.k then { e with k := e.k + 1 }
  else if e.leadDone && ftReached ahead (e.t * 256) then { e with k := 1, rise := rise, settle := settle, handover := handover }
  else e

/-- An event whose expected change is 0 is confirmed at t (R189). -/
def Event.confirmZero (e : Event) (word : Nat) : Event :=
  if decide (e.di = 0) && e.entered && !e.confirmed && !e.closed && ftReached word (e.t * 256) then { e with confirmed := true, confTime := 0 }
  else e

/-- B_t of an event falls at the first boundary whose word is at or after t (R172, R194). -/
def Event.reach (e : Event) (word : Nat) : Event := { e with reached := e.reached || (e.entered && ftReached word (e.t * 256)) }

/-- f of an event at a boundary in one half, before PASS (R187): a withdrawing profile falls by the slew, and says when it has come
to 0. -/
def Event.form (e : Event) (slew : Int) (f : Tagged) : Tagged × Bool :=
  let k : Int := e.k
  let r : Int := e.rise
  let st : Int := e.settle
  let h : Int := e.handover
  if e.withdrawing then
    if f.v > slew then (tag (f.v - slew), false) else if f.v < -slew then (tag (f.v + slew), false) else (tag 0, true)
  else if k ≤ 0 then (tag 0, false)
  else if k ≤ r then (tag ((e.peak * k).fdiv r), false)
  else if k ≤ r + st then (tag (e.peak + ((e.di - e.peak) * (k - r)).fdiv st), false)
  else if k ≤ r + st + h then (tag (e.di - (e.di * (k - r - st)).fdiv h), false)
  else (tag 0, false)
/-- The profile is complete, and the event confirmed (R187). -/
def Event.complete (e : Event) : Bool :=
  !e.withdrawing && !e.ended && decide (e.rise + e.settle + e.handover ≤ e.k) && decide (0 < e.k) && e.confirmed
/-- The profile of one event at a boundary, in both halves (R187, R188); the serving half says when a withdrawal has ended. -/
def Event.profile (e : Event) (slew : Int) (pass : Bool) (serving : HalfId) : Event :=
  if !e.entered || e.ended then e
  else
    let a := e.form slew e.fE
    let b := e.form slew e.fW
    let gone := match serving with
      | .east => a.2
      | .west => b.2
    { e with fE := if pass then tag 0 else a.1, fW := if pass then tag 0 else b.1,
             withdrawing := e.withdrawing && !gone, ended := gone || e.complete }

/-- The sum of a half's profiles on its way to IFF (R187). -/
def iffSum (es : List Event) (f : Event → Tagged) : Acc := es.foldl (fun a e => a.add (f e).acc) (accOf 0)

/-- The sums that R187 forms in East and in West. -/
structure Iff where
  east : Acc := accOf 0
  west : Acc := accOf 0

/-- The schedule of a context at a boundary, from the field-time word at the cell's port (R172): what R187 forms, and the sums. Parameters
are those of the last boundary: one that takes effect at this tag is for later rise boundaries (R197). -/
def State.schedRun (s : State) (c : CtxId) : State × Iff :=
  let x := s.ctx[c]
  let w := (s.cell c).ftWord.v.toNat
  let ahead := s.ftWordAhead c w x.sched.adv
  let pass := x.mode.passInForce
  let es := x.sched.events.map (fun e =>
    ((((e.reach w).lead_ w (learned x.chan.d8On) (learned x.chan.d8Off)).advance ahead x.sched.rise x.sched.settle x.sched.handover).confirmZero
      w).profile (s.cp c .schFfslew) pass s.serving)
  let i : Iff := { east := iffSum es Event.fE, west := iffSum es Event.fW }
  let v := match s.serving with
    | .east => i.east.v
    | .west => i.west.v
  (s.modSched c (fun y => { y with events := es, iffClamp := y.iffClamp || clamps v v24Lo v24Hi }), i)
/-- The schedule of a regulating context before its ICMD stage: it runs while SCHEDULE is in E (R187, R201). -/
def State.schedStep (s : State) (c : CtxId) : State × Iff := if s.ctx[c].inE modeSchedule then s.schedRun c else (s, {})

/-- What a boundary leaves for the next: the schedule parameters in force (R197). -/
def State.noteSched (s : State) (c : CtxId) : State :=
  let y := s.ctx[c]
  let n (e : CP) : Nat := (y.p e).toNat
  s.modSched c (fun x => { x with adv := n .schAdv, rise := n .schRise, settle := n .schSettle, handover := n .schHandover })

/-- The floor of one event (R184). -/
def floorOf (add : Nat → Int) (a : Nat) (x : Int) : Nat :=
  ((List.range a).find? (fun j => let n := j + 1
    if n ≤ 8 then decide (x ≤ add n) else decide (8 * x ≤ n * add 8))).elim a (· + 1)

/-- ADD_n and SHED_n for n from 1 to 8 (R132). -/
def State.addThr (s : State) (c : CtxId) (n : Nat) : Int := s.cp c (.add ⟨(n - 1) % 8, by omega⟩)
def State.shedThr (s : State) (c : CtxId) (n : Nat) : Int := s.cp c (.shed ⟨(n - 1) % 8, by omega⟩)

/-- N_FLOOR (R184): the largest floor among events past their lead boundary and not ended; none is formed under PASS (R203). -/
def floorAmong (pass : Bool) (es : List Event) : Nat :=
  if pass then 0 else (es.filter (fun e => e.leadDone && !e.ended)).foldl (fun m e => max m e.floor) 0
/-- Events that reached their lead boundary now take their floor, unless PASS is in force (R184, R203). -/
def State.formFloors (s : State) (c : CtxId) (before : List Event) : State :=
  let x := s.ctx[c]
  let a := (s.avail c).length
  let icmd := (s.cell c).icmd.v
  let fresh (e : Event) : Bool := e.leadDone && (before.all (fun b => b.serial ≠ e.serial || !b.leadDone))
  let es := x.sched.events.map (fun e =>
    if fresh e && !x.mode.passInForce then { e with floor := if 0 < e.peak then floorOf (s.addThr c) a (icmd + e.peak) else 0 } else e)
  s.modSched c (fun y => { y with events := es, nFloor := floorAmong x.mode.passInForce es })

/-- Ends of the windows that events leave open as they end: a confirmed event may end before its window closes (R189, R203). -/
def openWindows (conf : Nat) (es : List Event) : List Nat :=
  (es.filter (fun e => e.confirmed && e.leadDone && !e.closed)).map (fun e => (e.t + conf) % 2 ^ 48)
/-- Events that ended at this boundary leave their slots (R193): floors are formed again and the dwell count is 0. -/
def State.endEvents (s : State) (c : CtxId) : State :=
  let gone := s.ctx[c].sched.events.filter (fun e => e.ended)
  match gone with
  | [] => s
  | _ =>
    let pass := s.ctx[c].mode.passInForce
    let s := s.modSched c (fun y =>
      let es := y.events.filter (fun e => !e.ended)
      { y with events := es, nFloor := floorAmong pass es, windows := y.windows ++ openWindows (s.cp c .schConf).toNat gone })
    let s := s.halves (fun h => h.modCell c (fun k => { k with dwell := 0 }))
    gone.foldl (fun s e => s.endEntry c e) s

/-- The schedule holds the probe paused (R203): from a lead boundary until the last open window closes. -/
def State.schedHolds (s : State) (c : CtxId) : Bool :=
  let x := s.ctx[c].sched
  s.ctx[c].inE modeSchedule && (x.events.any (fun e => e.leadDone && !e.closed && !e.ended) || !x.windows.isEmpty)

/-- The schedule of a context that does not regulate, at its boundary: R187 goes by SCHEDULE alone, and R195 flushes what is held once it is
clear. -/
def State.schedIdle (s : State) (c : CtxId) : State :=
  if decide (s.dev.st = .run) && bitOf (s.cp c .mode) modeSchedule then
    let before := s.ctx[c].sched.events
    let r := s.schedRun c
    let t : State := { r.1 with east := r.1.east.modCell c (fun k => k.formIff r.2.east), west := r.1.west.modCell c (fun k => k.formIff r.2.west) }
    (t.formFloors c before).endEvents c
  else s.flush c

end Sys2Proof.Machine
end

