-- ==== Sys2Proof/Machine/FieldTime.lean ====
section
/-!
DEFINITION. Gate starts of the schedule, confirmation and conduction (06_section_schedule.md, R185 to R192; 08 R229,
R234, R241), and field time (R171 to R178, R196, R483).
-/
namespace Sys2Proof.Machine

/-- An event continues as a STEP (R186). -/
def State.asStep (s : State) (c : CtxId) (serial : Nat) : State := s.modSched c (fun x => x.modEvent serial (fun e => { e with asStep := true }))
/-- An ON event finds an ON of its channel deferred: it joins that start, and moves with it; where the start is already another
event's, it continues as a STEP behind it (R186; log entry 134). -/
def State.joinDeferred (s : State) (c : CtxId) (serial : Nat) (d : Deferred) : State :=
  let s := s.delayEvent c serial (d.due - s.clk.time)
  match d.event with
  | none => s.modChan c (fun x => { x with deferred := some { d with event := some serial } })
  | some _ => s.asStep c serial
/-- An ON event finds its channel STOPPING: it is held, like any ON command (R233); behind the held ON of another event it continues
as a STEP (log entry 134). -/
def State.holdOn (s : State) (c : CtxId) (serial : Nat) : State :=
  if s.ctx[c].chan.heldEv.isSome then s.asStep c serial
  else s.modChan c (fun x => { x with on := true, heldOn := true, heldEv := some serial })
/-- An ON event at its gate start (R186, R233). An OFF command of the same fast tick wins. -/
def State.gateOn (s : State) (c : CtxId) (serial : Nat) : State :=
  let x := s.ctx[c].chan
  match x.st with
  | .starting | .on => s.asStep c serial
  | .stopping => if x.offNow s.clk.time then s.missEvent c serial .notStarted else s.holdOn c serial
  | _ =>
    if x.offNow s.clk.time then s.missEvent c serial .notStarted
    else match x.deferred with
    | some d => s.joinDeferred c serial d
    | none => if s.mayStart c then s.startOrDefer c (some serial) else s.missEvent c serial .notStarted
/-- An OFF event at its gate start (R186, R233). -/
def State.gateOff (s : State) (c : CtxId) (serial : Nat) : State :=
  match s.ctx[c].chan.st with
  | .starting | .on => (s.offCmd c).modChan c (fun x => { x with offEv := some serial })
  | _ => (s.offCmd c).asStep c serial

/-- The gate start of an ON event would be held or deferred (R186, R233, R234). -/
def State.defers (s : State) (c : CtxId) (k : EvKind) : Bool :=
  let x := s.ctx[c].chan
  decide (k = .on) && !x.offNow s.clk.time
    && (x.deferred.isSome || decide (x.st = .stopping) || (s.mayStart c && (s.spacing c).isSome))

/-- The gate start of a switching event (R185, R186, R191); a held or deferred one supersedes when it comes about. -/
def State.gateEvent (s : State) (c : CtxId) (e : Event) : State :=
  let s := if s.defers c e.kind then s else s.supersede c e.serial
  let s := s.modSched c (fun x => x.modEvent e.serial (fun e => { e with armed := none, gateDone := true }))
  match e.kind with
  | .on => s.gateOn c e.serial
  | .off => s.gateOff c e.serial
  | .step => s

/-- The armed instant of an event has come, by the full field time (R185, R482). -/
def Event.due (e : Event) (ft : Nat) : Bool :=
  match e.armed with
  | none => false
  | some x => !e.gateDone && !e.ended && !e.withdrawing && serialAtOrAfter 88 ft x
/-- The due event of a context with the earliest t (R182). -/
def earliest : List Event → Option Event
  | [] => none
  | e :: es => match earliest es with
    | none => some e
    | some f => if serialNewer 48 e.t f.t then some f else some e

/-- GATE_START (R185, R186). -/
def execGateStart (c : CtxId) (s : State) : Host.Outcome State Fault Refusal :=
  match earliest (s.ctx[c].sched.events.filter (fun e => e.due s.ft.ft)) with
  | none => .next s
  | some e => .next (s.gateEvent c e)

/-- The deferred start of a channel finds that it may not start (R186, R232). -/
def State.deferredFails (s : State) (c : CtxId) (ev : Option Nat) : State :=
  let s := s.modChan c (fun x => { x with deferred := none, on := false })
  match ev with
  | some n => s.missEvent c n .notStarted
  | none => s.modChan c Chan.blocked

/-- The other deferred starts whose originals come first (R234). -/
def State.deferredFirst (s : State) (c : CtxId) (d : Deferred) : Bool :=
  ctxIds.all (fun b => match s.ctx[b].chan.deferred with
    | none => true
    | some x => decide (d.original < x.original) || (decide (d.original = x.original) && decide (c.val ≤ b.val)))

/-- DEFERRED_GATE_START (R234): the deferred start of a channel comes due. -/
def execDeferredGateStart (c : CtxId) (s : State) : Host.Outcome State Fault Refusal :=
  match s.ctx[c].chan.deferred with
  | none => .next s
  | some d =>
    if s.clk.time < d.due || !s.deferredFirst c d then .next s
    else
    let s := match d.event with
      | some n => s.supersede c n
      | none => s
    if s.mayStart c then .next ((s.gateRamp c).modChan c (fun x => { x with startEv := d.event })) else .next (s.deferredFails c d.event)

/-- An open confirmation window whose last word has arrived (R189). -/
def Event.timedOut (e : Event) : Bool := e.entered && e.lastHere && !e.closed && !e.confirmed && !e.ended && !e.withdrawing

/-- CONFIRMATION_TIMEOUT (R189, R190): the window of the oldest such event closes unconfirmed. -/
def execConfirmationTimeout (c : CtxId) (s : State) : Host.Outcome State Fault Refusal :=
  match s.ctx[c].sched.events.find? (Event.timedOut) with
  | none => .next s
  | some e => .next (s.missEvent c e.serial .missed)

/-- A measured delay enters D8 (R192). -/
def learn (d8 : Int) (d : Nat) : Int := d8 + d - d8 / 8
/-- A measurement belongs to the event that made the gate start (R192, R193). -/
def State.measured (s : State) (c : CtxId) (ev : Option Nat) (d : Nat) : State :=
  match ev with
  | none => s
  | some n => s.modSched c (fun x => x.modEvent n (fun e => { e with dMeas := some d }))

/-- A rising conduction edge at an instant: the first after a gate start proves the gate and is measured (R192, R229,
R241). One that a new ramp makes before the detector has stayed low for 10 µs leaves the pull-down before it without a last edge. -/
def State.riseEdge (s : State) (c : CtxId) (at_ : Nat) : State :=
  let k := s.ctx[c].chan
  let s := s.modChan c (fun x => { x with conducting := true, proven := x.proven || decide (x.st = .starting),
                                          measOff := if x.st = .starting ∨ x.st = .on then none else x.measOff })
  match k.measOn with
  | none => s
  | some t0 =>
    let d := at_ - t0
    let s := s.modChan c (fun x => { x with measOn := none, d8On := if d ≤ 80000 then learn x.d8On d else x.d8On })
    if d ≤ 80000 then s.measured c k.startEv d else s
/-- A falling edge; once the detector has stayed low for 4,000 fast ticks it was the last one (R192, R229). -/
def State.fallEdge (s : State) (c : CtxId) (at_ ago : Nat) : State :=
  let k := s.ctx[c].chan
  let s := s.modChan c (fun x => { x with conducting := false })
  match k.measOff with
  | none => s
  | some t0 =>
    if ago < 4000 then s
    else
      let d := at_ - t0
      let s := s.modChan c (fun x => { x with measOff := none, d8Off := if d ≤ 80000 then learn x.d8Off d else x.d8Off })
      if d ≤ 80000 then s.measured c k.offEv d else s

/-- CONDUCTION_EDGE (R192, R229): an edge of the conduction detector `ago` fast ticks ago. -/
def execConductionEdge (c : CtxId) (rising : Bool) (ago : Nat) (s : State) : Host.Outcome State Fault Refusal :=
  if rising then .next (s.riseEdge c (s.clk.time - ago)) else .next (s.fallEdge c (s.clk.time - ago) ago)

/-- A pending event that a step of field time has passed (R196). -/
def State.stepEvent (s : State) (c : CtxId) (e : Event) : State :=
  if serialNewer 48 s.ftUs ((e.t + 10000) % 2 ^ 48) then
    s.modSched c (fun x =>
      { x.modEvent e.serial (fun e => { e with withdrawing := true, outcome := some .expired, closed := true, armed := none,
                                               gateDone := true }) with expired := true })
  else
    let s := s.modSched c (fun x => { x with late := true, lateCount := capInc x.lateCount 255 })
    s.gateEvent c e
/-- Due events in the order of t (R182). -/
def insertDue (e : Event) : List Event → List Event
  | [] => [e]
  | f :: es => if serialNewer 48 f.t e.t then e :: f :: es else f :: insertDue e es
def sortDue (es : List Event) : List Event := es.foldl (fun a e => insertDue e a) []
/-- After a step or a load, every pending event is judged again (R196). -/
def State.afterStep (s : State) : State :=
  ctxIds.foldl (fun s c => (sortDue (s.ctx[c].sched.events.filter (fun e => e.due s.ft.ft))).foldl (fun s e => s.stepEvent c e) s) s

/-- Field time is stepped or loaded (R174 to R176). -/
def FieldT.stepTo (x : FieldT) (v : Nat) : FieldT :=
  { x with ft := v % 2 ^ 88, stepped := true, stepCount := capInc x.stepCount 255, locked := false, good := 0 }
/-- A load (R174). -/
def State.ftLoadAct (s : State) : State :=
  ({ s with ft := { s.ft.stepTo (s.ft.armLoad * 2 ^ 40) with valid := true, armBit := false, openArm := false } } : State).afterStep

/-- SRC and EDGE of FT_CFG in force (R173, R177). -/
def State.ftSrc (s : State) : Nat := bitsOf (s.gp .ftCfg) 0 2
def State.ftFalling (s : State) : Bool := bitOf (s.gp .ftCfg) 2

/-- A captured time follows the last accepted edge by k × P_s within 1 % of P_s (R173). -/
def follows (last now ps : Nat) : Bool :=
  let d := (now + 2 ^ 88 - last) % 2 ^ 88
  let u := ps * 2 ^ 40
  [1, 2, 3].any (fun k => decide (k * u ≤ d + u / 100) && decide (d ≤ k * u + u / 100))
/-- An edge is accepted (R173). -/
def State.edgeAccepted (s : State) : Bool :=
  s.ft.openSrc || s.ft.openArm || s.ft.holdover || (match s.ft.lastEdge with
    | none => false
    | some l => follows l s.ft.ft (pulseUs s.ftSrc))

/-- The phase error of a captured time: its distance from the nearest multiple of P_s, in units of 2^-40 microseconds
(R175). -/
def phaseError (ft ps : Nat) : Int :=
  let u := ps * 2 ^ 40
  let r := ft % u
  if 2 * r < u then r else (r : Int) - u
/-- An error as DEV.FT_STATUS shows it, in nanoseconds (R177; log entry 24). -/
def errorNs (e : Int) : Int := clamp (roundAway (e * 1000) ((2 : Int) ^ 40)) (-32767) 32767
/-- The limits of the rate word (R171, R483). -/
def rateLim (x : Int) : Nat := (clamp x 2748229313 2749328825).toNat

/-- What an accepted edge does with its error (R175, R176, R483). -/
def FieldT.discipline (x : FieldT) (e : Int) (ps : Nat) : FieldT :=
  let us : Int := (2 : Int) ^ 40
  let x := { x with phaseErr := errorNs e }
  if 100 * us < e.natAbs then x.stepTo ((x.ft : Int) - e).toNat
  else
    let good := if 10 * (e.natAbs : Int) ≤ us ∧ x.holdover = false then x.good + 1 else 0
    let x := { x with good := good, locked := (x.locked && !decide (us < 2 * (e.natAbs : Int))) || decide (4 ≤ good) }
    if x.holdover then x
    else
      let n : Int := 400 * ps
      let f := rateLim (x.freq + roundAway (-e) (16 * n))
      { x with freq := f, rate := rateLim (f + roundAway (-e) (4 * n)) }

/-- An accepted edge is over: what later edges are measured from (R173, R176). -/
def State.edgeDone (s : State) : State :=
  { s with ft := { s.ft with openSrc := false, openArm := false, holdover := false, lastEdge := some s.ft.ft, lastAt := s.clk.time } }

/-- TSYNC_EDGE (R173 to R176, R196, R483). -/
def execTsyncEdge (falling : Bool) (s : State) : Host.Outcome State Fault Refusal :=
  if s.ftSrc = 0 ∨ falling ≠ s.ftFalling ∨ s.clocked = false then .next s
  else if !s.edgeAccepted then .next { s with ft := { s.ft with glitch := true } }
  else if s.ft.armBit then .next s.ftLoadAct.edgeDone
  else if s.ft.openSrc || s.ft.openArm then .next ({ s with ft := { s.ft with good := 0 } } : State).edgeDone
  else
    let ps := pulseUs s.ftSrc
    let e := phaseError s.ft.ft ps
    let t := { s with ft := s.ft.discipline e ps }
    .next (if t.ft.ft = s.ft.ft then t else t.afterStep).edgeDone

/-- HOLDOVER (R176): no edge accepted for 3 × P_s. -/
def execHoldover (s : State) : Host.Outcome State Fault Refusal :=
  if s.ftSrc = 0 ∨ s.ft.holdover = true ∨ s.clk.time < s.ft.lastAt + 1200 * pulseUs s.ftSrc then .next s
  else .next { s with ft := { s.ft with holdover := true, locked := false, good := 0, rate := s.ft.freq } }

/-- FT_CFG takes effect (R173, R176). -/
def State.ftCfgApply (s : State) (old : Int) : State :=
  let src := s.ftSrc
  let moved := decide (bitsOf old 0 3 ≠ bitsOf (s.gp .ftCfg) 0 3)
  let srcMoved := decide (bitsOf old 0 2 ≠ src)
  { s with ft := { s.ft with
      openSrc := s.ft.openSrc || moved
      lastAt := if srcMoved then s.clk.time else s.ft.lastAt
      lastEdge := if srcMoved then none else s.ft.lastEdge
      holdover := s.ft.holdover && decide (src ≠ 0) } }

/-- The load value in force (R25, R174). -/
def State.ftLoadInForce (s : State) : Nat := bitsOf (s.gp .ftLoadHi) 0 16 * 4294967296 + (s.gp .ftLoadLo).toNat % 4294967296
/-- FT_CFG.ARM takes effect (R174, R177), with the FT_LOAD in force at its commit tag (log entry 135). -/
def State.ftArmApply (s : State) (on : Bool) : State :=
  if !on then { s with ft := { s.ft with armBit := false } }
  else
    let s : State := { s with ft := { s.ft with armLoad := s.ftLoadInForce } }
    if s.ftSrc = 0 then s.ftLoadAct else { s with ft := { s.ft with armBit := true, openArm := true } }

end Sys2Proof.Machine
end

