-- ==== Sys2Proof/Machine/Crypto.lean ====
section
/-!
DEFINITION. SHA-256, HMAC-SHA-256 (12_host_mailbox_and_pmbus.md, R383) and ECDSA over P-256 (10_summit_and_failover.md,
R304, R305): the published algorithms that the rules name.
-/
namespace Sys2Proof.Machine

/-- Round constants and initial state of SHA-256. -/
def shaK : List Word :=
  [0x428A2F98, 0x71374491, 0xB5C0FBCF, 0xE9B5DBA5, 0x3956C25B, 0x59F111F1, 0x923F82A4, 0xAB1C5ED5]
    ++ [0xD807AA98, 0x12835B01, 0x243185BE, 0x550C7DC3, 0x72BE5D74, 0x80DEB1FE, 0x9BDC06A7, 0xC19BF174]
    ++ [0xE49B69C1, 0xEFBE4786, 0x0FC19DC6, 0x240CA1CC, 0x2DE92C6F, 0x4A7484AA, 0x5CB0A9DC, 0x76F988DA]
    ++ [0x983E5152, 0xA831C66D, 0xB00327C8, 0xBF597FC7, 0xC6E00BF3, 0xD5A79147, 0x06CA6351, 0x14292967]
    ++ [0x27B70A85, 0x2E1B2138, 0x4D2C6DFC, 0x53380D13, 0x650A7354, 0x766A0ABB, 0x81C2C92E, 0x92722C85]
    ++ [0xA2BFE8A1, 0xA81A664B, 0xC24B8B70, 0xC76C51A3, 0xD192E819, 0xD6990624, 0xF40E3585, 0x106AA070]
    ++ [0x19A4C116, 0x1E376C08, 0x2748774C, 0x34B0BCB5, 0x391C0CB3, 0x4ED8AA4A, 0x5B9CCA4F, 0x682E6FF3]
    ++ [0x748F82EE, 0x78A5636F, 0x84C87814, 0x8CC70208, 0x90BEFFFA, 0xA4506CEB, 0xBEF9A3F7, 0xC67178F2]
def shaInit : List Word := [0x6A09E667, 0xBB67AE85, 0x3C6EF372, 0xA54FF53A, 0x510E527F, 0x9B05688C, 0x1F83D9AB, 0x5BE0CD19]

def rotr (x : Word) (n : Nat) : Word := x.rotateRight n
/-- The message schedule: each new word from the 16 before it, which are held newest first. -/
def shaExtend (w : List Word) : List Word :=
  let a := w.getD 1 0
  let b := w.getD 14 0
  let s1 : Word := rotr a 17 ^^^ rotr a 19 ^^^ (a >>> (10 : Nat))
  let s0 : Word := rotr b 7 ^^^ rotr b 18 ^^^ (b >>> (3 : Nat))
  (w.getD 15 0 + s0 + w.getD 6 0 + s1) :: w
/-- One round. -/
def shaRound (v : List Word) (k w : Word) : List Word :=
  match v with
  | [a, b, c, d, e, f, g, h] =>
    let s1 : Word := rotr e 6 ^^^ rotr e 11 ^^^ rotr e 25
    let ch : Word := (e &&& f) ^^^ (~~~ e &&& g)
    let t1 := h + s1 + ch + k + w
    let s0 : Word := rotr a 2 ^^^ rotr a 13 ^^^ rotr a 22
    let maj : Word := (a &&& b) ^^^ (a &&& c) ^^^ (b &&& c)
    [t1 + (s0 + maj), a, b, c, d + t1, e, f, g]
  | v => v
/-- One block of 16 words. -/
def shaBlock (h : List Word) (m : List Word) : List Word :=
  let w := (iter shaExtend 48 m.reverse).reverse
  List.zipWith (· + ·) h ((List.zip shaK w).foldl (fun v kw => shaRound v kw.1 kw.2) h)
/-- The padded message. -/
def shaPad (n : Nat) : List Byte := (0x80 : Byte) :: (List.replicate ((119 - n % 64) % 64) 0 ++ beBytes 8 (8 * n : Nat))
/-- Words of bytes, most significant byte first. -/
def beWords (n : Nat) (bs : List Byte) : List Word := (List.range n).map (fun j => BitVec.ofNat 32 (beNat ((bs.drop (4 * j)).take 4)))
/-- Blocks of 64 bytes, n of them. -/
def shaBlocks : Nat → List Word → List Byte → List Word
  | 0, h, _ => h
  | n + 1, h, bs => shaBlocks n (shaBlock h (beWords 16 (bs.take 64))) (bs.drop 64)
/-- SHA-256 of a byte string. -/
def sha256 (bs : List Byte) : List Byte :=
  let m := bs ++ shaPad bs.length
  (shaBlocks (m.length / 64) shaInit m).flatMap (fun w => beBytes 4 w.toNat)
/-- HMAC-SHA-256 with a key of at most 64 bytes (R383). -/
def hmacSha256 (key msg : List Byte) : List Byte :=
  let k := padTo 64 key
  sha256 (k.map (· ^^^ 0x5C) ++ sha256 (k.map (· ^^^ 0x36) ++ msg))

/-- P-256: field prime, group order, base point; the curve is y² = x³ − 3x + b. -/
def p256 : Nat := 0xFFFFFFFF00000001000000000000000000000000FFFFFFFFFFFFFFFFFFFFFFFF
def n256 : Nat := 0xFFFFFFFF00000000FFFFFFFFFFFFFFFFBCE6FAADA7179E84F3B9CAC2FC632551
def g256 : Nat × Nat :=
  (0x6B17D1F2E12C4247F8BCE6E563A440F277037D812DEB33A0F4A13945D898C296,
   0x4FE342E2FE1A7F9B8EE7EB4A7C0F9E162BCE33576B315ECECBB6406837BF51F5)

/-- x to the power e modulo m, for e below 2^k. -/
def powMod (m : Nat) : Nat → Nat → Nat → Nat
  | 0, _, _ => 1
  | k + 1, x, e => let r := powMod m k (x * x % m) (e / 2); if e % 2 = 1 then r * x % m else r
/-- Inverse modulo a prime below 2^256. -/
def invMod (m x : Nat) : Nat := powMod m 256 (x % m) (m - 2)
/-- Difference modulo m. -/
def subMod (m x y : Nat) : Nat := (x % m + (m - y % m)) % m

/-- Sum of two affine points; none is the point at infinity. -/
def ecAdd : Option (Nat × Nat) → Option (Nat × Nat) → Option (Nat × Nat)
  | none, q => q
  | p, none => p
  | some (x1, y1), some (x2, y2) =>
    if x1 = x2 ∧ (y1 + y2) % p256 = 0 then none
    else
      let l := if x1 = x2 then subMod p256 (3 * x1 * x1) 3 * invMod p256 (2 * y1) % p256
        else subMod p256 y2 y1 * invMod p256 (subMod p256 x2 x1) % p256
      let x := subMod p256 (l * l) (x1 + x2)
      some (x, subMod p256 (l * subMod p256 x1 x) y1)
/-- k times a point, for k below 2^n. -/
def ecMul : Nat → Nat → Option (Nat × Nat) → Option (Nat × Nat)
  | 0, _, _ => none
  | n + 1, k, q => let r := ecMul n (k / 2) (ecAdd q q); if k % 2 = 1 then ecAdd r q else r
/-- The ECDSA check of a signature (r, s) over a hash z against a public key. -/
def ecdsaOk (key : Nat × Nat) (z r s : Nat) : Bool :=
  if r = 0 ∨ n256 ≤ r ∨ s = 0 ∨ n256 ≤ s then false
  else
    let w := invMod n256 s
    match ecAdd (ecMul 256 (z * w % n256) (some g256)) (ecMul 256 (r * w % n256) (some key)) with
    | none => false
    | some (x, _) => decide (x % n256 = r)

end Sys2Proof.Machine
end

