-- ==== Sys2Proof/Machine/Flash.lean ====
section
/-!
DEFINITION. Code flash: its banks, the check of an image, and which image a half loads (10_summit_and_failover.md, R304 to
R307; 12 R379).
-/
namespace Sys2Proof.Machine

/-- Banks of code flash by half (R12): true for bank B. -/
def bankOf : HalfId → Bool
  | .east => false
  | .west => true

/-- Bytes of a bank (R379, R304). -/
def flashBytes : Nat := 524288
def Summit.flash (x : Summit) (b : Bool) : List (Nat × Option Word) := if b then x.flashB else x.flashA
def Summit.erased (x : Summit) (b : Bool) : Bool := if b then x.erasedB else x.erasedA
/-- A byte of a bank; word j holds bytes 4j to 4j + 3, byte 4j in [7:0] (R476). -/
def Summit.flashByte (x : Summit) (b : Bool) (a : Nat) : Byte :=
  match Memory.read none (x.flash b) (a / 4) with
  | some w => BitVec.ofNat 8 (w.toNat / 256 ^ (a % 4))
  | none => if x.erased b then 0xFF else Config.shippedFlash b a
def Summit.flashRead (x : Summit) (b : Bool) (a n : Nat) : List Byte := (List.range n).map (fun k => x.flashByte b (a + k))

/-- A bank loses its validity and its VERIFY outcome. -/
def Summit.invalidate (x : Summit) (b : Bool) : Summit :=
  if b then { x with bankBValid := false, verifiedB := false } else { x with bankAValid := false, verifiedA := false }
/-- A bank is erased (R305); it is invalid from the start of the erase (R307). -/
def Summit.eraseBank (x : Summit) (b : Bool) : Summit :=
  let x := x.invalidate b
  if b then { x with flashB := [], erasedB := true } else { x with flashA := [], erasedA := true }
/-- A word of a bank is programmed. -/
def Summit.program (x : Summit) (b : Bool) (j : Nat) (w : Word) : Summit :=
  if b then { x with flashB := Memory.write none x.flashB j (some w) } else { x with flashA := Memory.write none x.flashA j (some w) }
/-- A word of a bank is programmed since its last erase (R379). -/
def Summit.programmed (x : Summit) (b : Bool) (j : Nat) : Bool :=
  !x.erased b || (Memory.read none (x.flash b) j).isSome

/-- Fields of an image header (R304). -/
def Summit.imageLen (x : Summit) (b : Bool) : Nat := leNat (x.flashRead b 12 4)
def Summit.imageRelease (x : Summit) (b : Bool) : Nat := leNat (x.flashRead b 8 4)
def Summit.headerOk (x : Summit) (b : Bool) : Bool :=
  let n := x.imageLen b
  decide (leNat (x.flashRead b 0 4) = 0x4D524B31) && decide (leNat (x.flashRead b 4 4) = 1) && decide (256 ≤ n) && decide (n ≤ 524032)
    && decide (n % 256 = 0) && (x.flashRead b 112 144).all (· == 0)
def Summit.hashOk (x : Summit) (b : Bool) : Bool := decide (sha256 (x.flashRead b 256 (x.imageLen b)) = x.flashRead b 16 32)
def Summit.signatureOk (x : Summit) (b : Bool) : Bool :=
  ecdsaOk (Config.fwKeyX, Config.fwKeyY) (beNat (sha256 (x.flashRead b 0 48))) (beNat (x.flashRead b 48 32)) (beNat (x.flashRead b 80 32))
/-- The answer of VERIFY in the codes of DEV.FW_STATUS (R305, R321). -/
def Summit.verify (x : Summit) (b : Bool) : Nat :=
  if !x.headerOk b then 3
  else if !x.hashOk b then 4
  else if !x.signatureOk b then 5
  else if x.imageRelease b < x.floor.toNat then 6
  else 2
/-- A check of a bank, by BOOT, JTAG or VERIFY: its validity and its release follow (R317, R321). -/
def Summit.check (x : Summit) (b : Bool) : Summit :=
  let ok := decide (x.verify b = 2)
  let r := BitVec.ofNat 32 (x.imageRelease b)
  if b then { x with bankBValid := ok, releaseB := r } else { x with bankAValid := ok, releaseA := r }
/-- The check of VERIFY, whose outcome RESTART asks for (R305). -/
def Summit.verifyOp (x : Summit) (b : Bool) : Summit :=
  let ok := decide (x.verify b = 2)
  let x := x.check b
  if b then { x with verifiedB := ok } else { x with verifiedA := ok }

/-- The supervisors run different releases (R321). -/
def Summit.setMixed (x : Summit) : Summit :=
  { x with mixed := x.east.supRunning && x.west.supRunning && decide (x.east.runsRelease ≠ x.west.runsRelease) }
/-- The floor is raised to the release that both banks hold (R306). -/
def Summit.raiseFloor (x : Summit) : Summit :=
  if x.bankAValid && x.bankBValid && decide (x.releaseA = x.releaseB) && !x.mixed && decide (x.floor.toNat < x.releaseA.toNat)
  then { x with floor := x.releaseA } else x

/-- What follows a change of a bank or of a running release (R306, R321). -/
def Summit.refresh (x : Summit) : Summit := x.setMixed.raiseFloor
/-- The bank a half loads its image from (R307): its own, else the other, if either verifies. -/
def Summit.bankFor (x : Summit) (h : HalfId) : Option Bool :=
  let b := bankOf h
  if x.verify b = 2 then some b else if x.verify (!b) = 2 then some (!b) else none
/-- A half's supervisor loads its image and runs, if there is one (R297, R305, R307). -/
def Summit.load (x : Summit) (h : HalfId) : Summit :=
  match x.bankFor h with
  | none => x.mod h (fun y => { y with supRunning := false, supBoot := none, noImage := true })
  | some b =>
    let r := BitVec.ofNat 32 (x.imageRelease b)
    let x := x.mod h (fun y => { y with supRunning := true, supHalted := false, supBoot := none, noImage := false, runsRelease := r, bootedB := b })
    { x with fallback := x.fallback || decide (b ≠ bankOf h) }
/-- A half's supervisor boots (R297, R305, R307): its watchdog counts anew. -/
def State.bootSup (s : State) (h : HalfId) : State :=
  let now := s.clk.time
  ({ s with sum := s.sum.load h } : State).modHs h (fun x => { x with supSince := now })

end Sys2Proof.Machine
end

