-- ==== Sys2Proof/Machine/Thermal.lean ====
section
/-!
DEFINITION. What the levels of the zones do, and the evaluation of a zone (09_protection_and_thermal.md, R273 to R281).
-/
namespace Sys2Proof.Machine

/-- The source of a zone's reports (R278). -/
def zoneSource (z : Fin 19) : Fin 69 := if z.val = 0 then srcEast else if z.val = 1 then srcWest else srcHeath
/-- The flag of a level entered from below (R278, R286). -/
def Therm.enter (x : Therm) (z : Fin 19) (l : Level) : Therm :=
  match l with
  | .normal => x
  | .warn => { x with fWarn := true }
  | .throttle => { x with fThrottle := true }
  | .shut => if z.val < 2 then { x with fDie := true } else if z.val = 2 then { x with fHeath := true } else { x with fPh := true }

/-- Phases of a phase zone (R273); Spur 2k + 1 of a joined pair is no phase, and its ZONE is not used (R112). -/
def State.zonePhases (s : State) (z : Fin 19) : List PhaseId := phaseIds.filter (fun p => decide (s.phZone p = z) && !s.follower p)
/-- PHASE_OT is declared for a phase, or released (R258, R261, R278). -/
def State.shutPhase (s : State) (p : PhaseId) : State :=
  let s := s.modPh p (fun x => { x with unavOt := true })
  let c := (s.hph p).bind
  if c.val = 0 then s else s.declareCtx c [3]
def State.unshutPhase (s : State) (p : PhaseId) : State :=
  if s.ph[p].unavOt then
    let s := s.modPh p (fun x => { x with unavOt := false })
    let c := (s.hph p).bind
    if c.val = 0 then s else s.releasedEvent c 3
  else s

/-- The phases of zones at SHUT are those that PHASE_OT holds, where the joined pairs or the zones have changed (R112, R113, R278). -/
def State.zoneFollow (s : State) : State :=
  { s with ph := every s.ph (fun p x => { x with unavOt := !s.follower p && decide ((s.zone (s.phZone p)).level = .shut) }) }
/-- What a zone's entry to SHUT does, and what its leaving SHUT does (R278, R279). -/
def State.enterShut (s : State) (z : Fin 19) : State :=
  if z.val = 0 then s.loseElig .east (fun x => { x with dieShut := true })
  else if z.val = 1 then s.loseElig .west (fun x => { x with dieShut := true })
  else if z.val = 2 then s.safeTrigger .fault
  else (s.zonePhases z).foldl State.shutPhase s
def State.leaveShut (s : State) (z : Fin 19) : State :=
  if z.val = 0 then s.modHs .east (fun x => { x with dieShut := false })
  else if z.val = 1 then s.modHs .west (fun x => { x with dieShut := false })
  else if z.val = 2 then s
  else (s.zonePhases z).foldl State.unshutPhase s

/-- A change of a zone's level is reported and acts (R278). -/
def State.zoneChange (s : State) (z : Fin 19) (old new : Level) (v : Int) : State :=
  if old = new then s
  else
    let s := s.event (zoneSource z).val evThermalLevel (word z.val) (word new.num)
    let s : State := if old.num < new.num then
        ({ s with th := s.th.enter z new } : State).summary (zoneSource z) evThermalLevel 0xFF (some v) (word new.num)
      else s
    if new = .shut then s.enterShut z else if old = .shut then s.leaveShut z else s

/-- The throttle pause of a phase (R280). -/
def State.throttleOf (s : State) (z : Fin 19) (p : PhaseId) : Nat :=
  if (s.zone z).level.throttled then
    (min 128000 (s.pp p .thrPause * max 1 (((s.zone z).v - s.thrT z 2) / 128 + 1))).toNat
  else 0
/-- The newest throttle pause on its way to a phase. -/
def State.throttleNew (s : State) (p : PhaseId) : Nat :=
  s.commits.foldl (fun v k => match k.act with
    | .throttle q w => if q = p then w else v
    | _ => v) s.ph[p].throttle
/-- New throttle pauses are written with a commit tag (R25, R280). -/
def State.throttleStep (s : State) (z : Fin 19) : State :=
  if z.val < 3 then s
  else (s.zonePhases z).foldl (fun s p =>
    let v := s.throttleOf z p
    if v = s.throttleNew p then s else s.commit s.globTag (.throttle p v)) s

/-- A zone is evaluated (R277, R278). -/
def State.evaluate (s : State) (z : Fin 19) : State :=
  let now := s.clk.time
  let v := s.zoneValue z
  let old := (s.zone z).level
  let new := s.zoneNext z v
  let s : State := { s with th := { s.th with zone := upd s.th.zone z (fun _ => new), evalAt := upd s.th.evalAt z (fun _ => some now) } }
  (s.zoneChange z old new.level v).throttleStep z

/-- ZONE_EVALUATION (R273 to R281): new samples are taken, and a zone is evaluated, each at the rate of R275. In BOOT, sensors are
sampled and no zone is evaluated, so that the first evaluation is one after BOOT (R277; log entry 145). -/
def execZoneEvaluation (z : Fin 19) (samples : List TempSample) (s : State) : Host.Outcome State Fault Refusal :=
  if s.dev.st = .cold then .next s
  else
    let s := samples.foldl State.sampleAt s
    .next (if s.dev.st ≠ .boot ∧ thermDue s.th.evalAt[z] (s.zoneFast z) s.clk.time = true then s.evaluate z else s)

end Sys2Proof.Machine
end

