-- ==== Sys2Proof/Machine/Commit.lean ====
section
/-!
DEFINITION. What takes effect at a commit tag (R25 to R27, R124, R125, and the rules that the parts cite), and entry to
RUN and rundown (R33, R36, R39, R42).
-/
namespace Sys2Proof.Machine

/-- Values in force. -/
def State.setForce (s : State) (c : CtxId) (p : CP) (v : Int) : State :=
  s.modCtx c (fun x => { x with inF := x.inF.set p.ix v p.ix_lt })
def State.setPhForce (s : State) (p : PhaseId) (e : PP) (v : Int) : State :=
  s.modPh p (fun x => { x with inF := x.inF.set e.ix v e.ix_lt })
def State.setGlobForce (s : State) (g : GP) (v : Int) : State := { s with gInF := s.gInF.set g.ix v g.ix_lt }

/-- A timing word lands in the pending sets of both halves at the first fast tick of its tag (R125). -/
def State.landAll (s : State) (a : Act) (tag : Nat) : State :=
  s.halves (fun x => { x with ph := every x.ph (fun p h => h.land (16 * tag) (a.timing h.bind.val p.val)) })

/-- A MODE write takes effect (R200, R210); outside regulation a cleared PROBE bit gives up the capture area (R221), and
a cleared SCHEDULE flushes (R195). -/
def State.modeApply (s : State) (c : CtxId) (v : Int) (tag : Nat) : State :=
  let s := s.modCtx c (fun x => { x with mode := { x.mode with writtenAt := some tag } })
  if s.ctx[c].regulating then s
  else
    let s := if bitOf v modeSchedule then s else s.flush c
    if bitOf v modeProbe then s
    else s.modCtx c (fun x => { x with probe := { x.probe with bitSeen := false }, owner := if x.owner = .probe then .none else x.owner })

/-- A context entry takes effect (R24, R125, R192, R200, R254). -/
def State.ctxApply (s : State) (c : CtxId) (p : CP) (v : Int) (tag : Nat) : State :=
  let s := s.setForce c p v
  match p with
  | .mode => s.modeApply c v tag
  | .vset | .voutMin | .voutMax => s.modCtx c (fun x => { x with tgtFresh := true })
  | .mRatio => s.modCtx c (fun x => { x with anchor := tag })
  | .tpause | .tonMax => s.landAll (.ctxPar c p v) tag
  | .tripSrc => s.followGroup c
  | .tripCfg => (if s.ctx[c].prot.tripAsserted then s.forceTargets c else s).followGroup c
  | .gdlyOnInit => s.modChan c (fun x => { x with d8On := 8 * v })
  | .trip => s.tripFollow c
  | .gdlyOffInit => s.modChan c (fun x => { x with d8Off := 8 * v })
  | _ => s

/-- A coefficient fills the inactive bank of both halves (R27, R102). -/
def Cell.fill (k : Cell) (j : Coef) (v : Int) : Cell :=
  if k.bankBActive then { k with bankA := k.bankA.set j (tag v) } else { k with bankB := k.bankB.set j (tag v) }
/-- A bank swap (R102, R103): while the context regulates, the old bank still serves its next outer step, with the words that it held at the
swap, whatever a coefficient write of the same commit tag then fills it with: DESIGN CHOICE, log entry 151. -/
def Cell.swapBanks (k : Cell) (regulating : Bool) : Cell :=
  { k with bankBActive := !k.bankBActive, swapOld := if regulating then some k.bank else none }
def State.swapApply (s : State) (c : CtxId) : State :=
  let r := s.ctx[c].regulating
  (s.halves (fun x => x.modCell c (fun k => k.swapBanks r))).modCtx c (fun x => { x with swapPending := false })

/-- A phase entry takes effect: timing words land, OWNER is written to the binding tables, and a new ZONE is or is not at SHUT, but for
Spur 2k + 1 of a joined pair, whose ZONE is not used (R18, R22, R112, R125, R258, R261). -/
def State.phApply (s : State) (p : PhaseId) (e : PP) (v : Int) (tag : Nat) : State :=
  let moved := decide (s.pp p .owner ≠ v)
  let s := s.setPhForce p e v
  match e with
  | .owner =>
    let c : CtxId := ⟨v.toNat % 64, by omega⟩
    let was := (s.hph p).bind
    let now := s.enables
    let f (x : HalfS) : HalfS := { x with bindA := x.bindA.set p (c, .ok), bindB := x.bindB.set p (c, .ok) }
    ((s.modHs .east f).modHs .west f).modPh p (fun x =>
      if moved then { x with moving := true, movedTag := now, heldBy := was } else x)
  | .tmin | .dtRise | .dtFall => s.landAll (.phPar p e v) tag
  | .zone =>
    let shut := !s.follower p && decide ((s.zone (s.phZone p)).level = .shut)
    if shut && !s.ph[p].unavOt then s.shutPhase p else if !shut then s.unshutPhase p else s
  | _ => s

/-- The map a port serves from DEV.TARN_MAP (R400). -/
def State.tarnMapWord (s : State) (port : Port) : BitVec 64 :=
  let k : Fin 4 := match port with
    | .a => 0
    | .b => 2
  BitVec.ofInt 64 (s.gp (.tarnMap k) + 4294967296 * s.gp (.tarnMap (k + 1)))
/-- A port is enabled: its first cycle starts, which takes the map (R400); a disabled port completes its slot in progress (R401). -/
def TarnPort.enable (x : TarnPort) (was on : Bool) : TarnPort :=
  if on && !was then { x with enabled := true, stopping := false, cycle := 0, pos := 0, poll := none }
  else if !on && was then (if x.poll.isSome then { x with stopping := true } else { x with enabled := false, stopping := false })
  else x
def State.tarnApply (s : State) (old : Int) : State :=
  let v := s.gp .tarnCfg
  { s with tarnA := s.tarnA.enable (bitOf old 0) (bitOf v 0)
           tarnB := s.tarnB.enable (bitOf old 1) (bitOf v 1) }

/-- A global takes effect (R25, R112, R173, R247, R252, R253, R313, R334, R401). NVM_BP is kept in Q3 by the device's own record, which waits for
its turn (R281). -/
def State.globApply (s : State) (g : GP) (v : Int) : State :=
  let old := s.gp g
  let s := s.setGlobForce g v
  match g with
  | .ftCfg => s.ftCfgApply old
  | .crgCfg _ => s.cragConfig
  | .crgWin _ => s.followGroups
  | .nvmBp => s.await .bp
  | .safeInput => if s.dev.st = .safe ∧ v = 0 then s.offCmd 0 else s
  | .tarnCfg => s.tarnApply old
  | .pairMask _ => s.zoneFollow
  | _ => s

/-- Entry to RUN (R33, R42, R260, R479). -/
def State.enterRun (s : State) : State :=
  let s := ([GP.compat] ++ (List.finRange 6).map GP.compatMap).foldl (fun s g => s.setGlobForce g (s.gNew g)) s
  let s : State := { s with dev := { s.dev with runReq := true, compatEn := decide (s.gp .compat = 1),
                                                compatMap := Vector.ofFn (fun k : Fin 6 => s.gp (.compatMap k)) } }
  (s.modCtx 0 (fun x => { x with inputSeen := false })).goto .run

/-- Rundown begins (R36, R271): every section switch opens, and every power-good falls. -/
def State.startRundown (s : State) : State :=
  let now := s.clk.time
  let s : State := { s with dev := { s.dev with rundown := some now } }
  ctxIds.foldl (fun s c => if c.val = 0 then s else (s.pgDrop c).offCmd c) s

/-- RUN_REQ takes effect (R33, R36, R38). -/
def State.runApply (s : State) (on : Bool) : State :=
  let s : State := { s with dev := { s.dev with runReq := on } }
  if on then (if s.dev.st = .standby then s.move .run State.enterRun else s)
  else if s.dev.st = .run ∧ s.dev.rundown = none then s.startRundown else s

/-- The fault that forced SAFE has ended (R39, R262, R278; log entry 31). -/
def State.faultOver (s : State) : Bool :=
  let x := s.ctx[(0 : CtxId)]
  !x.prot.ovDeclared && !x.prot.uvDeclared && decide (x.chan.st ≠ .fault)
    && !(decide (s.resp 0 5 = 3) && decide (16 ≤ x.sense.openRun)) && decide ((s.zone 2).level ≠ .shut)
/-- A SAFE_CAUSE bit is set (R38). -/
def Dev.caused (d : Dev) : Bool := d.causePin || d.causeNoHalf || d.causeClock || d.causeFault
/-- SAFE_CLR (R33, R37 to R39, R311): the causes whose condition has ended clear, unless the condition came again in this very
fab cycle, and SAFE is left if none remains. -/
def State.safeClrApply (s : State) : State :=
  let d := s.dev
  let half := s.holder.isSome
  let now (k : SafeCause) : Bool := d.causeAt[k.ix] = some s.fab
  let s : State := { s with dev := { d with causePin := d.causePin && (d.safeNLow || now .pin),
                                            causeNoHalf := d.causeNoHalf && (!half || now .noHalf),
                                            causeClock := d.causeClock && (!(s.clk.ok && s.clk.synced && half) || now .clock),
                                            causeFault := d.causeFault && (!s.faultOver || now .fault) } }
  if s.dev.st = .safe ∧ s.dev.caused = false then s.move .standby (fun s => s.goto .standby) else s

/-- PHASE_OC sheds of a context whose condition has ended (R262). -/
def State.endedSheds (s : State) (c : CtxId) : List PhaseId :=
  (s.bound c).filter (fun p => s.ph[p].unavOc && (!s.ctx[c].regulating || decide (s.ph[p].ocTimer = 0)))
/-- FAULT_CTL.CLEAR (R262, R264). -/
def State.faultClearApply (s : State) (c : CtxId) : State :=
  let sheds := s.endedSheds c
  let latched := s.ctx[c].prot.latched
  let last : FClass := ⟨s.ctx[c].prot.lastClass.val % 14, by omega⟩
  let s := sheds.foldl (fun s p => s.modPh p (fun x => { x with unavOc := false, ocTimer := 0 })) s
  let s := s.modCtx c (fun x => { x with prot := { x.prot with
    latched := false, retryDue := none, retryUsed := if x.prot.exhausted then 0 else x.prot.retryUsed, exhausted := false } })
  let s := if latched then s.releasedEvent c last else s
  if sheds.isEmpty then s else s.releasedEvent c 2

/-- SW[c].CTL.CLEAR (R246, R264): a release is granted to a channel in FAULT whose gate is off. -/
def State.swClear (s : State) (c : CtxId) : State :=
  let x := s.ctx[c].chan
  if x.st = .fault ∧ x.vgs = 0 then
    let k := x.cause.cls
    let s := s.modCtx c (fun x => { x with prot := { x.prot with
      retryUsed := if x.prot.exhausted then 0 else x.prot.retryUsed, exhausted := false } })
    ((s.modChan c (fun x => { x with granted := true, retryOn := false })).tryRelease c).releasedEvent c k
  else s
/-- A write of SW[c].CTL takes effect: CLEAR, then ON or OFF (R232, R233, R246). -/
def State.swApply (s : State) (c : CtxId) (on clear : Bool) : State :=
  let s := if clear then s.swClear c else s
  if on then s.onCmd c else s.offCmd c

/-- An ON command acts at this instant on the channel with an OFF command of the same commit tag: OFF wins (R233). -/
def offToo (now : List Commit) (tag : Nat) (c : CtxId) : Bool :=
  now.any (fun k => decide (k.tag = tag) && (match k.act with
    | .swCtl d on _ => decide (d = c) && !on
    | _ => false))

/-- A release leaves this of an address (R418); a violation of the same fab cycle still finds what the release took. -/
def TarnS.release (x : TarnS) : TarnS :=
  if x.quarantined then
    { x with quarantined := false, run := 0, released := true, learned := none, cleanRun := 0, dupQuar := false, tie := some (true, x.learned) }
  else { x with tie := some (x.tie.getD (false, none)) }
/-- A quarantine is released (R418). -/
def State.quarRelease (s : State) (c : CtxId) : State :=
  let quar := s.ctx[c].tarn.quarantined
  let s := s.modCtx c (fun x => { x with tarn := x.tarn.release })
  if quar then s.releasedEvent c 7 else s

/-- The capture area goes to a trace, unless another has it (R221, R377). -/
def State.traceBegin (s : State) (c : CtxId) (w : Word) : State :=
  s.modCtx c (fun x => if x.owner ≠ .none then x else x.startTrace w)

/-- An operation of FW_CTL starts on the shadow's bank (R305); its half restarts at once for RESTART (R290). A RESTART that finds another
shadow than at its acceptance, one whose bank no VERIFY has passed, starts nothing and reads ABORTED: DESIGN CHOICE, log entry 162. -/
def State.fwApply (s : State) (op : Nat) : State :=
  match s.shadow with
  | none =>
    let s : State := { s with sum := { s.sum with fwOp := op, fwCode := 7 } }
    s
  | some h =>
    if op = 3 ∧ s.shadowVerified = false then { s with sum := { s.sum with fwOp := op, fwCode := 8 } } else
    let s : State := { s with sum := { s.sum with fwOp := op, fwCode := 1, fwRunning := true, fwBank := bankOf h } }
    match op with
    | 1 => { s with sum := s.sum.eraseBank (bankOf h) }
    | 3 =>
      let now := s.clk.time
      s.loseElig h (fun x => { x with supRestarted := true, supRunning := false, supBoot := some now })
    | _ => s

/-- HANDOVER takes effect (R295, R318). -/
def State.handoverApply (s : State) : State :=
  match s.holder with
  | some h => s.requestRelease h
  | none => s.endRelease

/-- The retry count returns to 0 (R264). -/
def State.retryResetApply (s : State) (c : CtxId) : State := s.modCtx c (fun x => { x with prot := { x.prot with retryUsed := 0 } })

/-- A calibration command takes effect: CAL_TRUE is latched, and the capture starts (R25, R159). -/
def State.calStart (s : State) : State :=
  match s.cal.waiting with
  | none => s
  | some t => { s with cal := { s.cal with waiting := none, running := some t, trueV := s.gp .calTrue, sum := 0, count := 0 } }

/-- An accepted write, or a change of the device, takes effect at its commit tag, with the others that are due (R25). -/
def State.apply (s : State) (now : List Commit) (tag : Nat) (a : Act) : State :=
  match a with
  | .ctxPar c p v => s.ctxApply c p v tag
  | .coef c k v => s.halves (fun x => x.modCell c (fun y => y.fill k v))
  | .swap c => s.swapApply c
  | .phPar p e v => s.phApply p e v tag
  | .glob g v => s.globApply g v
  | .railCal c g o => s.modCtx c (fun x => { x with sense := { x.sense with cal := some (g, o) } })
  | .phaseCal p g prov => s.modPh p (fun x => { x with gainFinal := if prov then none else some g, provisional := prov })
  | .shuntCal c g prov => s.modChan c (fun x => { x with cal := if prov then none else some g, provisional := prov })
  | .runReq on => s.runApply on
  | .safeClr => s.safeClrApply
  | .ftArm on => s.ftArmApply on
  | .schedEnter c n => s.modSched c (fun x => x.modEvent n (fun e => { e with entered := true }))
  | .swCtl c on clear => s.swApply c (on && !offToo now tag c) clear
  | .faultCtl c clear reset =>
    let s := if clear then s.faultClearApply c else s
    if reset then s.retryResetApply c else s
  | .tarnRelease c => s.quarRelease c
  | .handover => s.handoverApply
  | .traceStart c w => s.traceBegin c w
  | .throttle p v => (s.modPh p (fun x => { x with throttle := v })).landAll (.throttle p v) tag
  | .tallySub a v => s.tallySub a v
  | .take => s.take
  | .fwCtl op _ => s.fwApply op.val
  | .calStart => s.calStart
  | .resolve it add => s.resolveApply it add
  | .cairnAck w => { s with cairn := { s.cairn with ack := w.toNat } }
  | .cairnErase => { s with nv := { s.nv with erasing := true } }

/-- A waiting act that is due. -/
def Commit.due (k : Commit) (t : Nat) : Bool := decide (k.tag ≤ t)

/-- A half whose cells stand still misses the writes of a commit tag, whatever they write, and is not eligible until it has
resynchronized (R26, R290). -/
def State.missed (before s : State) (writes : Bool) (h : HalfId) : State :=
  let x := before.sum.half h
  if x.stopped before.enables && writes then
    (s.setHalf h (before.half h)).loseElig h (fun z => { z with writeMiss := true, bindA := x.bindA, bindB := x.bindB })
  else s

/-- COMMIT_TAG (R25, R26): what has come to its commit tag takes effect, in the order of acceptance. -/
def execCommitTag (s : State) : Host.Outcome State Fault Refusal :=
  let t := s.enables
  let now := s.commits.filter (fun k => k.due t)
  let s : State := { s with commits := s.commits.filter (fun k => !k.due t) }
  let r := now.foldl (fun s k => s.apply now k.tag k.act) s
  let writes := !now.isEmpty
  .next (s.missed (s.missed r writes .east) writes .west)

end Sys2Proof.Machine
end

