-- ==== Sys2Proof/Machine/Saved.lean ====
section
/-!
DEFINITION. The saved configuration: which entries are saved, the pairs of a save, and the restore of Q2
(14_parameter_space.md, R435 to R440).
-/
namespace Sys2Proof.Machine

/-- One saved entry or member: index, member code and the word that CONFIG_SAVE would keep (R435, R436). -/
abbrev Pair := Nat × Nat × Word

/-- The pair of an entry, where its word differs from its reset word (R435). -/
def pairOf (index mem : Nat) (w rst : Word) : List Pair := if w = rst then [] else [(index, mem, w)]

/-- The saved globals, in rising index (R430). -/
def savedGlobs : List GP := .autoRun :: GP.all.filter (fun g => g.row.saved && decide (g ≠ .autoRun))
def State.globPairs (s : State) : List Pair := savedGlobs.flatMap (fun g => pairOf g.row.off 0 (wordOf (s.gNew g)) (wordOf g.row.rst))

/-- The word a save keeps of a context entry: MODE without PROBE (R428). -/
def State.savedWord (s : State) (c : CtxId) (p : CP) : Word :=
  let w := wordOf (s.ctx[c].newest p)
  if p = .mode then w &&& ~~~ (64 : Word) else w
/-- A context entry that is saved: those context 0 does not serve read 0 there and are not (R428). -/
def CP.savedIn (p : CP) (c : CtxId) : Bool := p.row.saved && (p.row.ctx0 || decide (c.val ≠ 0)) && !(decide (c.val = 0) && decide (p = .mode))
def State.ctxPairs (s : State) (c : CtxId) : List Pair :=
  let base := 0x1000 + 128 * c.val
  let par (l : List CP) : List Pair := l.flatMap (fun p =>
    if p.savedIn c then pairOf (base + p.row.off) p.row.mem (s.savedWord c p) (wordOf p.row.rst) else [])
  let coefs : List Pair := if c.val = 0 then [] else
    (List.finRange 15).flatMap (fun k => pairOf (base + (Coef.place k).1) (Coef.place k).2 (wordOf (s.cell c).bank[k].v) (wordOf (Coef.rst k)))
  par (CP.all.filter (fun p => p.row.off < 0x0C)) ++ coefs ++ par (CP.all.filter (fun p => ¬ p.row.off < 0x0C))

/-- The pairs of a phase: OWNER is not saved for Spur 2k + 1 of a joined pair (R429). -/
def State.phPairs (s : State) (p : PhaseId) : List Pair :=
  PP.all.flatMap (fun e =>
    if e = .owner ∧ p.val % 2 = 1 ∧ s.joinedNew p = true then []
    else pairOf (0x4000 + 16 * p.val + e.row.off) 0 (wordOf (s.ph[p].newest e)) (wordOf e.row.rst))

/-- The pairs of a save, in rising index and member (R436). -/
def State.savedPairs (s : State) : List Pair := s.globPairs ++ ctxIds.flatMap s.ctxPairs ++ phaseIds.flatMap s.phPairs

/-- The seven bytes of a pair (R436). -/
def pairBytes (p : Pair) : List Byte := leBytes 2 p.1 ++ leBytes 1 p.2.1 ++ leBytes 4 p.2.2.toNat
/-- Pairs in groups of at most seven, for records 1 to k. -/
def groups7 : Nat → List Pair → List (List Pair)
  | 0, _ => []
  | _ + 1, [] => []
  | n + 1, l => l.take 7 :: groups7 n (l.drop 7)
/-- The largest generation in any valid Q2 record (R437). -/
def Store.maxGeneration (x : Store) : Nat :=
  (x.records .q2).foldl (fun g r => max g (if r.2.ident = 0 then leAt r.2.payload 0 4 else leAt r.2.payload 0 2)) 0
/-- The header of a save (R436). -/
def headerBytes (gen k pairs : Nat) (crc : BitVec 32) (ftime release : Nat) : List Byte :=
  leBytes 4 gen ++ leBytes 1 k ++ leBytes 1 0 ++ leBytes 2 pairs ++ leBytes 4 crc.toNat ++ leBytes 6 ftime ++ leBytes 4 release
/-- RELEASE of the serving supervisor's firmware. -/
def State.servingRelease (s : State) : Nat := match s.servingHalf with
  | some h => (s.sum.half h).runsRelease.toNat
  | none => 0
/-- The records of a save: data records 1 to k, then the header (R437). -/
def State.saveRecords (s : State) (l : List Pair) : List (Nat × Nat × List Byte) :=
  let gen := s.nv.maxGeneration + 1
  let gs := groups7 127 l
  let data := gs.zipIdx.map (fun g => (0x20, g.2 + 1, padTo 52 (leBytes 2 gen ++ leBytes 1 g.1.length ++ g.1.flatMap pairBytes)))
  data ++ [(0x20, 0, padTo 52 (headerBytes gen gs.length l.length (crc32 (l.flatMap pairBytes)) s.ftUs s.servingRelease))]

/-- The saved slot that an index and a member code name (R436, R439): none names none. -/
def savedSlot (index mem : Nat) : Option Slot :=
  if index < 0x1000 then
    if mem ≠ 0 then none
    else match globSlotAt index with
      | some (.greg .runCtl) => some (.glob .autoRun)
      | some (.greg .ftCfg) => some (.glob .ftCfg)
      | some (.glob g) => if g.row.saved then some (.glob g) else none
      | _ => none
  else if index < 0x3000 then
    let c : CtxId := ⟨(index - 0x1000) / 128 % 64, by omega⟩
    let off := (index - 0x1000) % 128
    match CP.all.find? (fun p => p.row.off = off ∧ p.row.mem = mem) with
    | some p => if p.row.saved then some (.ctx c p) else none
    | none => ((List.finRange 15).find? (fun k => Coef.place k = (off, mem))).map (fun k => .coef c k)
  else if h : 0x4000 ≤ index ∧ index < 0x4600 ∧ mem = 0 then
    match phSlotAt ⟨(index - 0x4000) / 16, by omega⟩ ((index - 0x4000) % 16) with
    | some (.ph p e) => some (.ph p e)
    | _ => none
  else none

/-- The block of a slot: 0 the globals, 1 + c a context, 65 + p a phase (R439). -/
def Slot.block : Slot → Nat
  | .ctx c _ | .coef c _ | .creg c _ => 1 + c.val
  | .ph p _ | .preg p _ => 65 + p.val
  | .glob _ | .greg _ => 0
/-- The block an index belongs to. -/
def indexBlock (i : Nat) : Nat :=
  if i < 0x1000 then 0 else if i < 0x3000 then 1 + (i - 0x1000) / 128 % 64 else 65 + (i - 0x4000) / 16 % 96

/-- A restored word takes its place: newest value and value in force, both banks of both halves (R435, R439). -/
def State.place (s : State) (x : Slot) (v : Int) : State :=
  match x with
  | .ctx c p => (s.setNew c p v).setForce c p v
  | .coef c k => s.halves (fun y => y.modCell c (fun z => { z with bankA := z.bankA.set k (tag v), bankB := z.bankB.set k (tag v) }))
  | .ph p e => (s.setPhNew p e v).setPhForce p e v
  | .glob g => (s.setGlobNew g v).setGlobForce g v
  | _ => s
/-- The value a word gives a slot. -/
def slotValue (x : Slot) (w : Word) : Int :=
  match x with
  | .ctx c p => ctxValue c p w
  | .ph _ e => e.row.fmt.decode w
  | .glob g => g.row.fmt.decode w
  | _ => w.toInt
/-- The word keeps its own limits. -/
def slotWithin (x : Slot) (w : Word) : Bool :=
  match x with
  | .ctx _ p => p.row.within (p.row.fmt.decode w)
  | .ph _ e => e.row.within (e.row.fmt.decode w)
  | .glob g => g.row.within (g.row.fmt.decode w)
  | _ => true

/-- A restored word would be refused if written in STANDBY, with every other entry at its restored value (R439). A
TRACK_LEADER that stands beside its TRACK bit is judged by the MODE word. -/
def State.restoreRefused (s : State) (x : Slot) (w : Word) : Bool :=
  let s : State := { s with dev := { s.dev with st := .standby } }
  match x with
  | .ctx c .trackLeader => decide (c.val = 0) || !slotWithin x w
  | .ctx c p => decide (s.refuseCtx c p (p.row.fmt.decode w) ≠ 0)
  | .coef c _ => decide (State.refuseCoef c ≠ 0)
  | .ph p e => decide (s.refusePh p e (e.row.fmt.decode w) ≠ 0)
  | .glob .ftCfg => decide (s.refuseFtCfg w ≠ 0)
  | .glob g => decide (s.refuseGlob g (g.row.fmt.decode w) ≠ 0)
  | _ => true

/-- Every entry and member of a block returns to its reset value. -/
def State.resetBlock (s : State) (b : Nat) : State :=
  if b = 0 then { s with gAcc := globReset, gInF := globReset }
  else if h : b - 1 < 64 then
    let c : CtxId := ⟨b - 1, h⟩
    (s.modCtx c (fun x => { x with acc := ctxParReset, inF := ctxParReset })).halves (fun y =>
      y.modCell c (fun z => { z with bankA := bankReset, bankB := bankReset }))
  else if h : b - 65 < 96 then s.modPh ⟨b - 65, h⟩ (fun x => { x with acc := phParReset, inF := phParReset })
  else s

/-- One pair of the restore: the word is applied, or the block of its key is marked. -/
def State.restorePair (x : State × List Nat) (p : Pair) : State × List Nat :=
  match savedSlot p.1 p.2.1 with
  | none => (x.1, indexBlock p.1 :: x.2)
  | some y => if slotWithin y p.2.2 then (x.1.place y (slotValue y p.2.2), x.2) else (x.1, y.block :: x.2)
/-- A context's MODE at its reset value, which is how a context whose block has been reset counts (R439). -/
def State.resetMode (s : State) (b : Nat) : State :=
  if h : 1 ≤ b ∧ b - 1 < 64 then
    let c : CtxId := ⟨b - 1, h.2⟩
    (s.setNew c .mode CP.mode.row.rst).setForce c .mode CP.mode.row.rst
  else s
/-- The blocks that return to reset (R439): marked, or with a word that would be refused while every other entry holds its restored value,
MODE of a reset context apart. The first component is that state. -/
def State.judgeBlock (l : List Pair) (marked : List Nat) (x : State × List Nat) (b : Nat) : State × List Nat :=
  if marked.contains b || l.any (fun p => match savedSlot p.1 p.2.1 with
    | none => false
    | some y => decide (y.block = b) && x.1.restoreRefused y p.2.2) then (x.1.resetMode b, x.2 ++ [b])
  else x
/-- A block returns to reset, and the Cairn is told (R439). -/
def State.dropBlock (s : State) (b : Nat) : State :=
  let s := s.resetBlock b
  ({ s with dev := { s.dev with blocksReset := s.dev.blocksReset + 1 } } : State).summaryFree srcStore (word b)
/-- The restored pairs take their place, block by block (R439). -/
def State.restorePairs (s : State) (l : List Pair) : State :=
  let r := l.foldl State.restorePair (s, [])
  ((List.range 161).foldl (State.judgeBlock l r.2) (r.1, [])).2.foldl State.dropBlock r.1
/-- A waiting act that gives an entry or member a value. -/
def Act.writes : Act → Bool
  | .ctxPar .. | .coef .. | .swap .. | .phPar .. | .glob .. => true
  | _ => false
/-- Every entry and member at its reset value (R435, R439), bank A active; a write accepted before whose commit tag is still to come is
discarded: DESIGN CHOICE, log entry 173. -/
def State.resetEntries (s : State) : State :=
  let s := (List.range 161).foldl State.resetBlock s
  let s : State := { s with commits := s.commits.filter (fun k => !k.act.writes), ctx := every s.ctx (fun _ x => { x with swapPending := false }) }
  s.halves (fun x => { x with cell := every x.cell (fun _ k => { k with bankBActive := false }) })

/-- The pairs in use of a data record (R436). -/
def recPairs (b : List Byte) : List Pair :=
  (List.range (min (leAt b 2 1) 7)).map (fun j => (leAt b (3 + 7 * j) 2, leAt b (5 + 7 * j) 1, BitVec.ofNat 32 (leAt b (6 + 7 * j) 4)))
/-- The valid data record of an identity and a generation, in either slot (R439): the copy in force if both fit. -/
def savedRecord (l : List (Nat × Rec)) (i gen : Nat) : Option (Nat × Rec) :=
  inForceIn (l.filter (fun r => leAt r.2.payload 0 2 = gen)) 0x20 i
/-- The header in force (R439, R440). -/
def Store.configHeader (x : Store) : Option Rec := x.inForce .q2 0x20 0
/-- What Q2 holds (R439): none where the configuration is defaulted, else the pairs, and whether a record used is not the
copy in force of its identity. -/
def Store.savedConfig (x : Store) : Option (List Pair × Bool) :=
  let l := x.records .q2
  match x.configHeader with
  | none => none
  | some h =>
    let k := leAt h.payload 4 1
    let rs := (List.range k).map (fun i => savedRecord l (i + 1) (leAt h.payload 0 2))
    if k = 0 ∨ rs.any (·.isNone) then none
    else
      let used := rs.filterMap id
      let pairs := used.flatMap (fun r => recPairs r.2.payload)
      if pairs.length ≠ leAt h.payload 6 2 ∨ (crc32 (pairs.flatMap pairBytes)).toNat ≠ leAt h.payload 8 4 then none
      else some (pairs, used.any (fun r => decide (inForceIn l 0x20 r.2.ident ≠ some r)))

end Sys2Proof.Machine
end

