-- ==== Sys2Proof/Machine/Requests.lean ====
section
/-!
DEFINITION. The order in which the serving supervisor executes requests (12_host_mailbox_and_pmbus.md, R371 to R374, R386,
R391 to R395): how a mailbox request is taken and answered, and what a PMBus write does at its turn.
-/
namespace Sys2Proof.Machine

/-- The command codes of R374. -/
def knownCommands : List Nat :=
  [0x01, 0x02, 0x10, 0x11, 0x20, 0x21, 0x22, 0x23, 0x30, 0x31, 0x32, 0x33, 0x34, 0x35, 0x36, 0x40, 0x41, 0x42, 0x50, 0x51]

/-- Fields of request word 0 (R371). -/
def Slot64.cmd (x : Slot64) : Nat := x.words[0].toNat / 16777216
def Slot64.narg (x : Slot64) : Nat := x.words[0].toNat / 65536 % 256
/-- Argument k of a request, from 1 (R371). -/
def Slot64.argW (x : Slot64) (k : Nat) : Word := if h : k < 64 then x.words[k] else 0
def Slot64.arg (x : Slot64) (k : Nat) : Nat := (x.argW k).toNat
/-- Arguments from k on, n of them. -/
def Slot64.args (x : Slot64) (k n : Nat) : List Word := (List.range n).map (fun j => x.argW (k + j))

/-- The response is placed; while the request's own host-initiated write is being programmed the slot stays BUSY until
its last cell (R332, R385). -/
def State.answer (s : State) (r : Req) (answer detail : Nat) (data : List Word) : State :=
  let t := s.respond r answer detail data
  match s.nv.hostWrite with
  | some (_, some q) => if q = r then { t with mb := t.mb.modSlot r (fun x => { x with st := .busy, unread := false }) } else t
  | _ => t
/-- A request that is answered at once, without effect. -/
def State.refused (s : State) (r : Req) (answer : Nat) : State := s.answer r answer 0 []

/-- Identities up to k of Q2 that hold no record in force. -/
def Store.newIdents (x : Store) (k : Nat) : Nat :=
  let l := x.records .q2
  ((List.range (k + 1)).filter (fun i => (inForceIn l 0x20 i).isNone)).length
/-- The refusal of a save of these pairs, or 0 (R437). -/
def State.saveRefusal (s : State) (l : List Pair) : Nat :=
  if 889 < l.length then ansFull else s.hostRefusal .q2 (s.nv.newIdents ((l.length + 6) / 7))
/-- The contexts that a paged write reaches for a PAGE (R391, R480). -/
def State.pagesAt (s : State) (page : Nat) : List CtxId :=
  if page = 0xFF then (List.finRange 64).drop 1
  else
    let n := if s.dev.compatEn then page + 1 else page
    if h : n < 64 then [⟨n, h⟩] else []
def State.pages (s : State) : List CtxId := s.pagesAt s.pmb.page
/-- One parameter write over PMBus (R391, R395). -/
def State.pmbPut (s : State) (code : Nat) (x : Slot) (w : Word) : State :=
  let k := s.refuse .pmb x w
  if k = 0 then s.accept .pmb x w none else s.pmbRefuse code k
/-- A paged write: one parameter write for each context, in rising order (R391); a value that no word holds is refused. -/
def State.pagedPut (s : State) (code page : Nat) (f : State → CtxId → Option (Slot × Word)) : State :=
  match s.pagesAt page with
  | [] => s.pmbRefuse code ansRange
  | cs => cs.foldl (fun s c => match f s c with
    | none => s.pmbRefuse code ansRange
    | some (x, w) => s.pmbPut code x w) s

/-- Mantissa and exponent of a LINEAR11 word (R392). -/
def unpack11 (w : Nat) : Int × Int := (signedOf 11 (w % 2048), signedOf 5 (w / 2048 % 32))

/-- VSLEW for a rate in mV/us at an M_RATIO (R392, R393, R396): T_v is M_RATIO × 40 ns. -/
def slewOf (y n : Int) (ratio : Int) : Int :=
  let k := y * ratio * 65536 * F24
  if n < 0 then roundAway k (25000 * (2 : Int) ^ n.natAbs) else roundAway (k * (2 : Int) ^ n.natAbs) 25000

/-- OPERATION (R393): the switch of the page, or RUN_REQ for context 0. -/
def State.operationPut (s : State) (j : PmbJob) : State :=
  let n := leNat j.bytes
  if n ≠ 0x80 ∧ n ≠ 0 then s.pmbRefuse 0x01 ansRange
  else s.pagedPut 0x01 j.page (fun s c =>
    if c.val = 0 then some (.greg .runCtl, word (n / 128 + s.autoBit)) else some (.creg c .swCtl, word (n / 128)))
/-- CLEAR_FAULTS (R393): the class flags of the page, and STATUS_CML. -/
def State.clearFaultsPut (s : State) (j : PmbJob) : State :=
  let s := s.pagedPut 0x03 j.page (fun _ c => some (.creg c .faultStatus, 0x3FFF))
  { s with pmb := { s.pmb with cml := 0 } }
/-- STORE_USER_ALL (R393, R395, R437): CONFIG_SAVE. -/
def State.storeUserPut (s : State) : State :=
  let l := s.savedPairs
  let k := s.saveRefusal l
  if k ≠ 0 then s.pmbRefuse 0x15 k else s.startHost (s.saveRecords l) none
/-- VOUT_COMMAND (R392, R393): VSET. -/
def State.voutCommandPut (s : State) (j : PmbJob) : State :=
  s.pagedPut 0x21 j.page (fun _ c => some (.ctx c .vset, word (64 * leNat j.bytes)))
/-- VOUT_TRANSITION_RATE (R392, R393): VSLEW, scaled by T_v. -/
def State.voutRatePut (s : State) (j : PmbJob) : State :=
  s.pagedPut 0x27 j.page (fun s c =>
    let p := unpack11 (leNat j.bytes)
    let v := slewOf p.1 p.2 (s.ctx[c].newest .mRatio)
    if -2147483648 ≤ v ∧ v ≤ 2147483647 then some (.ctx c .vslew, BitVec.ofInt 32 v) else none)
/-- MFR_PARAM_VALUE (R391, R393): any parameter in the unprivileged view. -/
def State.paramValuePut (s : State) (j : PmbJob) : State :=
  let y := s.writeIndex .pmb j.index (word (leAt j.bytes 1 4)) none
  if y.2 = 0 then y.1 else y.1.pmbRefuse 0xD1 y.2
/-- What a PMBus write does at its turn (R372, R393). -/
def State.runJob (s : State) (j : PmbJob) : State :=
  match j.code with
  | 0x01 => s.operationPut j
  | 0x03 => s.clearFaultsPut j
  | 0x15 => s.storeUserPut
  | 0x21 => s.voutCommandPut j
  | 0x27 => s.voutRatePut j
  | 0xD1 => s.paramValuePut j
  | _ => s
/-- The oldest PMBus write that waits has its turn. -/
def State.nextJob (s : State) : State :=
  match s.pmb.jobs with
  | [] => s
  | j :: js => ({ s with pmb := { s.pmb with jobs := js } } : State).runJob j

/-- The turns at the head of the queue that need no row of their own (R372, R373): a request with an unknown CMD is answered
BAD_COMMAND, and a PMBus write acts. A host-initiated write that it starts holds the rest. -/
def State.drain (s : State) : List Req → State
  | [] => s
  | r :: rest =>
    let t : State := { s with mb := { s.mb with queue := rest } }
    if !s.takes then s
    else if r.box = .pmb then t.nextJob.drain rest
    else if knownCommands.contains (s.mb.slot r).cmd then s
    else (t.refused r ansBadCommand).drain rest
/-- A turn is over: PMBus writes that waited for it follow. -/
def State.turnOver (s : State) : State := if s.pmb.jobs.isEmpty then s else s.drain s.mb.queue
/-- A DOORBELL comes in the present fab cycle (R372; log entry 131). -/
def Instr.doorbells : Instr → Bool
  | .doorbell _ => true
  | _ => false
/-- A PMBus write at its stop condition joins the order of the requests (R372): it acts at once where none waits, and where no
DOORBELL of the same fab cycle goes before it. -/
def State.pmbWrite (s : State) (code : Nat) (bs : List Byte) : State :=
  let j : PmbJob := { code := code, page := s.pmb.page, index := s.pmb.index, bytes := bs, fab := s.fab }
  let s := s.drain s.mb.queue
  if s.mb.queue.isEmpty && s.takes && !s.pending.any Instr.doorbells then s.runJob j
  else { s with mb := { s.mb with queue := s.mb.queue ++ [{ box := .pmb, slot := 0 }] }, pmb := { s.pmb with jobs := s.pmb.jobs ++ [j] } }

/-- The mailboxes that carry a command (R374). -/
inductive Boxes where
  | both
  | m0only
  | m1only
deriving DecidableEq, Repr
def Boxes.allow : Boxes → Iface → Bool
  | .both, _ => true
  | .m0only, i => decide (i ≠ .m1)
  | .m1only, i => decide (i = .m1)

/-- The serving supervisor executes the request at the head of the queue, if it names this command (R372, R374): one
cut short, with a wrong NARG, or on another mailbox is answered BAD_COMMAND. -/
def State.serve (s : State) (cmd : Nat) (boxes : Boxes) (narg : Nat → Bool) (body : Req → Slot64 → State → State) : State :=
  if !s.takes then s
  else
    let s := s.drain s.mb.queue
    match s.mb.queue with
    | [] => s
    | r :: rest =>
      let x := s.mb.slot r
      if r.box = .pmb ∨ x.cmd ≠ cmd ∨ s.takes = false then s
      else
        let jobs := s.pmb.jobs
        let s : State := { s with mb := { s.mb with queue := rest } }
        let t := if x.written < x.narg + 1 ∨ boxes.allow r.box = false ∨ narg x.narg = false then s.refused r ansBadCommand else body r x s
        if jobs.isEmpty then t else t.drain t.mb.queue

end Sys2Proof.Machine
end

