-- ==== Sys2Proof/Machine/Calibration.lean ====
section
/-!
DEFINITION. The end of a calibration (05_sensing_and_calibration.md, R160 to R164).
-/
namespace Sys2Proof.Machine

/-- What a computation gives (R160, R161): a result code that ends the operation, a held point, or a record. -/
inductive CalOut where
  | ends (code : Nat)
  | held (c : CtxId) (v code : Int)
  | record (typ ident : Nat) (gain off : Int) (provisional : Bool) (frac : Option Nat) (payload : List Byte)
deriving DecidableEq, Repr

/-- The new gain lies outside 0.8 to 1.25 times its nominal word (R161), which may be negative. -/
def gainOut (gain nom : Int) : Bool :=
  if nom < 0 then decide (4 * nom < 5 * gain) || decide (4 * gain < 5 * nom) else decide (5 * gain < 4 * nom) || decide (5 * nom < 4 * gain)
/-- The load fraction (R162). With a rating of 0 the manual gives it no value (R168), and of a negative one it does not say how the field
shows it: log entry 32. -/
def loadFraction (i rating : Int) : Nat :=
  if rating ≤ 0 then Config.zeroRatingFraction i % 256 else min 255 (100 * i.natAbs / rating.natAbs)
/-- A gain calibration is provisional below a fraction of 40, as that of a negative rating is, and always with a rating of 0 (R162,
R168). -/
def provisionalAt (f : Nat) (rating : Int) : Bool := decide (f < 40) || decide (rating ≤ 0)

/-- A calibration payload of R164. -/
def calPayload (ident typ frac flags : Nat) (w2 w3 w4 w5 w6 w7 t1 t2 : Int) (ftime : Nat) : List Byte :=
  leBytes 2 ident ++ leBytes 1 typ ++ leBytes 1 frac ++ leBytes 1 flags ++ leBytes 3 0 ++ leBytes 4 w2 ++ leBytes 4 w3 ++ leBytes 4 w4
    ++ leBytes 4 w5 ++ leBytes 4 w6 ++ leBytes 4 w7 ++ leBytes 2 t1 ++ leBytes 2 t2 ++ leBytes 6 ftime

/-- The item has a sensor fault (R158). -/
def State.calFault (s : State) : CalTarget → Bool
  | .railP1 c | .railP2 c => decide (16 ≤ s.ctx[c].sense.openRun)
  | .phaseGain p => s.ph[p].unavImon || s.ph[p].imonNow
  | .shuntGain c => decide (8 ≤ s.ctx[c].chan.openRun) || s.ctx[c].chan.zeroFault
/-- The temperatures a capture is tagged with (R164). -/
def State.calTemps (s : State) : CalTarget → Int × Int
  | .phaseGain p => ((s.zone (s.phZone p)).v, s.dieTemp)
  | .railP2 _ => (s.dieTemp, match s.cal.point with
    | some (_, _, _, t) => t
    | none => 0)
  | _ => (s.dieTemp, 0)

/-- RAIL_P2 (R160, R161). A pending point of another context is none for this one: DESIGN CHOICE, log entry 166. -/
def State.calRail (s : State) (c : CtxId) (v2 c2 : Int) : CalOut :=
  match s.cal.point with
  | none => .ends 0xC
  | some (d, v1, c1, _) =>
    if d ≠ c then .ends 0xC
    else if (c2 - c1).natAbs < 1048576 then .ends 7
    else
      let g := roundAway (F24 * (v2 - v1)) (c2 - c1)
      let o := roundAway (v1 * F24 - g * c1) F24
      if gainOut g (vgainNominal (s.cp c .vdiv)) || decide (65536 < o.natAbs) then .ends 8
      else .record 0x30 c.val g o false none (calPayload c.val 0 0 0 g o v1 v2 c1 c2 (s.calTemps (.railP2 c)).1 (s.calTemps (.railP2 c)).2 s.ftUs)
/-- PHASE_GAIN (R160 to R162). -/
def State.calPhase (s : State) (p : PhaseId) (i k : Int) : CalOut :=
  let off := (s.hph p).offset.v
  if (k - off).natAbs < 131072 then .ends 7
  else
    let g := roundAway (F24 * i) (k - off)
    if gainOut g (s.gainNominal p) then .ends 8
    else
      let rating := s.gp (.stageRate (s.imonType p))
      let f := loadFraction i rating
      let prov := provisionalAt f rating
      .record 0x31 p.val g 0 prov (some f) (calPayload p.val (s.imonType p).val f (flag prov 0) g off i k 0 0
        (s.calTemps (.phaseGain p)).1 (s.calTemps (.phaseGain p)).2 s.ftUs)
/-- SHUNT_GAIN (R160 to R162). -/
def State.calShunt (s : State) (c : CtxId) (i k : Int) : CalOut :=
  let off := s.ctx[c].chan.sofs
  if (k - off).natAbs < 16384 then .ends 7
  else
    let g := roundAway (F24 * i) (k - off)
    let r := s.cp c .rshunt
    if gainOut g (sgainNominal r) then .ends 8
    else
      let f := loadFraction i (iFs r)
      let prov := provisionalAt f (iFs r)
      .record 0x32 c.val g 0 prov (some f) (calPayload c.val 0 f (flag prov 0) g off i k 0 0 (s.calTemps (.shuntGain c)).1 0 s.ftUs)

/-- The computation of a completed capture (R160, R161, R164). -/
def State.calCompute (s : State) (t : CalTarget) : CalOut :=
  if s.calFault t || decide ((s.calTemps t).1 = 32767) || decide ((s.calTemps t).2 = 32767) then .ends 9
  else match t with
    | .railP1 c => .held c s.cal.trueV s.cal.sum
    | .railP2 c => s.calRail c s.cal.trueV s.cal.sum
    | .phaseGain p => s.calPhase p s.cal.trueV (4 * s.cal.sum)
    | .shuntGain c => s.calShunt c s.cal.trueV s.cal.sum

/-- A computation's outcome (R160 to R163): the record's write starts, or the operation ends. LOAD_FRAC is that of the last computation that
came to a fraction, also where the record is then refused: DESIGN CHOICE, log entry 168. -/
def State.calOutcome (s : State) (t : CalTarget) (o : CalOut) : State :=
  match o with
  | .ends k => s.calEnd k
  | .held c v k =>
    let temp := s.dieTemp
    ({ s with cal := { s.cal with point := some (c, v, k, temp) } } : State).calEnd 4
  | .record _ ident gain off prov frac payload =>
    let s : State := { s with cal := { s.cal with loadFrac := frac.getD s.cal.loadFrac } }
    if s.protects 3 then s.calEnd 0xA
    else if !s.inWindow then s.calEnd 0xB
    else { s with cal := { s.cal with running := none, writing := some (t, ident, payload, gain, off, prov) } }

/-- CAL_CAPTURE_DONE (R159 to R163): the capture of the running operation is complete. -/
def execCalCaptureDone (s : State) : Host.Outcome State Fault Refusal :=
  match s.cal.running with
  | none => .next s
  | some t =>
    if s.cal.count < t.words then .next s
    else
      let o := s.calCompute t
      let s : State := match t with
        | .railP1 _ => s
        | _ => { s with cal := { s.cal with point := none } }
      .next (s.calOutcome t o)

/-- The record type of a target (R325). -/
def CalTarget.typ : CalTarget → Nat
  | .railP1 _ | .railP2 _ => 0x30
  | .phaseGain _ => 0x31
  | .shuntGain _ => 0x32
/-- The new words are accepted as parameter writes (R163). -/
def State.calAccept (s : State) (t : CalTarget) (gain off : Int) (prov : Bool) : State :=
  match t with
  | .railP1 c | .railP2 c => s.commit (s.ctxTag c) (.railCal c gain off)
  | .phaseGain p => s.commit s.globTag (.phaseCal p gain prov)
  | .shuntGain c => s.commit (s.ctxTag c) (.shuntCal c gain prov)

/-- CAL_RECORD_WRITTEN (R162, R163): the record is in the store, and the operation ends as FINAL or PROVISIONAL. -/
def execCalRecordWritten (s : State) : Host.Outcome State Fault Refusal :=
  match s.nv.work, s.cal.writing with
  | .cal, some (t, ident, payload, gain, off, prov) =>
    let s := s.workDone.putRecord .q3 t.typ ident 52 payload
    let s : State := { s with cal := { s.cal with writing := none } }
    let s := s.calAccept t gain off prov
    let s := if prov then s.event 0xFF evCalProvisional (word (s.cal.lastCmd.toNat % 128)) (word s.cal.loadFrac) else s
    .next (s.calEnd (if prov then 3 else 2)).turnOver
  | _, _ => .next s

end Sys2Proof.Machine
end

