-- ==== Sys2Proof/Machine/StoreRows.lean ====
section
/-!
DEFINITION. What the write engine does (11_ledger_and_record_store.md, R331 to R336, R346 to R352; 09 R281).
-/
namespace Sys2Proof.Machine

/-- A routine write waits: one of the list, or a consolidation (R281). -/
def State.routineWaits (s : State) : Bool := !s.nv.routine.isEmpty || s.consolidationDue
/-- A log area whose oldest block is to be reclaimed (R329). -/
def Store.toReclaim (x : Store) : Option (Fin 3) :=
  (List.finRange 3).find? (fun k => !x.nextErased (Area.ofFin k) && decide (x.nextBlock (Area.ofFin k) ≠ x.at (Area.ofFin k) / 64))
/-- The ledger's own work: a consolidation that is due comes before the entries (R343). -/
def State.ledgerWork (s : State) : Work :=
  if s.consolidationDue then .consolidate
  else match s.led.queue with
    | [] => .idle
    | _ => if s.nv.tallyFull then .idle else .entry
/-- The device's own writes: the ledger and what waits in the order in which it arose, then a reclaim (R281, R331). -/
def State.ownWork (s : State) : Work :=
  let w : Work := match s.nv.routine with
    | [] => if s.consolidationDue then .consolidate else .idle
    | .entries :: _ => if s.dev.bootStep = 6 then s.ledgerWork else .idle
    | .bp :: _ => .idle
    | .fresh :: _ => .own
  if w = .idle then (match s.nv.toReclaim with
    | some k => .reclaim k
    | none => .idle) else w
/-- The work that the write engine takes next (R331, R335, R347, R351); the last gasp has rows of its own (R353). -/
def State.nextWork (s : State) : Work :=
  if s.nv.erasing then .erase
  else if !s.cairn.queue.isEmpty then .cairn
  else if !s.nv.hostQueue.isEmpty then .host
  else if s.cal.writing.isSome then .cal
  else if s.routineDeferred || s.nv.held then .idle
  else s.ownWork
/-- Routine writes that meet the window or a throttle are deferred, until they resume; the mark stays while any of them waits (R281). -/
def State.deferStep (s : State) : State :=
  if s.routineDeferred && s.routineWaits then { s with nv := { s.nv with deferred := true, held := true } }
  else if s.routineWaits then s
  else { s with nv := { s.nv with deferred := false, held := false } }
/-- A host-initiated write starts with two erased positions ahead of the write pointer (R331), a save with as many as it has records
(R437). -/
def State.startRecord (s : State) : State :=
  match s.nv.hostQueue with
  | [] => s
  | r :: rest =>
    let s := if r.1 = 0x20 then s.eraseAhead .q2 (rest.length + 1) else s.makeRoom (typeArea r.1)
    { s with nv := { s.nv with hostQueue := s.freshen r :: rest } }
/-- The head of the waiting routine writes has had its turn. -/
def Store.popRoutine (x : Store) : Store := { x with routine := x.routine.drop 1 }
/-- The routine writes at the head of their list whose turn takes no row: a take's accounts queue once the earlier ones have their
entries, and the device's own NVM_BP record is programmed (R334, R341). The fuel is the length of the list. -/
def State.routineTurns : Nat → State → State
  | 0, s => s
  | n + 1, s =>
    match s.nv.routine with
    | .entries :: _ =>
      if s.led.queue.isEmpty then
        let t := s.queueEntries
        if t.led.queue.isEmpty then State.routineTurns n { s with nv := s.nv.popRoutine } else t
      else s
    | .bp :: _ => State.routineTurns n ({ s with nv := s.nv.popRoutine } : State).putBp
    | _ => s
def State.routineTurn (s : State) : State := State.routineTurns s.nv.routine.length s
/-- The write engine begins what comes next. -/
def State.startWork (s : State) (w : Work) : State :=
  let s : State := { s with nv := { s.nv with work := w } }
  match w with
  | .host => s.startRecord
  | .cal => s.makeRoom .q3
  | _ => s
/-- The write engine at the edge of a fab cycle (R281, R331; log entry 143): an idle engine takes the next work, in every state
but COLD and HOLDUP. -/
def State.engineStep (s : State) : State :=
  match s.dev.st with
  | .cold => s
  | .holdup => s
  | _ =>
    let s := s.deferStep
    if s.nv.work ≠ .idle then s
    else
      let s := if s.routineDeferred || s.nv.held || decide (s.dev.bootStep ≠ 6) then s else s.routineTurn
      s.startWork s.nextWork

/-- DEFERRED_WRITES_RESUME (R281): the window is regained and no throttle holds; what waited runs in its original order. -/
def execDeferredWritesResume (s : State) : Host.Outcome State Fault Refusal :=
  if s.routineDeferred then .next s else .next { s with nv := { s.nv with held := false } }

/-- A record of the host-initiated write is programmed (R327, R331). -/
def State.hostRecord (s : State) (typ ident : Nat) (b : List Byte) : State :=
  (s.putRecord (typeArea typ) typ ident (typeLen typ) b).recordDone typ ident b
/-- HOST_RECORD_WRITE_DONE (R327, R331, R332, R385): the last cell of a host-initiated record is programmed; after the
last record the request that asked for the write is answered. -/
def execHostRecordWriteDone (s : State) : Host.Outcome State Fault Refusal :=
  match s.nv.work, s.nv.hostQueue, s.nv.hostWrite with
  | .host, (typ, ident, b) :: rest, some (n, reply) =>
    let s := s.workDone.hostRecord typ ident b
    let s : State := { s with nv := { s.nv with hostQueue := rest, hostWrite := some (n - 1, reply) } }
    match rest with
    | [] => .next ({ s with nv := { s.nv with hostWrite := none }, mb := s.mb.release reply } : State).turnOver
    | _ => .next s
  | _, _, _ => .next s

/-- One of the snapshots of a declaration is taken; after the last the ring resumes (R69). -/
def Prot.snapshotTaken (x : Prot) : Prot :=
  { x with snapshots := x.snapshots - 1, ringFrozen := x.ringFrozen && decide (1 < x.snapshots) }

/-- The record of a request is programmed in the ring (R347, R349). -/
def State.putRequest (s : State) (r : CairnReq) : State :=
  match r.signal with
  | none =>
    let n := s.cairn.sinceSummary[r.source]
    let s := s.cairnPut 0x01 r.source.val 52 (r.payload n)
    { s with cairn := { s.cairn with sinceSummary := s.cairn.sinceSummary.set r.source 0 } }
  | some k =>
    if h : r.source.val < 64 then
      let c : CtxId := ⟨r.source.val, h⟩
      let p := s.snapshotPayload c k.val
      (p.1.cairnPut 0x02 c.val 52 p.2).modCtx c (fun x => { x with prot := x.prot.snapshotTaken })
    else s
/-- A block of the Cairn ring fails its program (R336). -/
def State.cairnFails (s : State) : Bool := s.nv.fails (64 * s.nv.cairnAt)

/-- The request at the head of the queue is programmed; one that dismissed an item frees it (R346). A block that fails it is retired,
and the record goes to the next (R336). -/
def State.cairnHead (s : State) : State :=
  match s.cairn.queue with
  | [] => s
  | r :: rest =>
    if s.cairnFails then s.storeTo (s.nv.retire (s.nv.cairnAt / 64)).cairnAhead
    else
      let s := ({ s with cairn := { s.cairn with queue := rest } } : State).putRequest r
      match r.frees with
      | some k => s.freeItem k
      | none => s
/-- CAIRN_RECORD_WRITE (R331, R335, R347 to R351): the Cairn record in progress is programmed. In HOLDUP the last gasp writes the queue
(R353). -/
def execCairnRecordWrite (s : State) : Host.Outcome State Fault Refusal :=
  if s.nv.work = .cairn then .next s.workDone.cairnHead else .next s

/-- Capacitance of the hold capacitor in microfarads, from the fall of VHOLD (R352). -/
def holdCap (dropMicrovolt : Nat) : Nat := if dropMicrovolt = 0 then 4095 else min 4095 (10000000 / dropMicrovolt)
/-- HOLD_TEST (R352, R361): every 10 s in STANDBY and RUN, VHOLD in units of 10 mV, and its fall under 10 mA for 1 ms. -/
def execHoldTest (vhold10mV : Nat) (dropMicrovolt : Nat) (s : State) : Host.Outcome State Fault Refusal :=
  let due := match s.cairn.testedAt with
    | none => true
    | some t => decide (t + 10 * sTicks ≤ s.clk.time)
  let up := match s.dev.st with
    | .standby | .run => true
    | _ => false
  if due && up then
    let now := s.clk.time
    let s : State := { s with cairn := { s.cairn with vhold := vhold10mV % 65536, cap := holdCap dropMicrovolt, testedAt := some now } }
    .next (if s.cairn.holdOk then s else s.event 0xFF evHoldLow s.holdWord 0)
  else .next s

/-- The summary that is the first record after a Cairn erase (R351). -/
def State.erasedSummary (s : State) : CairnReq :=
  { source := srcStore, code := evCairnErased, fclass := 0xFF, tag := s.tag32, ftime := s.ftUs, devState := s.devStateWord.toNat % 256,
    valid := s.ft.valid, words := s.summaryWords srcStore none (word s.cairn.ack), signal := none }
/-- CAIRN_ERASE_DONE (R351): the eight blocks are erased; the first record is a summary with the acknowledged sequence. -/
def execCairnEraseDone (s : State) : Host.Outcome State Fault Refusal :=
  if s.nv.work = .erase then
    let r := s.erasedSummary
    let x := (List.range 8).foldl (fun y b => y.eraseBlock b) s.nv
    let s := s.storeTo { x with ptrCairn := 0, erasing := false, work := .idle }
    let s : State := { s with free := s.free + 7, cairn := { s.cairn with written := upd s.cairn.written srcStore (· + 1) } }
    .next ((s.putRequest r).event 0xFF evCairnErased (word s.cairn.ack) 0)
  else .next s

end Sys2Proof.Machine
end

