-- ==== Sys2Proof/Machine/Power.lean ====
section
/-!
DEFINITION. Entries to BOOT, HOLDUP and COLD, supplies, resets, SAFE_N and the clock (01_architecture.md R32 to R37; 10
R309 to R313; 11 R333, R353; 15 R441 to R454).
-/
namespace Sys2Proof.Machine

/-- What a channel keeps through a BOOT that is no power-up (R244, R269). -/
def Chan.rebooted (x : Chan) : Chan :=
  { st := x.st, cause := x.cause, seated := x.seated, seatLowSince := x.seatLowSince, conducting := x.conducting, vgs := x.vgs,
    tripped := x.tripped, shuntUv := x.shuntUv, tripCounted := x.tripCounted, pullStart := x.pullStart, granted := x.granted, toDeclare := x.toDeclare, stuckSeen := x.stuckSeen, senseDue := x.senseDue }
/-- What the record store keeps (R322, R330): a record cut off is not in force. -/
def Store.kept (x : Store) : Store :=
  { mem := x.mem, ptrQ1 := x.ptrQ1, ptrQ2 := x.ptrQ2, ptrQ3 := x.ptrQ3, ptrTally := x.ptrTally, ptrCairn := x.ptrCairn,
    eraseCount := x.eraseCount, retiredBlocks := x.retiredBlocks, worn := x.worn }
/-- What the summit keeps: the code flash and the release floor (R304, R306). -/
def Summit.kept (x : Summit) : Summit :=
  { floor := x.floor, flashA := x.flashA, flashB := x.flashB, erasedA := x.erasedA, erasedB := x.erasedB }
/-- A supply is in undervoltage, or has been above its rising level for less than 1 ms since (R444). -/
def Dev.uv (d : Dev) : Bool := d.uvIo || d.uvA || d.uvH || d.uvE || d.uvW
/-- The internal rails are up: step 6 of the power-up has been reached, and no rail has dipped since (R444, R448). -/
def Dev.up (d : Dev) : Bool := !d.powerUp && !d.uv
/-- Levels and supplies that a BOOT finds. -/
def Dev.kept (d : Dev) (power : Bool) : Dev :=
  { movedAt := d.movedAt, lost := d.lost, rstLow := d.rstLow, safeNLow := d.safeNLow, vinOn := d.vinOn, mfPins := d.mfPins, vsup := d.vsup, supStatus := d.supStatus,
    rcMhz := d.rcMhz, uvIo := !power && d.uvIo, uvA := !power && d.uvA, uvH := !power && d.uvH, uvE := !power && d.uvE,
    uvW := !power && d.uvW, powerUp := power || d.powerUp, drivers := !power && d.drivers, bootStep := if d.up && !power then 2 else 1 }

/-- The start of BOOT (R33, R35, R40; log entry 5): every register at its reset value. A power-up finds comparators
tripped and channels UNSEATED (R244, R269); another BOOT opens every switch (R37). Challenges never repeat (R383), and requests that are
queued for the Cairn stay queued, with the suppressions that no summary has shown, but for a loss of power (R350, R356). -/
def State.startBoot (s : State) (power : Bool) : State :=
  let s := if power then s else ctxIds.foldl (fun s c => s.offCmd c) s
  let b : State := State.reset
  let t : State :=
    { b with
      dev := { s.dev.kept power with movedAt := some s.fab }
      clk := { time := s.clk.time, lossCount := s.clk.lossCount }
      ctx := if power then b.ctx else every b.ctx (fun c x => { x with chan := s.ctx[c].chan.rebooted })
      crag := if power then b.crag else s.crag
      sum := s.sum.kept
      nv := s.nv.kept
      cairn := if power then { newest := s.cairn.newest }
               else { newest := s.cairn.newest, queue := s.cairn.queue, sinceSummary := s.cairn.sinceSummary }
      mb := { b.mb with challenges := s.mb.challenges }
      jtag := s.jtag
      free := s.free
      pending := s.pending }
  ctxIds.foldl State.tripFollow t.cragConfig
/-- Entry to BOOT from another state, with its event (R381). -/
def State.toBoot (s : State) : State :=
  let t := s.startBoot false
  if s.dev.st = .boot then t else t.event 0xFF evStateChange t.devStateWord s.devStateWord

/-- Entry to COLD (R33, R446, R454). -/
def State.toCold (s : State) : State :=
  let t := s.startBoot true
  { t with dev := { t.dev with st := .cold }, clk := { t.clk with lossCount := 0 } }

/-- The newest sequence of the Cairn ring; one that holds no record keeps the sequence (R347). -/
def State.cairnScan (s : State) : State :=
  match s.nv.cairnRecords with
  | [] => s
  | r :: rs => { s with cairn := { s.cairn with newest := rs.foldl (fun n x => if serialNewer 32 x.seq n then x.seq else n) r.seq } }

/-- VIN_UVLO_RISE (R33, R448): from COLD, BOOT is entered. -/
def execVinUvloRise (s : State) : Host.Outcome State Fault Refusal :=
  let s : State := { s with dev := { s.dev with vinOn := true } }
  match s.dev.st with
  | .cold => .next (s.startBoot true).cairnScan
  | _ => .next s

/-- PIN_DRIVERS_ENABLED (R448, R449): step 5 of the power-up; the drivers hold safe levels. -/
def execPinDriversEnabled (s : State) : Host.Outcome State Fault Refusal :=
  .next (if s.dev.st = .boot ∧ s.dev.powerUp = true then { s with dev := { s.dev with drivers := true } } else s)

/-- SELF_SUPPLIES_UP (R40, R448): step 6 of the power-up follows its step 5, and is step 2 of the boot sequence, for which no rail may be
inside the hold of a dip (R444). -/
def execSelfSuppliesUp (s : State) : Host.Outcome State Fault Refusal :=
  let d := s.dev
  .next (if d.st = .boot ∧ d.powerUp = true ∧ d.drivers = true then
    { s with dev := { d with powerUp := false, bootStep := if d.uv then d.bootStep else max d.bootStep 2 } }
  else s)

/-- The halves lose their power (R445); what they held is with the write engine, read from the holder's cells. -/
def State.haltHalves (s : State) : State :=
  let f (x : HalfS) : HalfS := { x with resyncing := false, resyncTag := none, supRunning := false }
  (s.modHs .east f).modHs .west f

/-- Accounts with a count still to be committed, in rising number (R353). -/
def State.owedAccounts (s : State) : List (Fin 128) :=
  (List.finRange 128).filter (fun a => decide ((s.cell (accCtx a)).staged a ≠ s.pendingSub a))
/-- A record of a host-initiated write is cut off (R333): how many of its cells are programmed is a free value. -/
def State.cutRecord (s : State) (a : Area) (typ ident len : Nat) (payload : List Byte) : State :=
  let n := (Config.freeValue s.free).toNat % 8
  { s with free := s.free + 1, nv := s.nv.cutOff a (s.nv.nextRec a typ ident len payload) n }
/-- What the write engine is at as HOLDUP is entered (R331, R333): a Cairn record or a tally entry is completed, a host-initiated record
is cut off, and any other work is given up (log entry 146). -/
def State.cutWork (s : State) : State :=
  match s.nv.work with
  | .cairn => s.workDone.cairnHead
  | .entry => (match s.led.queue with
    | [] => s
    | a :: rest => ({ s with led := { s.led with queue := rest } } : State).programEntry a)
  | .host => (match s.nv.hostQueue with
    | [] => s
    | r :: _ => s.cutRecord (typeArea r.1) r.1 r.2.1 (typeLen r.1) r.2.2)
  | .cal => (match s.cal.writing with
    | none => s
    | some w => s.cutRecord .q3 w.1.typ w.2.1 52 w.2.2.1)
  | _ => s

/-- Entry to HOLDUP (R37, R244, R333, R341, R353, R445): the hold switch closes, rails stop, every switch opens, a take is
made, and a host-initiated write is abandoned. -/
def State.enterHoldup (s : State) : State :=
  let s := (s.applySafe.offCmd 0).cutWork.takeCounts
  let s : State := { s with led := { s.led with queue := s.owedAccounts }
                            nv := { s.nv with work := .idle, routine := [], deferred := false, held := false, hostWrite := none, hostQueue := [], erasing := false }
                            cal := { s.cal with waiting := none, running := none, writing := none }
                            cairn := { s.cairn with gaspStage := 0, gaspCell := none }
                            tarnA := { s.tarnA with driveEnd := 0 }
                            tarnB := { s.tarnB with driveEnd := 0 }
                            dev := { s.dev with holdSwitch := true, powerUp := true, uvE := false, uvW := false } }
  s.haltHalves.goto .holdup

/-- VIN_UVLO_FALL (R33, R445). -/
def execVinUvloFall (s : State) : Host.Outcome State Fault Refusal :=
  let s : State := { s with dev := { s.dev with vinOn := false } }
  .next (if s.dev.st.powered then s.move .holdup State.enterHoldup else s)

/-- A record's place in a log area, without a reclaim: the pointer passes it (R329). -/
def State.place64 (s : State) (a : Area) (typ ident len : Nat) (payload : List Byte) : State × Nat × List Byte :=
  let p := s.nv.at a
  ({ s with nv := s.nv.setPtr a ((p + 1) % a.positions) }, a.addr p, (s.nv.nextRec a typ ident len payload).bytes)
/-- A record's place in the Cairn ring (R347). -/
def State.placeCairn (s : State) (typ ident len : Nat) (payload : List Byte) : State × Nat × List Byte :=
  let s := s.storeTo s.nv.cairnReady
  let p := s.nv.cairnAt
  let r := s.cairnRec typ ident len payload
  ({ s with nv := { s.nv with ptrCairn := (p + 1) % 512 }, cairn := { s.cairn with newest := r.seq } }, 64 * p, r.bytes)

/-- The 7 bytes of a context's remainders: 20 bits of charge below 34 bits of energy (R353). -/
def State.remBytes (s : State) (c : CtxId) : List Byte := leBytes 7 ((s.cell c).qRem.v + 1048576 * (s.cell c).eRem.v)
/-- Contexts of a LEDGER_REM record (R353). -/
def remCtxs (i : Nat) : List CtxId := ctxIds.filter (fun c => c.val / 7 = i)
/-- The payload of a LEDGER_REM record (R353). -/
def State.remPayload (s : State) (i : Nat) : List Byte :=
  padTo 50 ((remCtxs i).flatMap (fun c => s.remBytes c)) ++ leBytes 2 (s.led.run.toNat : Int)
/-- Sources whose suppressions no summary has shown (R350). -/
def State.closeSources (s : State) : List (Fin 69) := (List.finRange 69).filter (fun k => decide (s.cairn.sinceSummary[k] ≠ 0))

/-- The next tally entry of the last gasp (R341, R353): its delta leaves S at once, as no commit tag follows, and an account with more
than one entry holds stays for the next. -/
def State.gaspEntries (s : State) : Option (State × Nat × List Byte) :=
  match s.led.queue with
  | [] => none
  | a :: rest =>
    let v := s.nextDelta a
    let more := s.moreStaged a
    let b := tallyBytes a.val (s.ctx[accCtx a].stagedMark (accEnergy a)) s.led.nextSeq v
    let p := s.nv.tallyAt
    let t : State := { s with led := { s.led with queue := if more then a :: rest else rest, nextSeq := (s.led.nextSeq + 1) % 65536 }
                              nv := { s.nv with ptrTally := (p + 1) % 1024 } }
    let t := if more then t else t.modCtx (accCtx a) (fun x => x.clearStaged (accEnergy a))
    some (t.tallySub a v, tallyAddr p, b)
/-- The queued Cairn records, and the CAIRN_CLOSE records (R350, R353). -/
def State.gaspQueue (s : State) : Option (State × Nat × List Byte) :=
  match s.cairn.queue with
  | [] => none
  | r :: rest =>
    let n := s.cairn.sinceSummary[r.source]
    let t : State := { s with cairn := { s.cairn with queue := rest } }
    match r.signal with
    | none => some (({ t with cairn := { t.cairn with sinceSummary := t.cairn.sinceSummary.set r.source 0 } } : State).placeCairn
        0x01 r.source.val 52 (r.payload n))
    | some k =>
      let c : CtxId := ⟨r.source.val % 64, by omega⟩
      let p := t.snapshotPayload c k.val
      some (p.1.placeCairn 0x02 c.val 52 p.2)
def State.gaspClose (s : State) : Option (State × Nat × List Byte) :=
  match s.closeSources.take 10 with
  | [] => none
  | l =>
    let b := l.flatMap (fun k => leBytes 1 k.val ++ leBytes 4 (s.cairn.sinceSummary[k] : Nat))
    let t : State := { s with cairn := { s.cairn with sinceSummary := every s.cairn.sinceSummary (fun k n => if l.contains k then 0 else n) } }
    some (t.placeCairn 0x03 0 b.length b)

/-- One stage of the last gasp that may have nothing to program. -/
def State.gaspStageNext (s : State) : State := { s with cairn := { s.cairn with gaspStage := s.cairn.gaspStage + 1 } }
/-- What comes next, by stages; none once the sequence is complete. Counts that a full tally ring leaves uncommitted leave the run open:
no LEDGER_CLOSE follows, so that the next BOOT opens a GAP (R344, R356). Where no run is open, before step 6 of the boot sequence, there
is nothing of a run to save or to close. The fuel is the number of stages. -/
def State.gaspNext : Nat → State → State × Option (Nat × List Byte)
  | 0, s => (s, none)
  | n + 1, s =>
    let k := s.cairn.gaspStage
    let o : Option (State × Nat × List Byte) :=
      if k = 0 then (if s.nv.tallyFull then none else s.gaspEntries)
      else if k ≤ 10 ∧ s.led.run = 0 then none
      else if k ≤ 10 then some (s.gaspStageNext.place64 .q1 0x11 (k - 1) 52 (s.remPayload (k - 1)))
      else if k = 11 then s.gaspQueue
      else if k = 12 then s.gaspClose
      else if k = 13 ∧ s.led.queue = [] ∧ s.led.run ≠ 0 then some (s.gaspStageNext.place64 .q1 0x13 0 4 (leBytes 4 (s.led.run.toNat : Int)))
      else none
    match o with
    | some (t, a, b) => (t, some (a, b))
    | none => if k < 14 then State.gaspNext n s.gaspStageNext else (s, none)

/-- One 8-byte cell of the last gasp (R323, R353): the entry or record in progress, or the next one's first. -/
def State.gaspCellStep (s : State) : State :=
  let r : State × Option (Nat × List Byte) := match s.cairn.gaspCell with
    | some x => (s, some x)
    | none => s.gaspNext 15
  match r.2 with
  | none => r.1
  | some (a, b) =>
    { r.1 with nv := r.1.nv.program a (b.take 8)
               cairn := { r.1.cairn with gaspCell := if (b.drop 8).isEmpty then none else some (a + 8, b.drop 8) } }

/-- LAST_GASP (R335, R350, R353): in HOLDUP the next cells of the sequence are programmed, inside the window of −40 °C to
+125 °C. -/
def execLastGasp (cells : Nat) (s : State) : Host.Outcome State Fault Refusal :=
  match s.dev.st with
  | .holdup => if s.dieWithin (-5120) 16000 then .next (iter State.gaspCellStep cells s) else .next s
  | _ => .next s

/-- HOLDUP is left for BOOT or COLD as VIN selects (R33, R447). -/
def State.leaveHoldup (s : State) : State := if s.dev.vinOn then s.toBoot else s.toCold
/-- Nothing is left to program: the sequence is complete, or the window forbids it (R335, R353). -/
def State.gaspOver (s : State) : Bool :=
  !s.dieWithin (-5120) 16000 || (s.cairn.gaspCell.isNone && (s.gaspNext 15).2.isNone)
/-- LAST_GASP_COMPLETE (R33). -/
def execLastGaspComplete (s : State) : Host.Outcome State Fault Refusal :=
  match s.dev.st with
  | .holdup => if s.gaspOver then .next s.leaveHoldup else .next s
  | _ => .next s
/-- LAST_GASP_STOP (R353, R447): VHOLD is at 4.5 V; the writes have ended, and a record in progress stays cut off. -/
def execLastGaspStop (s : State) : Host.Outcome State Fault Refusal :=
  match s.dev.st with
  | .holdup => .next s.leaveHoldup
  | _ => .next s
/-- VHOLD_MINIMUM (R33, R446). -/
def execVholdMinimum (s : State) : Host.Outcome State Fault Refusal :=
  match s.dev.st with
  | .holdup => .next s.toCold
  | _ => .next s

/-- RESET_N_LOW (R33 to R35, R450). -/
def execResetNLow (ns : Nat) (s : State) : Host.Outcome State Fault Refusal :=
  if resetTaken ns then
    let s : State := { s with dev := { s.dev with rstLow := true } }
    .next (if s.dev.st.resets then s.move .reset State.toBoot else s)
  else .next s
/-- RESET_N_RISE (R35, R450). -/
def execResetNRise (s : State) : Host.Outcome State Fault Refusal := .next { s with dev := { s.dev with rstLow := false } }

def Dev.setUv (d : Dev) (r : Supply) (b : Bool) : Dev :=
  match r with
  | .io => { d with uvIo := b }
  | .a => { d with uvA := b }
  | .h => { d with uvH := b }
  | .e => { d with uvE := b }
  | .w => { d with uvW := b }
/-- A half's core supply falls below its level (R290, R444). -/
def State.coreLow (s : State) (h : HalfId) : State :=
  let r : Supply := match h with
    | .east => .e
    | .west => .w
  let s : State := { s with dev := s.dev.setUv r true }
  if s.dev.st.resets then s.loseElig h (fun x => { x with coreUv := true }) else s
/-- SUPPLY_UNDERVOLTAGE (R444): VDD_IO, VDDA or VDD_H acts as RESET_N held low outside HOLDUP. -/
def execSupplyUndervoltage (r : Supply) (s : State) : Host.Outcome State Fault Refusal :=
  match r with
  | .e => .next (s.coreLow .east)
  | .w => .next (s.coreLow .west)
  | r =>
    let s : State := { s with dev := s.dev.setUv r true }
    .next (if s.dev.st.resets then s.move .reset State.toBoot else s)
/-- CORE_UNDERVOLTAGE (R290, R444). -/
def execCoreUndervoltage (h : HalfId) (s : State) : Host.Outcome State Fault Refusal := .next (s.coreLow h)
/-- SUPPLY_RECOVERED (R290, R444): the rail has been above its rising level for 1 ms. -/
def execSupplyRecovered (r : Supply) (s : State) : Host.Outcome State Fault Refusal :=
  let d := s.dev.setUv r false
  let s : State := { s with dev := { d with bootStep := if d.st = .boot ∧ d.bootStep < 2 ∧ d.up = true then 2 else d.bootStep } }
  match r with
  | .e => .next (s.modHs .east (fun x => { x with coreUv := false }))
  | .w => .next (s.modHs .west (fun x => { x with coreUv := false }))
  | _ => .next s

/-- SAFE_N_LOW (R37, R39, R313): a low of 100 ns is taken, one below 50 ns is not; `held` is the level it leaves. -/
def execSafeNLow (ns : Nat) (held : Bool) (s : State) : Host.Outcome State Fault Refusal :=
  if safeTaken ns then
    let s := s.safeTrigger .pin
    .next { s with dev := { s.dev with safeNLow := held } }
  else .next { s with dev := { s.dev with safeNLow := s.dev.safeNLow && held } }

/-- What the clock monitor has lost (R309). -/
def Clk.lose (x : Clk) : ClockCause → Clk
  | .root => { x with rootOk := false }
  | .pllEast => { x with lockE := false }
  | .pllWest => { x with lockW := false }
  | .pllHeath => { x with lockH := false }
/-- CLOCK_LOSS (R32, R309, R454): counted once per loss; a delay that was being measured is given up (R192). -/
def execClockLoss (cause : ClockCause) (s : State) : Host.Outcome State Fault Refusal :=
  if !s.clk.synced then .next s
  else
    let first := s.clk.ok
    let s : State := { s with clk := s.clk.lose cause }
    if !first then .next s
    else
      let s : State := { s with clk := { s.clk with lossCount := capInc s.clk.lossCount 255 }
                                ph := every s.ph (fun _ x => { x with forced := true }) }
      let s := s.safeTrigger .clock
      .next { s with ctx := every s.ctx (fun _ x => { x with chan := { x.chan with measOn := none, measOff := none } }) }

/-- Everything that counts sample enables starts again with the tag (R310): waiting writes keep their distance to their
commit tags, and boundaries are counted from the fresh sync pulse (R24). -/
def HPhase.resync (h : HPhase) : HPhase :=
  { h with state := (match h.state with
             | .unbound => .unbound
             | _ => .parked)
           pulse := none
           landed := none
           lastEnd := 0
           parkedTag := none
           rawTag := 0
           pend := match h.landed with
             | some (_, t) => t
             | none => h.pend }
def Cell.resync (k : Cell) : Cell := { k with presented := 0, portTag := 0, iswTag := 0, last := { k.last with enable := 0 }, prev := { k.prev with enable := 0 } }
def Half.resync (x : Half) : Half :=
  { x with cell := every x.cell (fun _ k => k.resync), ph := every x.ph (fun _ h => h.resync), edges := [], prevEdges := [] }
def Ctx.resync (x : Ctx) : Ctx :=
  { x with anchor := 0, lastDone := none, scrubbed := none, mode := { x.mode with writtenAt := none }
           sense := { x.sense with lastWord := none }, chan := { x.chan with lastWord := none }
           tarn := { x.tarn with waiting := x.tarn.waiting.map (fun r => (r.1, 0)) } }
def PhaseS.resync (x : PhaseS) : PhaseS := { x with followAt := none, azRun := none, movedTag := 0 }
def HalfS.resync (x : HalfS) : HalfS := { x with errTags := [], hbTag := none, freezeTag := none, thawTag := none }
def Summit.resync (x : Summit) : Summit :=
  { x with handoverAt := none, disagreeTag := none, east := x.east.resync, west := x.west.resync }
def State.retag (s : State) : State :=
  let now := s.enables
  let s := s.halves Half.resync
  { s with clk := { s.clk with fast := 0, lastInner := none }, ctx := every s.ctx (fun _ x => x.resync), sum := s.sum.resync
           ph := every s.ph (fun _ x => x.resync), commits := s.commits.map (fun k => { k with tag := k.tag - now }) }

/-- CLOCK_RETURN (R310, R311): the clock has been back for 1 ms, a fresh sync pulse restarts the tag, and both halves are
to requalify. -/
def execClockReturn (s : State) : Host.Outcome State Fault Refusal :=
  if s.clk.ok || !s.clk.synced then .next s
  else
    let s := s.retag
    let s : State := { s with clk := { s.clk with rootOk := true, lockE := true, lockW := true, lockH := true }
                              ft := { s.ft with locked := false } }
    match s.dev.st with
    | .safe =>
      let f (x : HalfS) : HalfS := { x with eligible := false, resyncing := false, resyncTag := none, resyncCopied := false, resyncBad := false }
      let s := ((s.modHs .east f).modHs .west f).setHolder none
      .next { s with sum := { s.sum with testing := true } }
    | _ => .next s

/-- REQUALIFICATION (R294, R311): in SAFE with no holder, the window of 20 ms ends. -/
def execRequalification (eastPass westPass : Bool) (s : State) : Host.Outcome State Fault Refusal :=
  if s.dev.st = .safe ∧ s.holder = none ∧ s.clk.ok = true ∧ s.clk.synced = true then .next (s.requalify eastPass westPass) else .next s

end Sys2Proof.Machine
end

