-- ==== Sys2Proof/Machine/Boot.lean ====
section
/-!
DEFINITION. The boot sequence (01_architecture.md, R31, R40; 10 R290 to R294, R307; 11 R328, R344 to R347; 14 R436 to R440; 05 R165).
-/
namespace Sys2Proof.Machine

/-- Resistors of R390 in ohms, for k from 1 to 14. -/
def pmbOhms : List Nat := [1000, 1500, 2200, 3300, 4700, 6800, 10000, 15000, 22000, 33000, 47000, 68000, 100000, 150000]
/-- The strap k of a resistor (R390): at most 100 Ω, within 1 % of a value, or open, here from 1 MΩ on; what the part reads in none of
these bands is a free value (log entry 147). -/
def pmbStrap (ohm : Nat) : Fin 16 :=
  if ohm ≤ 100 then 0
  else if 1000000 ≤ ohm then 15
  else match (List.finRange 14).find? (fun k => decide (99 * pmbOhms.getD k.val 0 ≤ 100 * ohm) && decide (100 * ohm ≤ 101 * pmbOhms.getD k.val 0)) with
    | some k => ⟨k.val + 1, by omega⟩
    | none => Config.pmbStrap ohm
/-- HEATH_SYNC_PULSE (R30, R31, R40, R171, R390): step 3 of the boot sequence, with RESET_N high and the supplies up. -/
def execHeathSyncPulse (refClock : Bool) (pmbOhm : Nat) (s : State) : Host.Outcome State Fault Refusal :=
  let d := s.dev
  if d.st = .boot ∧ d.bootStep = 2 ∧ d.rstLow = false ∧ d.uvIo = false ∧ d.uvA = false ∧ d.uvH = false then
    .next { s with dev := { d with bootStep := 3 }
                   clk := { s.clk with fast := 0, synced := true, srcRef := refClock, rootOk := true, lockE := true, lockW := true, lockH := true }
                   ft := {}
                   pmb := { s.pmb with addr := 0x40 + (pmbStrap pmbOhm).val } }
  else .next s

/-- What the self-test window finds of one half (R290, R307, R320, R444): it loads its image, and is eligible if it has passed and no
condition keeps it from that; a half that failed is retired. -/
def State.bootHalf (s : State) (h : HalfId) (pass : Bool) : State :=
  let uv := match h with
    | .east => s.dev.uvE
    | .west => s.dev.uvW
  let s := s.bootSup h
  if pass then s.modHs h (fun x => { x with coreUv := uv, eligible := !uv && !x.blocked && !x.attribErr && !x.silent && !x.hbLost && !x.writeMiss })
  else (s.modHs h (fun x => { x with selftestFail := true })).retire h
/-- A SAFE cause is present once the summit has been arbitrated (R34, R39). -/
def State.safeAtBoot (s : State) : State :=
  let s : State := if s.dev.safeNLow then { s with dev := s.dev.cause .pin s.fab } else s
  if s.dev.st = .boot && s.dev.caused then s.move .safe State.enterSafe else s
/-- SELF_TEST_WINDOW_CLOSE (R34, R40, R293, R305 to R307): step 4 of the boot sequence. -/
def execSelfTestWindowClose (eastPass westPass : Bool) (s : State) : Host.Outcome State Fault Refusal :=
  if s.dev.st = .boot ∧ s.dev.bootStep = 3 then
    let s : State := { s with sum := (s.sum.check false).check true }
    let s := (s.bootHalf .east eastPass).bootHalf .west westPass
    let s : State := { s with sum := s.sum.refresh, dev := { s.dev with bootStep := 4 } }
    .next s.firstHolder.safeAtBoot
  else .next s

/-- Records of slot A whose slot B counts as equal in sequence, with differing payloads or 2^31 apart (R326, R328). -/
def tiesWith (x y : Rec) : Bool :=
  decide (x.typ = y.typ) && decide (x.ident = y.ident) && y.slotB && !serialNewer 32 x.seq y.seq && !serialNewer 32 y.seq x.seq
    && (decide (x.payload ≠ y.payload) || decide (x.seq ≠ y.seq))
def Store.ties (x : Store) (a : Area) : List Rec :=
  let l := x.records a
  (l.filter (fun r => !r.2.slotB && decide (inForceIn l r.2.typ r.2.ident = some r) && l.any (fun y => tiesWith r.2 y.2))).map (·.2)
/-- The ties of an area are reported, each with a Cairn summary and an event (R328, R381). -/
def State.reportTies (s : State) (a : Area) : State :=
  (s.nv.ties a).foldl (fun s r =>
    let s : State := { s with nv := { s.nv with rsTie := true } }
    (s.event srcStore.val evStore s.nvmStatusWord 0).summary srcStore evStore 0xFF none (word (65536 * r.typ + r.ident))) s

/-- The calibration words of a record (R150, R162, R164, R165). -/
def recGain (r : Rec) : Int := signedOf 32 (leAt r.payload 8 4)
def recOffset (r : Rec) : Int := signedOf 32 (leAt r.payload 12 4)
def recProvisional (r : Rec) : Bool := bitOf (leAt r.payload 4 1) 0
def State.calRestore (s : State) (r : Rec) : State :=
  match r.typ with
  | 0x30 => if h : r.ident < 64 then s.modCtx ⟨r.ident, h⟩ (fun x => { x with sense := { x.sense with cal := some (recGain r, recOffset r) } }) else s
  | 0x31 =>
    if h : r.ident < 96 then
      s.modPh ⟨r.ident, h⟩ (fun x => { x with gainFinal := if recProvisional r then none else some (recGain r), provisional := recProvisional r })
    else s
  | 0x32 =>
    if h : r.ident < 64 then
      s.modChan ⟨r.ident, h⟩ (fun x => { x with cal := if recProvisional r then none else some (recGain r), provisional := recProvisional r })
    else s
  | _ => s
/-- Q3 at boot: calibration words, NVM_BP, and CAL_DEFAULTED where no calibration record is held (R165, R334). -/
def State.restoreQ3 (s : State) : State :=
  let l := s.nv.records .q3
  let force := (l.filter (fun r => decide (inForceIn l r.2.typ r.2.ident = some r))).map (·.2)
  let cals := force.filter (fun r => decide (r.typ ≤ 0x32))
  let s := cals.foldl State.calRestore s
  let bp : Int := match force.find? (fun r => r.typ = 0x34) with
    | some r => (leAt r.payload 0 1 % 4 : Nat)
    | none => 0
  let s := (s.setGlobNew .nvmBp bp).setGlobForce .nvmBp bp
  { s with dev := { s.dev with calDefaulted := cals.isEmpty } }

/-- Q2 at boot (R439, R440). -/
def State.restoreQ2 (s : State) : State :=
  let s := s.resetEntries
  let s : State := match s.nv.configHeader with
    | none => s
    | some h => { s with dev := { s.dev with generation := leAt h.payload 0 4, records := leAt h.payload 4 1 } }
  match s.nv.savedConfig with
  | none => { s with dev := { s.dev with cfgDefaulted := true } }
  | some (l, stale) =>
    let s := s.restorePairs l
    if stale then { s with dev := { s.dev with freshSave := true, freshPairs := s.savedPairs } } else s

/-- What follows from the restored values: binding tables, learned delays, the time source, Tarn ports, comparators and zones (R18, R173,
R192, R239, R252, R278, R401). The state before the restore says which source and ports were in force. -/
def State.restoreEffects (s old : State) : State :=
  let t (p : PhaseId) : CtxId × Ecc := (⟨(s.pp p .owner).toNat % 64, by omega⟩, .ok)
  let f (x : HalfS) : HalfS := { x with bindA := Vector.ofFn t, bindB := Vector.ofFn t }
  let s := (s.modHs .east f).modHs .west f
  let now := s.enables
  let s : State := { s with ph := every s.ph (fun p x => { x with moving := decide ((s.ownerOf p).val ≠ 0), movedTag := now }) }
  let s : State := { s with ctx := every s.ctx (fun c x => { x with chan := { x.chan with
    d8On := 8 * s.cp c .gdlyOnInit, d8Off := 8 * s.cp c .gdlyOffInit } }) }
  ctxIds.foldl State.tripFollow ((s.ftCfgApply (old.gp .ftCfg)).tarnApply (old.gp .tarnCfg)).cragConfig.zoneFollow

/-- A step of the boot sequence still runs: it goes on in SAFE (R40; log entry 16). -/
def State.bootAt (s : State) (n : Nat) : Bool := decide (s.dev.bootStep = n) && (decide (s.dev.st = .boot) || s.dev.st.serves)
/-- CONFIG_RESTORE (R40, R165, R328, R439): step 5 of the boot sequence. -/
def execConfigRestore (s : State) : Host.Outcome State Fault Refusal :=
  if s.bootAt 4 then
    let s := (s.reportTies .q2).reportTies .q3
    let s := s.restoreQ2.restoreQ3.restoreEffects s
    let s := if s.dev.freshSave then s.await .fresh else s
    .next { s with dev := { s.dev with bootStep := 5, restored := true } }
  else .next s

/-- FRESH_SAVE (R281, R437, R439): the device's own write of the restored values, at its turn, ends. -/
def execFreshSave (s : State) : Host.Outcome State Fault Refusal :=
  if s.nv.work ≠ .own ∨ s.dev.freshSave = false then .next s
  else
    let s : State := { s.workDone with nv := s.workDone.nv.popRoutine }
    let l := s.saveRecords s.dev.freshPairs
    let s := l.foldl (fun s r => (s.putRecord .q2 r.1 r.2.1 52 r.2.2).recordDone r.1 r.2.1 r.2.2) s
    .next { s with dev := { s.dev with freshSave := false, freshPairs := [] } }

/-- A context's counts and marks from its base (R343, R344). -/
def State.baseRestore (s : State) (c : CtxId) : State :=
  match s.nv.inForce .q1 0x10 c.val with
  | none => s
  | some r => s.modCtx c (fun x =>
    { x with charge := signedOf 64 (leAt r.payload 4 8), energy := signedOf 64 (leAt r.payload 12 8)
             markQ := bitOf (leAt r.payload 1 1) 0, markE := bitOf (leAt r.payload 1 1) 1 })
/-- A committed entry newer than its base is added (R344). -/
def State.addEntry (s : State) (a : Fin 128) (cls : Bool) (tseq : Nat) (v : Int) : State :=
  if newerThanBase (s.nv.inForce .q1 0x10 (accCtx a).val) tseq then
    s.modCtx (accCtx a) (fun x =>
      let x := if cls then x.setMark (accEnergy a) true else x
      if accEnergy a then { x with energy := x.energy + v } else { x with charge := x.charge + v })
  else s
/-- A run number's four bytes in a LEDGER_OPEN, a LEDGER_CLOSE, and an item. -/
def recRun (r : Rec) : Nat := if r.typ = 0x14 then leAt r.payload 4 4 else leAt r.payload 0 4
/-- The run whose end is being looked at; all ones where its bracket is lost (R344). -/
def State.lastRun (s : State) : Nat := match s.nv.inForce .q1 0x12 0 with
  | some r => recRun r
  | none => 4294967295
/-- A torn entry goes into an item, unless one holds it already, and is voided (R344, R345). -/
def State.tornEntry (s : State) (k : Nat) : State :=
  let raw := s.nv.bytes (tallyAddr k) 16
  let held := (List.finRange 32).any (fun j => match s.led.items[j] with
    | some b => decide (leAt b 0 1 = 1) && decide (leAt b 2 2 = k) && decide ((b.drop 8).take 16 = raw)
    | none => false)
  let s := if held then s else s.openItem 1 k s.lastRun raw 0
  { s with nv := s.nv.program (tallyAddr k) (List.replicate 16 0) }
/-- One position of the tally ring at recovery (R344). -/
def State.recoverTally (s : State) (k : Nat) : State :=
  match s.nv.tally k with
  | .erased | .void => s
  | .committed a cls q v => s.addEntry a cls q v
  | .torn => s.tornEntry k

/-- An item in force at boot (R345, R346): an ADDING item whose entry is committed is freed, any other returns to OPEN. -/
def State.recoverItem (s : State) (k : Fin 32) : State :=
  match s.nv.inForce .q1 0x14 k.val with
  | none => s
  | some r =>
    let b := padTo 52 r.payload
    match leAt b 1 1 with
    | 1 => { s with led := { s.led with items := s.led.items.set k (some b) } }
    | 2 =>
      let done := (List.range 1024).any (fun j => match s.nv.tally j with
        | .committed _ _ q _ => decide (q = leAt b 2 2)
        | _ => false)
      if done then s.putRecord .q1 0x14 k.val 38 (itemState b 0 (leAt b 2 2))
      else
        let o := itemState b 1 (leAt b 2 2)
        let s := s.putRecord .q1 0x14 k.val 38 o
        { s with led := { s.led with items := s.led.items.set k (some o) } }
    | _ => s

/-- The newest committed tally sequence in the ring (R342). -/
def Store.newestTally (x : Store) : Option Nat :=
  (List.range 1024).foldl (fun o k => match x.tally k with
    | .committed _ _ q _ => newerSeq o q
    | _ => o) none
/-- The newest committed tally sequence (R342, R345): in the ring, else, where consolidation has emptied it, the newest that a base
covers (log entry 148). -/
def State.newestSeq (s : State) : Option Nat :=
  match s.nv.newestTally with
  | some q => some q
  | none => (ctxIds.filterMap (fun c => (s.nv.inForce .q1 0x10 c.val).map (fun r => leAt r.payload 2 2))).foldl newerSeq none
/-- The sequence the next entry takes (R342). -/
def State.firstTseq (s : State) : Nat :=
  match s.newestSeq with
  | none => 0
  | some q => (q + 1) % 65536

/-- The LEDGER_REM record of a run (R344, R353). -/
def State.remRecord (s : State) (i n : Nat) : Option Rec :=
  match s.nv.inForce .q1 0x11 i with
  | some r => if leAt r.payload 50 2 = n % 65536 then some r else none
  | none => none
/-- The remainders of a record go into both halves (R344). -/
def State.loadRem (s : State) (i : Nat) (r : Rec) : State :=
  (remCtxs i).foldl (fun s c =>
    let v := leAt r.payload (7 * (c.val % 7)) 7
    s.halves (fun x => x.modCell c (fun k => { k with qRem := tag (v % 1048576 : Nat), eRem := tag (v / 1048576 % 17179869184 : Nat) }))) s
/-- The contexts of a record whose remainders were lost start at 0 (R344). -/
def State.zeroRem (s : State) (i : Nat) : State :=
  (remCtxs i).foldl (fun s c => s.halves (fun x => x.modCell c (fun k => { k with qRem := tag 0, eRem := tag 0 }))) s
/-- The remainders at recovery (R344). -/
def State.restoreRem (s : State) (n i : Nat) : State :=
  match s.remRecord i n with
  | some r => s.loadRem i r
  | none => s.zeroRem i
/-- Contexts whose remainders were lost, as the bits of a REM_LOST item (R345, R353). -/
def lostBits (l : List Nat) : Nat := ctxIds.foldl (fun n c => if l.contains (c.val / 7) then n + 2 ^ c.val else n) 0
/-- A GAP item: the newest committed sequence, a free value where there is none (R345; log entry 9). -/
def State.openGap (s : State) (run : Nat) : State :=
  match s.newestSeq with
  | some q => s.openItem 2 q run [] 0
  | none => ({ s with free := s.free + 1 } : State).openItem 2 ((Config.freeValue s.free).toNat % 65536) run [] 0
/-- The highest known run number of any LEDGER_CLOSE or IN_DOUBT record in force (R344). -/
def State.highestRun (s : State) : Option Nat :=
  let l := s.nv.records .q1
  let runs := l.filterMap (fun r =>
    if (r.2.typ = 0x13 ∨ r.2.typ = 0x14) ∧ inForceIn l r.2.typ r.2.ident = some r ∧ recRun r.2 < 4294967295 then some (recRun r.2) else none)
  match runs with
  | [] => none
  | x :: xs => some (xs.foldl max x)

/-- How the previous run ended, and the number of the new run (R344). -/
def State.runBracket (s : State) (first : Bool) : State × Nat :=
  match s.nv.inForce .q1 0x12 0 with
  | none =>
    let zero (s : State) : State := (List.range 10).foldl State.zeroRem s
    if first then (zero s, 1)
    else
      let s := (s.openGap 4294967295).openItem 3 0 4294967295 [] (2 ^ 64 - 1)
      (zero s, match s.highestRun with
        | some n => n + 1
        | none => 1)
  | some o =>
    let n := recRun o
    let closed := match s.nv.inForce .q1 0x13 0 with
      | some r => decide (recRun r = n)
      | none => false
    let s := if closed then s else s.openGap n
    let lost := (List.range 10).filter (fun i => (s.remRecord i n).isNone)
    let s := if lost.isEmpty then s else s.openItem 3 0 n [] (lostBits lost)
    ((List.range 10).foldl (fun s i => s.restoreRem n i) s, n + 1)

/-- Ledger recovery (R344 to R346). -/
def State.recoverLedger (s : State) : State :=
  let first := (s.nv.records .q1).isEmpty && (List.range 1024).all (fun k => decide (s.nv.tally k = .erased))
  let s := (List.finRange 32).foldl (fun s k => s.recoverItem k) s
  let s := ctxIds.foldl State.baseRestore s
  let s := (List.range 1024).foldl State.recoverTally s
  let s : State := { s with led := { s.led with nextSeq := s.firstTseq } }
  let r := s.runBracket first
  let s := r.1.putRecord .q1 0x12 0 4 (leBytes 4 r.2)
  { s with led := { s.led with run := word r.2, lastTake := s.clk.time } }

/-- BOOT ends in STANDBY, and with AUTO_RUN goes on to RUN (R33). -/
def State.endBoot (s : State) : State :=
  let s := s.goto .standby
  if s.gp .autoRun = 2 then s.enterRun else s
/-- LEDGER_RECOVERY (R33, R40, R328, R344 to R347): step 6 of the boot sequence, in which the Cairn ring is ready again; from BOOT the device enters STANDBY, and RUN
with AUTO_RUN. -/
def execLedgerRecovery (s : State) : Host.Outcome State Fault Refusal :=
  if s.bootAt 5 then
    let s := (s.reportTies .q1).recoverLedger
    let s := s.storeTo s.nv.cairnAhead
    let s : State := { s with dev := { s.dev with bootStep := 6 } }
    .next (if s.dev.st = .boot then s.move .standby State.endBoot else s)
  else .next s

end Sys2Proof.Machine
end

