-- ==== Sys2Proof/Machine/Commands.lean ====
section
/-!
DEFINITION. Mailbox commands (12_host_mailbox_and_pmbus.md, R374 to R378): the parameter commands, the schedule commands, cell status, capture and traces.
-/
namespace Sys2Proof.Machine

/-- Reads of consecutive indices: the words, and the refusal that ended them or 0 (R375). -/
def State.readRun (s : State) (i : Iface) : Nat → Nat → List Word → State × List Word × Nat
  | 0, _, acc => (s, acc.reverse, 0)
  | n + 1, idx, acc =>
    let x := s.readIndex i idx
    if x.2.2 = 0 then x.1.readRun i n (idx + 1) (x.2.1 :: acc) else (x.1, (0 :: acc).reverse, x.2.2)
/-- DETAIL of a parameter command (R375). -/
def paramDetail (done index answer : Nat) : Nat := 65536 * done + (if answer = 0 then 0 else (index + done) % 65536)

/-- PARAM_READ (R4, R5, R375). -/
def execParamRead (live : LivePins) (s : State) : Host.Outcome State Fault Refusal :=
  .next (s.serve 0x01 .both (· == 2) (fun r x s =>
    let n := x.arg 2
    if n < 1 ∨ 61 < n then s.refused r ansRange
    else
      let y := (s.latchLive live).readRun r.box n (x.arg 1) []
      let done := if y.2.2 = 0 then n else y.2.1.length - 1
      y.1.answer r y.2.2 (paramDetail done (x.arg 1) y.2.2) y.2.1))

/-- Writes of consecutive indices: the count accepted, and the refusal that ended them or 0 (R375, R434). -/
def State.writeRun' (s : State) (r : Req) : List Word → Nat → Nat → State × Nat × Nat
  | [], _, done => (s, done, 0)
  | w :: ws, idx, done =>
    let x := s.writeIndex r.box idx w (some r)
    if x.2 = 0 then x.1.writeRun' r ws (idx + 1) (done + 1) else (x.1, done, x.2)

/-- PARAM_WRITE (R25, R375, R434): the data is the sample tag of the last acceptance, if there was one. -/
def execParamWrite (s : State) : Host.Outcome State Fault Refusal :=
  .next (s.serve 0x02 .both (fun n => decide (2 ≤ n)) (fun r x s =>
    let n := x.arg 2
    if x.narg ≠ n + 2 then s.refused r ansBadCommand
    else if n < 1 ∨ 61 < n then s.refused r ansRange
    else
      let y := s.writeRun' r (x.args 3 n) (x.arg 1) 0
      y.1.answer r y.2.2 (paramDetail y.2.1 (x.arg 1) y.2.2) (if y.2.1 = 0 then [] else [word y.1.tag32])))

/-- A schedule event as posted (R179). -/
def postedEvent (serial : Nat) (w0 w1 w2 w3 : Word) (kind : EvKind) : Event :=
  let di := signedOf 24 (w2.toNat / 256)
  { serial := serial, w0 := w0, w1 := w1, w2 := w2, w3 := w3, kind := kind
    t := (w0.toNat % 65536) * 4294967296 + w1.toNat, lead := w3.toNat / 65536, di := di
    peak := di + (di * (w2.toNat % 256 : Nat)).fdiv 16, ident := w3.toNat % 65536 }
def evKindOf : Nat → Option EvKind
  | 1 => some .on
  | 2 => some .off
  | 3 => some .step
  | _ => none
/-- R180. -/
def Event.badField (e : Event) : Bool :=
  let c := e.w0.toNat / 16777216
  decide (c < 1) || decide (63 < c) || decide (e.w0.toNat / 65536 % 16 ≠ 0)
    || (decide (e.kind = .on) && decide (e.di < 0)) || (decide (e.kind = .off) && (decide (0 < e.di) || decide (e.w2.toNat % 256 ≠ 0)))
    || decide (e.peak < v24Lo) || decide (v24Hi < e.peak)
/-- Events that are identical (R182). -/
def Event.same (e f : Event) : Bool := decide (e.w0 = f.w0) && decide (e.w1 = f.w1) && decide (e.w2 = f.w2) && decide (e.lead = f.lead)
/-- A serial number no held or waiting event of the context has. -/
def State.nextSerial (s : State) (c : CtxId) : Nat :=
  let a := s.ctx[c].sched.events.foldl (fun m e => max m (e.serial + 1)) 0
  s.commits.foldl (fun m k => match k.act with
    | .schedEnter d n => if d = c then max m (n + 1) else m
    | _ => m) a
/-- The answer of R181 to an event whose fields are good; SCHEDULE is that of the MODE word in force (R25, R206). -/
def State.postAnswer (s : State) (c : CtxId) (e : Event) : Nat :=
  let es := s.ctx[c].sched.events
  let f := (s.ftUs + 100) % 2 ^ 48
  firstRefusal [(!s.ft.valid, 0x02),
    (decide (s.dev.st ≠ .run) || !bitOf (s.cp c .mode) modeSchedule || (s.bound c).isEmpty, 0x03),
    (es.any (fun x => x.same e), 0x04), (es.any (fun x => decide (x.t = e.t)), 0x05),
    (serialNewer 48 f e.t, 0x06), (serialNewer 48 e.t ((s.ftUs + 2147483648) % 2 ^ 48), 0x07), (decide (16 ≤ es.length), 0x08),
    (serialNewer 48 f ((e.t + 2 ^ 48 - e.lead) % 2 ^ 48), 0x09)]
/-- An event is queued, to enter the halves' queues at the commit tag (R181, R183). -/
def State.postEvent (s : State) (c : CtxId) (e : Event) (late : Bool) : State :=
  (s.modSched c (fun x => { x with
    events := x.events ++ [{ e with late := late }]
    late := x.late || late
    lateCount := if late then capInc x.lateCount 255 else x.lateCount })).commit (s.ctxTag c) (.schedEnter c e.serial)
/-- A post: the state, its event answer, and the data of its response (R181, R374). -/
def State.post (s : State) (w0 w1 w2 w3 : Word) : State × Nat × List Word :=
  let c : CtxId := ⟨w0.toNat / 16777216 % 64, by omega⟩
  match evKindOf (w0.toNat / 1048576 % 16) with
  | none => (s, 0x01, [])
  | some k =>
    let e := postedEvent (s.nextSerial c) w0 w1 w2 w3 k
    if e.badField then (s, 0x01, [])
    else
      match s.postAnswer c e with
      | 0 => (s.postEvent c e false, 0, [])
      | 9 => (s.postEvent c e true, 9, [])
      | 4 => (s, 4, (s.ctx[c].sched.events.filter (fun x => x.same e)).take 1 |>.map (fun x => word x.ident))
      | n => (s, n, [])

/-- SCHED_POST (R179 to R183, R376). -/
def execSchedPost (s : State) : Host.Outcome State Fault Refusal :=
  .next (s.serve 0x10 .m0only (· == 4) (fun r x s =>
    let y := s.post (x.argW 1) (x.argW 2) (x.argW 3) (x.argW 4)
    y.1.answer r ansSchedule y.2.1 y.2.2))

/-- The gate start of the event is deferred and has not come about (R186, R234). -/
def State.isDeferred (s : State) (c : CtxId) (serial : Nat) : Bool :=
  match s.ctx[c].chan.deferred with
  | some d => decide (d.event = some serial)
  | none => false
/-- An event is past the point where it can be cancelled (R194). -/
def State.pastCancel (s : State) (c : CtxId) (e : Event) : Bool :=
  (e.gateDone && !s.isDeferred c e.serial) || e.withdrawing || e.ended || e.outcome.isSome
    || (decide (e.kind = .step) && e.reached)
    || e.due s.ft.ft
/-- A cancel is accepted (R194). -/
def State.cancelEvent (s : State) (c : CtxId) (e : Event) : State :=
  (s.modChan c (fun x => x.disarm (fun n => decide (n = e.serial)))).modSched c (fun x =>
    { x.modEvent e.serial (fun e => { e with entered := true, withdrawing := true, outcome := some .cancelled, closed := true,
                                             armed := none }) with cancelled := true })
/-- SCHED_CANCEL (R194, R376). -/
def execSchedCancel (s : State) : Host.Outcome State Fault Refusal :=
  .next (s.serve 0x11 .m0only (· == 2) (fun r x s =>
    let c : CtxId := ⟨x.arg 1 % 64, by omega⟩
    match if x.arg 1 < 64 then s.ctx[c].sched.events.find? (fun e => decide (e.ident = x.arg 2)) else none with
    | none => s.answer r ansSchedule 0x0B []
    | some e => if s.pastCancel c e then s.answer r ansSchedule 0x0A [] else (s.cancelEvent c e).answer r ansSchedule 0 []))

/-- The cell status record (R65). Its last word is the sum of the two halves' counts of discarded words, modulo 2^32: DESIGN CHOICE, log
entry 140. -/
def State.cellStatusWords (s : State) (c : CtxId) : List Word :=
  let k := s.cell c
  let n (j : Nat) : Nat := if h : j < 16 then k.satCount ⟨j, h⟩ else 0
  word s.tag32 :: s.satWord c :: ((List.range 8).map (fun j => word (n (2 * j) + 65536 * n (2 * j + 1)))
    ++ [word (min (s.east.cell[c]).residueErrors 65535 + 65536 * min (s.west.cell[c]).residueErrors 65535), word (s.east.cell[c].discarded + s.west.cell[c].discarded)])
/-- CELL_STATUS (R65). Context 0, for which the compatibility view has no target, reads 0 (R481; log entry 174). -/
def execCellStatus (s : State) : Host.Outcome State Fault Refusal :=
  .next (s.serve 0x20 .both (· == 1) (fun r x s =>
    if h : x.arg 1 < 64 then
      s.answer r 0 0 (if s.hides r.box ⟨x.arg 1, h⟩ then List.replicate 12 0 else s.cellStatusWords ⟨x.arg 1, h⟩)
    else s.refused r ansRange))

/-- CAPTURE_READ (R70; R481, log entry 174). -/
def execCaptureRead (s : State) : Host.Outcome State Fault Refusal :=
  .next (s.serve 0x21 .both (· == 3) (fun r x s =>
    let n := x.arg 3
    if 63 < x.arg 1 ∨ n < 1 ∨ 60 < n ∨ 2048 < x.arg 2 + n then s.refused r ansRange
    else if s.hides r.box ⟨x.arg 1 % 64, by omega⟩ then s.answer r 0 0 (List.replicate n 0)
    else
      let y := s.capReads ⟨x.arg 1 % 64, by omega⟩ ((List.range n).map (fun j => x.arg 2 + j))
      y.1.answer r 0 0 y.2))

/-- A trace word (R8, R377): a defined trigger, and DECIM of at least 1; its reserved bits are ignored. -/
def traceOk (w : Word) : Bool := decide (w.toNat / 67108864 % 4 ≠ 3) && decide (w.toNat / 256 % 256 ≠ 0)
/-- A trace waits for its commit tag. -/
def State.tracePending (s : State) (c : CtxId) : Bool := s.commits.any (fun k => match k.act with
  | .traceStart d _ => decide (d = c)
  | _ => false)
/-- A MODE write that was accepted first is to start a probe in a regulating context (R215, R221). -/
def Ctx.probeComes (x : Ctx) : Bool := x.regulating && bitOf (x.newest .mode) modeProbe && !x.probe.bitSeen
/-- TRACE_START (R221, R377): BUSY where the area is owned, or is to be by the commit tag (R481: log entry 174). -/
def execTraceStart (s : State) : Host.Outcome State Fault Refusal :=
  .next (s.serve 0x22 .both (· == 2) (fun r x s =>
    let c : CtxId := ⟨x.arg 1 % 64, by omega⟩
    if 63 < x.arg 1 ∨ traceOk (x.argW 2) = false then s.refused r ansRange
    else if s.hides r.box c then s.refused r ansNoIndex
    else if s.ctx[c].owner ≠ .none ∨ s.tracePending c = true ∨ s.ctx[c].probeComes = true then s.refused r ansBusy
    else (s.commit (s.ctxTag c) (.traceStart c (x.argW 2))).answer r 0 0 []))
/-- A trace gives up the capture area (R377). -/
def Ctx.releaseTrace (x : Ctx) : Ctx := if x.owner = .trace then { x with owner := .none, traceRunning := false } else x
/-- TRACE_RELEASE (R377; R481, log entry 174). -/
def execTraceRelease (s : State) : Host.Outcome State Fault Refusal :=
  .next (s.serve 0x23 .both (· == 1) (fun r x s =>
    if h : x.arg 1 < 64 then
      if s.hides r.box ⟨x.arg 1, h⟩ then s.refused r ansNoIndex else (s.modCtx ⟨x.arg 1, h⟩ Ctx.releaseTrace).answer r 0 0 []
    else s.refused r ansRange))

end Sys2Proof.Machine
end

