-- ==== Sys2Proof/Machine/Firmware.lean ====
section
/-!
DEFINITION. The ends of firmware operations and of supervisor restarts (10_summit_and_failover.md, R290, R297, R305,
R306; 12 R386).
-/
namespace Sys2Proof.Machine

/-- An operation of FW_CTL ends with a code and its event (R321, R381). -/
def State.fwEnd (s : State) (code : Nat) : State :=
  let s : State := { s with sum := { s.sum.refresh with fwCode := code, fwRunning := false } }
  s.event 0xFF evFwDone s.fwStatusWord 0

/-- FW_OPERATION_DONE (R305, R306): an ERASE or a VERIFY ends; a RESTART ends when its supervisor has booted. -/
def execFwOperationDone (s : State) : Host.Outcome State Fault Refusal :=
  if !s.sum.fwRunning then .next s
  else
    let b := s.sum.fwBank
    match s.sum.fwOp with
    | 1 => .next (s.fwEnd 2)
    | 2 => .next (({ s with sum := s.sum.verifyOp b } : State).fwEnd (s.sum.verify b))
    | _ => .next s

/-- SUPERVISOR_BOOTED (R290, R297, R305, R386): the supervisor runs its image; the one that serves the interfaces answers
the requests that had not been accepted. -/
def execSupervisorBooted (h : HalfId) (s : State) : Host.Outcome State Fault Refusal :=
  if (s.sum.half h).supBoot.isNone then .next s
  else
    let s := s.bootSup h
    let s : State := { s with sum := s.sum.refresh }
    let s := if s.sum.fwRunning && decide (s.sum.fwOp = 3) && decide (s.sum.fwBank = bankOf h)
      then s.fwEnd (if (s.sum.half h).supRunning then 2 else 8) else s
    .next (if s.servingHalf = some h ∧ (s.sum.half h).supRunning = true then s.interrupt else s)

end Sys2Proof.Machine
end

