-- ==== Sys2Proof/Machine/Jtag.lean ====
section
/-!
DEFINITION. The JTAG port: boundary scan, FLASH_LOAD and the debug requests (16_design_in.md, R475 to R477; 10 R308).
-/
namespace Sys2Proof.Machine

/-- The instruction register takes a code (R475). -/
def State.irTake (s : State) (code : Byte) : State := { s with jtag := { s.jtag with ir := code } }
/-- A boundary scan: the bits shifted in reach the update latch; the manual gives no cell order, so the bits shifted out
are free values (log entry 9). -/
def State.boundaryScan (s : State) (code : Byte) (scan : List Bool) : State :=
  let out := (List.range scan.length).map (fun k => Config.scanCell (s.free + k))
  let s : State := { s with free := s.free + scan.length }
  { s with jtag := { s.jtag with ir := code, scan := scan, tdo := out } }
/-- EXTEST and SAMPLE/PRELOAD (R475). -/
def execExtest (scan : List Bool) (s : State) : Host.Outcome State Fault Refusal := .next (s.boundaryScan 0x00 scan)
def execSamplePreload (scan : List Bool) (s : State) : Host.Outcome State Fault Refusal := .next (s.boundaryScan 0x02 scan)
/-- The instruction codes of R475 that are not BYPASS. -/
def jtagCodes : List Byte := [0x00, 0x02, 0xA1, 0xA2, 0xB0, 0xB1]
/-- A scan through the one-bit register of BYPASS (R475): what it captured comes out first, a free value (log entry 9), then the bits
shifted in, one behind; the last of them stays in it. -/
def State.bypassScan (s : State) (code : Byte) (scan : List Bool) : State :=
  let first := Config.scanCell s.free
  let s : State := { s with free := s.free + 1 }
  { s with jtag := { s.jtag with ir := code, tdo := (first :: scan).take scan.length, bypass := scan.getLastD first } }
/-- BYPASS (R475): its own code and every undefined one. -/
def execBypass (x : BypassScan) (s : State) : Host.Outcome State Fault Refusal :=
  if jtagCodes.contains x.code then .next s else .next (s.bypassScan x.code x.scan)

/-- A load ends with a code (R321, R476). -/
def Jtag.ended (x : Jtag) (code : Nat) : Jtag := { x with loadCode := code, loadPhase := 0, loadTarget := none }
def State.loadEnd (s : State) (code : Nat) : State := { s with jtag := s.jtag.ended code }
/-- The half a target word names (R476). -/
def loadTargetOf (w : Word) : Option HalfId :=
  if w.toNat / 2 = 0x4C440000 / 2 then some (if w.toNat % 2 = 0 then .east else .west) else none
/-- The first word of a load (R476): refused with ABORTED where the half is eligible or the device is in RUN; else the
bank's erase begins. -/
def State.loadStart (s : State) (w : Word) : State :=
  let s : State := { s with jtag := { s.jtag with loadWords := 1 } }
  match loadTargetOf w with
  | none => s.loadEnd 8
  | some h =>
    if (s.sum.half h).eligible ∨ s.dev.st = .run then s.loadEnd 8
    else { s with sum := s.sum.eraseBank (bankOf h), jtag := { s.jtag with loadCode := 1, loadPhase := 1, loadTarget := some h } }
/-- The check of a loaded image, as VERIFY makes it; it is no VERIFY operation (R305, R476). -/
def Summit.loadCheck (x : Summit) (b : Bool) : Summit :=
  let x := x.check b
  if b then { x with verifiedB := false } else { x with verifiedA := false }
/-- A word of the image (R476): it is programmed; with the last of 256 + LENGTH bytes the image is checked. -/
def State.loadWord (s : State) (h : HalfId) (w : Word) : State :=
  let b := bankOf h
  let j := s.jtag.loadWords - 1
  let n := j + 1
  let s : State := { s with sum := if j < flashBytes / 4 then s.sum.program b j w else s.sum
                            jtag := { s.jtag with loadWords := s.jtag.loadWords + 1 } }
  if 4 ≤ n ∧ 256 + s.sum.imageLen b ≤ 4 * n then ({ s with sum := (s.sum.loadCheck b).refresh } : State).loadEnd (s.sum.verify b) else s
/-- FLASH_LOAD (R475, R476): one word. -/
def execFlashLoad (w : Word) (s : State) : Host.Outcome State Fault Refusal :=
  let s := s.irTake 0xA1
  if s.dev.st = .cold then .next s
  else
    match s.jtag.loadPhase, s.jtag.loadTarget with
    | 1, _ => .next (({ s with jtag := { s.jtag with loadWords := s.jtag.loadWords + 1 } } : State).loadEnd 8)
    | 2, some h => .next (s.loadWord h w)
    | _, _ => .next (s.loadStart w)
/-- FLASH_LOAD_ERASE_DONE (R476): the bank is erased, and the image may follow; CODE no longer reads BUSY. -/
def execFlashLoadEraseDone (s : State) : Host.Outcome State Fault Refusal :=
  if s.jtag.loadPhase = 1 then .next { s with jtag := { s.jtag with loadPhase := 2, loadCode := 0 } } else .next s
/-- FLASH_STATUS (R475). -/
def Jtag.statusWord (x : Jtag) : Word := word (268435456 * x.loadCode + x.loadWords % 268435456)
def execFlashStatus (s : State) : Host.Outcome State Fault Refusal :=
  let s := s.irTake 0xA2
  .next { s with jtag := { s.jtag with out := s.jtag.statusWord } }

/-- The requests of DEBUG_CTL (R477). -/
inductive DebugReq where
  | halt
  | resume
  | freeze
  | unfreeze
  | step
deriving DecidableEq, Repr
/-- The request of a word, if exactly one of bits [4:0] is set (R477). -/
def debugReqOf (w : Word) : Option DebugReq :=
  match w.toNat % 32 with
  | 1 => some .halt
  | 2 => some .resume
  | 4 => some .freeze
  | 8 => some .unfreeze
  | 16 => some .step
  | _ => none
/-- The half of a word (R477). -/
def debugHalf (w : Word) : HalfId := if w.getLsbD 8 then .west else .east
/-- The result of a request (R477). -/
def State.debugResult (s : State) (n : Nat) : State := { s with jtag := { s.jtag with result := n } }

/-- A cell freeze (R308, R477): refused where the other half is not eligible; that of the holder waits for the summit to
move. -/
def State.freezeHalf (s : State) (h : HalfId) : State :=
  if (s.sum.half h.other).eligible then
    if s.holder = some h then (s.loseElig h (fun x => { x with freezeWait := true })).debugResult 2
    else
      let t := s.enables
      (s.loseElig h (fun x => x.freeze t)).debugResult 1
  else s.debugResult 3
/-- A halt and its end (R308): the watchdog pauses; while halted `supSince` holds what had passed. -/
def HalfS.halt (x : HalfS) (now : Nat) : HalfS := if x.supHalted then x else { x with supHalted := true, supSince := now - x.supSince }
def HalfS.resume (x : HalfS) (now : Nat) : HalfS := if x.supHalted then { x with supHalted := false, supSince := now - x.supSince } else x
/-- What a well-formed request does (R308, R477). A step is taken only while the supervisor is halted; the instruction it
executes is the firmware's own (log entry 27); what waited for a halted supervisor has its turn (R386). -/
def State.debugDo (s : State) (h : HalfId) : DebugReq → State
  | .halt =>
    let now := s.clk.time
    (s.modHs h (fun x => x.halt now)).debugResult 1
  | .resume =>
    let now := s.clk.time
    ((s.modHs h (fun x => x.resume now)).debugResult 1).turnOver
  | .freeze => s.freezeHalf h
  | .unfreeze =>
    let t := s.enables
    (s.modHs h (fun x => x.thaw t)).debugResult 1
  | .step => if (s.sum.half h).supHalted then s.debugResult 1 else s.debugResult 4
/-- One Update-DR of DEBUG_CTL (R477), for the row of one request: a word without the key is ignored, one with no request
or several is answered BAD_REQUEST, and one with another request belongs to another row. -/
def State.debug (s : State) (w : Word) (r : DebugReq) : State :=
  let s := s.irTake 0xB0
  if w.toNat / 65536 ≠ 0x4447 ∨ s.dev.st = .cold ∨ s.dev.st = .holdup then s
  else match debugReqOf w with
    | none => s.debugResult 4
    | some q => if q = r then s.debugDo (debugHalf w) q else s
/-- DEBUG_HALT, DEBUG_RESUME, DEBUG_STEP, FREEZE and UNFREEZE (R308, R477). -/
def execDebugHalt (w : Word) (s : State) : Host.Outcome State Fault Refusal := .next (s.debug w .halt)
def execDebugResume (w : Word) (s : State) : Host.Outcome State Fault Refusal := .next (s.debug w .resume)
def execDebugStep (w : Word) (s : State) : Host.Outcome State Fault Refusal := .next (s.debug w .step)
def execFreeze (w : Word) (s : State) : Host.Outcome State Fault Refusal := .next (s.debug w .freeze)
def execUnfreeze (w : Word) (s : State) : Host.Outcome State Fault Refusal := .next (s.debug w .unfreeze)

/-- DEBUG_STATUS (R477): WAITING while a freeze waits, and DONE from then on. -/
def State.debugWord (s : State) : Word :=
  let e := s.sum.east
  let w := s.sum.west
  let r := if s.jtag.result = 2 ∧ e.freezeWait = false ∧ w.freezeWait = false then 1 else s.jtag.result
  word (268435456 * r + flag w.frozen 7 + flag w.supHalted 6 + flag e.frozen 5 + flag e.supHalted 4 + flag w.eligible 1 + flag e.eligible 0)
def execDebugStatus (s : State) : Host.Outcome State Fault Refusal :=
  let s := s.irTake 0xB1
  .next { s with jtag := { s.jtag with out := s.debugWord } }

end Sys2Proof.Machine
end

