-- ==== Sys2Proof/Machine/Judge.lean ====
section
/-!
DEFINITION. The judgement of a Tarn request at a boundary (13_tarn_link.md, R409 to R414; 07 R210).
-/
namespace Sys2Proof.Machine

/-- An answer of R411, whether CMD_LOGGED is set, and whether the request takes the rail out of PASS (R210). -/
structure Judged where
  code : Nat
  log : Bool
  exit : Bool
deriving DecidableEq, Repr

/-- PASS_EXIT_ON_CMD in force and what R210 says of a voltage target v: accepted, accepted with an exit, or refused. -/
def State.passVoltage (s : State) (c : CtxId) (v : Int) : Option Bool :=
  if s.bus - s.cp c .passHeadroom ≤ v then some false
  else if s.cp c .passExit = 1 then some true else none

/-- The rows after PASS of the table Request answers (R411): CLAMP where either clamp of a voltage acts (R412). -/
def State.judgeRest (s : State) (c : CtxId) (r : TarnReq) (log exit : Bool) : Judged :=
  let x := s.ctx[c]
  let volt := decide (r.kind = 1)
  let cur := x.inE modeCurrent
  if !x.inE modeCommand then ⟨4, log, false⟩
  else if volt && cur then ⟨6, log, false⟩
  else if !volt && !cur then ⟨7, log, false⟩
  else if r.prio < bitsOf (x.p .tarnCfg) 4 2 then ⟨9, log, false⟩
  else
    let same := if volt then
        !clamps (tarnCode r.value) (x.p .tarnVmin) (x.p .tarnVmax) && !clamps (s.tarnVolt c r) (x.p .voutMin) (x.p .voutMax)
      else decide (s.tarnCur c r = signed16 r.value * 256)
    ⟨if same then 1 else 2, log, exit⟩

/-- The answer to a request (R210, R411). -/
def State.judge (s : State) (c : CtxId) (r : TarnReq) : Judged :=
  let x := s.ctx[c]
  let passCmd := x.mode.passInForce && x.inE modeCommand
  if !x.regulating then ⟨3, false, false⟩
  else if r.bad then ⟨0xA, passCmd, false⟩
  else if x.inE modeTrack then ⟨5, true, false⟩
  else if passCmd then
    if r.kind = 1 then
      if x.inE modeCurrent then s.judgeRest c r true false
      else match s.passVoltage c (clamp (s.tarnVolt c r) (x.p .voutMin) (x.p .voutMax)) with
        | some e => s.judgeRest c r true e
        | none => ⟨8, true, false⟩
    else ⟨8, true, false⟩
  else s.judgeRest c r false false

/-- MODE[7] is cleared by a request, unless a host MODE write takes effect at the same boundary (R210). -/
def Ctx.clearPass (x : Ctx) (t : Nat) : Ctx :=
  if x.mode.writtenAt = some t then x
  else
    let old := x.p .mode
    let new := if bitOf old modePass then old - 128 else old
    let ix : Fin 74 := ⟨CP.ix .mode, CP.ix_lt .mode⟩
    { x with inF := upd x.inF ix (fun _ => new), acc := if x.newest .mode = old then upd x.acc ix (fun _ => new) else x.acc }

/-- The waiting request is judged at the first boundary at or after its tag + 2 (R410, R411). -/
def State.judgeTarn (s : State) (c : CtxId) : State :=
  match s.ctx[c].tarn.waiting with
  | none => s
  | some (r, tag) =>
    if s.enables < tag + 2 then s
    else
      let j := s.judge c r
      let ok := decide (j.code = 1) || decide (j.code = 2)
      let t := s.enables
      s.modCtx c (fun x =>
        let x := { x with
          tgtFresh := x.tgtFresh || ok
          tarn := { x.tarn with waiting := none, answer := some j.code, lastAnswer := j.code, inForce := if ok then some r else x.tarn.inForce }
          mode := { x.mode with cmdLogged := x.mode.cmdLogged || j.log, passExited := x.mode.passExited || (ok && j.exit) } }
        if ok && j.exit then x.clearPass t else x)

end Sys2Proof.Machine
end

