-- ==== Sys2Proof/Machine/Outer.lean ====
section
/-!
DEFINITION. The outer step of a context (01 R22 to R24; 02 R58 to R69; 03 R72 to R92; 04 R128 to R138; 07 R205 to R209;
09 R258 to R271), stage by stage, and the scrub of its cells (R63).
-/
namespace Sys2Proof.Machine

/-- The VMEAS stage in both halves, each from its own port (R145). -/
def State.vmeasAll (s : State) (c : CtxId) : State := (s.holdWords c).halves (fun x => x.modCell c Cell.vmeasStage)

/-- What R23 asks of a context at a boundary but for the rundown: it goes on while all of it holds, also in a rundown (R36; DEDUCED,
log entry 15). -/
def State.mayGoOn (s : State) (c : CtxId) : Bool :=
  decide (s.dev.st = .run) && !(s.bound c).isEmpty && !s.ctx[c].prot.latched && (s.bound c).all (fun p => s.ph[p].offsetValid)
/-- Whether the context begins to regulate at this boundary (R23). -/
def State.mayBegin (s : State) (c : CtxId) : Bool := s.mayGoOn c && s.dev.rundown.isNone

/-- A context begins regulating (R59, R72, R116, R124, R131). -/
def State.beginReg (s : State) (c : CtxId) : State :=
  let n := (s.avail c).length
  let ptr : PhaseId := (s.bound c).getLast?.getD 0
  let s := s.halves (fun x =>
    let b := x.bound c
    (x.modCell c (fun k => k.begin n ptr)).modList b (fun h =>
      { h with iph := tag 0, bal := tag 0, thr := tag 0, ton := tag 0, remIph := tag 0, remBal := tag 0, remThr := tag 0,
               remTonN := tag 0, remTonD := tag 0 }))
  let now := s.clk.time
  let s := (s.bound c).foldl (fun s p => s.modPh p (fun x => { x with ocTimer := 0 })) s
  let s := s.modCtx c (fun x =>
    { x with regulating := true, outerCount := 0, firstStep := true, tracked := false,
             mode := { x.mode with eff := 0, passInForce := false, passWait := false, designated := none, rejoin := false,
                                   leaderLost := false },
             prot := { x.prot with ovTimer := 0, uvTimer := 0, ovDeclared := false, uvDeclared := false, pgEver := false,
                                   atTargetSeen := false, pgRun := 0, lastRetry := now, retryApplyOn := false } })
  s

/-- Begin, with the ON command of a retry at that boundary (R264). -/
def State.begin (s : State) (c : CtxId) : State :=
  let on := s.ctx[c].prot.retryApplyOn
  let s := s.beginReg c
  if on then s.onCmd c else s

/-- No bound phase of a regulating context is available (R129): it stops, and the class is declared. -/
def State.unavailable (s : State) (c : CtxId) : State := (s.stopReg c).declareCtx c [4]

/-- Σ IPH of R68 in the serving half, without the flag. -/
def State.sumIph (s : State) (c : CtxId) : Int :=
  let x := s.half s.serving
  ((x.cell[c]).sumIph ((x.bound c).map (fun p => x.ph[p].iph))).1

/-- Starting current of a reseat in one half (R205, R206): Σ IPH where PASS left, saturated against store ICMD; ICMD of
the previous boundary where CURRENT left. A sum that fails its residue check goes on with the tag that no word agrees with, so that
the INT stage of the reseat finds the mismatch (R60, R61). Where PASS and CURRENT leave at one boundary, the one reseat takes the current of
PASS: DESIGN CHOICE, log entry 172. -/
def reseatOf (x : Half) (c : CtxId) (en : Entry) : Option Tagged × Cell :=
  let k := x.cell[c]
  if en.leftPass then
    let a := (x.bound c).foldl (fun a p => a.add (x.ph[p]).iph.acc) (accOf 0)
    match exactStage a v24Lo v24Hi with
    | some (y, sat) => (some y, if sat then k.sat 12 else k)
    | none => (some ⟨a.v, 3⟩, k)
  else if en.leftCurrent then (some k.icmd, k) else (none, k)

/-- A held operand within bounds: a clamp writes it with the bound's tag (R61). -/
def Tagged.within (x : Tagged) (lo hi : Int) : Tagged := if clamp x.v lo hi = x.v then x else tag (clamp x.v lo hi)
/-- The commanded operand of R90 (R204, R214, R413). -/
def State.cmdMode (s : State) (c : CtxId) (k : Cell) : CmdMode :=
  let x := s.ctx[c]
  if !x.inE modeCurrent then .voltage
  else if x.inE modeTrack then .tracked k.trackI
  else match s.inForce c 2 with
    | some _ => .current ((k.w .request).within (x.p .iMin) (x.p .iMax))
    | none => .current (k.w .icmd)

/-- What drives the reference (R77, R92, R213). -/
def State.refMode (s : State) (c : CtxId) (x : Half) : RefMode :=
  let k := s.ctx[c]
  if !k.inE modeTrack || s.dev.rundown.isSome then .slew
  else if k.mode.leaderLost then .hold
  else if k.inE modeCurrent || k.mode.rejoin then .slew
  else .track ((x.cell[s.leader c]).lookBack s.enables).ref (k.p .voutMax)

/-- What the outer step of a half reads (R108). -/
def State.lawIn (s : State) (c : CtxId) (iff : Acc) (x : Half) (k : Cell) (reseat : Option Tagged) : LawIn :=
  let y := s.ctx[c]
  { first := y.firstStep, reseat := if y.firstStep then none else reseat,
    iMin := y.p .iMin, iMax := y.p .iMax, iff := iff, curMode := y.inE modeCurrent, refMode := s.refMode c x, cmdMode := s.cmdMode c k,
    iph := (x.bound c).map (fun p => (x.ph[p]).iph) }

/-- The outer step of one half: law and balance, or under PASS only what a reseat writes and IFF, which is 0 (R92, R97, R188). -/
def State.lawHalf (s : State) (c : CtxId) (en : Entry) (iff : Acc) (x : Half) : Half :=
  let y := s.ctx[c]
  let k0 := if y.inE modeTrack && !y.mode.leaderLost then
      { x.cell[c] with trackI := ((x.cell[s.leader c]).lookBack s.enables).icmd } else x.cell[c]
  let r := reseatOf { x with cell := x.cell.set c k0 } c en
  if y.mode.passInForce then
    let k := match r.1 with
      | some i0 => if y.firstStep then r.2 else r.2.doReseat i0 (y.p .iMin) (y.p .iMax)
      | none => r.2
    { x with cell := x.cell.set c (({ k with swapOld := none } : Cell).formIff iff) }
  else
    let k := r.2.outerLaw (s.lawIn c iff x r.2 r.1)
    if y.outerCount % 16 = 0 then
      let b := balanceStep (y.p .balLim) (x.actives (x.bound c)) (k, x.ph)
      { x with cell := x.cell.set c b.1, ph := b.2 }
    else { x with cell := x.cell.set c k }

/-- The sign that R78 compares at the next redirect: that of gap as this boundary's REF stage forms it. -/
def State.gapSignNow (s : State) (c : CtxId) (en : Entry) : Int :=
  let k := s.cell c
  let x := s.ctx[c]
  let at0 := x.firstStep || en.leftPass || en.leftCurrent
  let ref := if at0 then (if k.vmeas.v < 0 then 0 else k.vmeas.v * F24) else k.ref.v * F24 + k.remRef.v
  sgn (x.tgt * F24 - ref)

/-- Law in both halves, the follower's bookkeeping (R213) and the sign of R78. At a boundary whose REF stage forms no gap (it follows the
leader, holds without one, or PASS is in force) the last sign formed stays the one that REVERSED is set by: DESIGN CHOICE, log entry
163. -/
def State.lawAll (s : State) (c : CtxId) (en : Entry) (iff : Iff) : State :=
  let g := s.gapSignNow c en
  let s := s.holdWords c
  let s : State := { s with east := s.lawHalf c en iff.east s.east, west := s.lawHalf c en iff.west s.west }
  let k := s.cell c
  s.modCtx c (fun x =>
    if x.mode.passInForce then x
    else if x.follows && s.dev.rundown.isNone then
      if x.mode.leaderLost then x
      else if x.mode.rejoin then
        { x with gapSign := g, mode := { x.mode with rejoin := !(decide (k.ref.v = x.tgt) && decide (k.remRef.v = 0)) } }
      else { x with tgt := k.ref.v }
    else { x with gapSign := g })

/-- The pre-fault ring of a context 1 to 63 (R68, R69). -/
def State.ringStep (s : State) (c : CtxId) : State :=
  let x := s.ctx[c]
  if x.prot.ringFrozen then s
  else
    let pos := x.prot.ringPos
    let n := x.outerCount
    let s := s.halves (fun h =>
      let r := (h.cell[c]).sumIph ((h.bound c).map (fun p => (h.ph[p]).iph))
      { h with cell := h.cell.set c (r.2.ringPut pos n r.2.vmeas.v r.2.err.v r.2.icmd.v r.1) })
    s.modCtx c (fun x => { x with prot := { x.prot with ringPos := (pos + 1) % 64 } })

/-- The shedding step of one half (R131, R132): n_act, the dwell count, and whether n_act rose. -/
structure ShedOut where
  n : Nat
  dwell : Nat
  rose : Bool
deriving DecidableEq, Repr
/-- "icmd exceeds the add threshold of n" and "icmd lies below the shed threshold of n" (R132). -/
def overAdd (add : Nat → Int) (n : Nat) (icmd : Int) : Bool :=
  if n ≤ 8 then decide (add n < icmd) else decide (n * add 8 < 8 * icmd)
def underShed (shed : Nat → Int) (n : Nat) (icmd : Int) : Bool :=
  if n ≤ 8 then decide (icmd < shed n) else decide (8 * icmd < n * shed 8)
/-- The step of R131. A dwell step that PROBE freezes (R203) leaves the dwell count as it is, below the floor too: DESIGN CHOICE, log entry
164. -/
def shedRule (add shed : Nat → Int) (icmd : Int) (n a dwell floor : Nat) (frozen : Bool) : ShedOut :=
  let r : ShedOut :=
    if overAdd add n icmd then
      let n2 := (((List.range a).map (· + 1)).find? (fun m => decide (n < m) && !overAdd add m icmd)).getD a
      ⟨n2, 0, decide (n < n2)⟩
    else if 1 < n && underShed shed (n - 1) icmd then
      if frozen then ⟨n, dwell, false⟩
      else if floor ≤ n - 1 then (if 1024 ≤ dwell + 1 then ⟨n - 1, 0, false⟩ else ⟨n, dwell + 1, false⟩)
      else ⟨n, 0, false⟩
    else ⟨n, 0, false⟩
  let r := if r.n < floor then ⟨floor, 0, true⟩ else r
  let m := max 1 (min r.n a)
  ⟨m, r.dwell, decide (n < m)⟩

/-- The shedding step of both halves (R130, R131), which PROBE freezes while it integrates (R203); a rise disturbs the
probe (R220). -/
def State.shedStep (s : State) (c : CtxId) : State :=
  let x := s.ctx[c]
  if x.mode.passInForce then
    if bitOf (x.p .mode) modeShed then s
    else s.halves (fun h => h.modCell c (fun k => { k with nAct := (s.avail c).length }))
  else if !x.inE modeShed then s.setNAct c (s.avail c).length
  else
    let avail := s.avail c
    let frozen := decide (x.probe.st = .integrating)
    let out (h : Half) : ShedOut :=
      shedRule (s.addThr c) (s.shedThr c) (h.cell[c]).icmd.v (h.cell[c]).nAct avail.length (h.cell[c]).dwell x.sched.nFloor frozen
    let rose := (out (s.half s.serving)).rose
    let s := s.halves (fun h =>
      let o := out h
      (h.setActive (h.bound c) avail o.n).modCell c (fun k => { k with nAct := o.n, dwell := o.dwell }))
    if rose && frozen then s.modCtx c (fun x => { x with probe := { x.probe with disturbed := true } }) else s

/-- A HELD start of a phase in one half, presented with the boundary's decisions (R118, R128, R255). It replaces a pulse that the phase
still has in flight, and leaves the rotation pointer as it is: DESIGN CHOICE, log entry 137. -/
def Half.startHeld (x : Half) (c : CtxId) (t : Nat) (paired : Bool) (commits : List Commit) (p : PhaseId) : Half :=
  let pf := x.boundaryTick c t + 2 * ((x.bound c).idxOf p / 16)
  let h := { x.ph[p] with act := (x.ph[p]).pendAt p commits pf }
  let start := 32 * (pf + 2)
  let q : Pulse := { start := start, min := h.act.minimum paired, fall := none, endAt := none, paired := paired }
  { x with ph := x.ph.set p { h with state := .held, pulse := some q }, edges := x.edges ++ startEdges p paired start h.act.dtRise }

/-- A HELD start in both halves; the output stage follows it unless it is forced (R127). -/
def State.startHeld (s : State) (c : CtxId) (p : PhaseId) : State :=
  (s.halves (fun x => x.startHeld c s.enables (s.joined p) s.commits p)).followStart p

/-- The falling edge of HELD phases with the outer step (R128, R208). -/
def State.dropNow (s : State) (c : CtxId) : State := s.halves (fun x => x.dropHeld c (x.boundaryTick c s.enables))

/-- The designated phase of PASS (R128, R208, R255): chosen, moved, or started afresh after a force. -/
def State.passPhase (s : State) (c : CtxId) : State :=
  let x := s.ctx[c]
  if x.mode.passInForce then
    let avail := s.avail c
    let low := avail.head?
    match x.mode.designated with
    | some d =>
      if avail.contains d then
        if s.ph[d].forced && !s.forceNow d && s.ph[d].followAt.isNone && decide ((s.hph d).state = .held) then s.startHeld c d else s
      else
        let s := s.dropNow c
        let s := s.halves (fun h => h.modList (h.bound c) HPhase.park)
        let s := match low with
          | some p => s.startHeld c p
          | none => s
        s.modCtx c (fun x => { x with mode := { x.mode with designated := low, passMoved := true } })
    | none =>
      let s := s.halves (fun h => h.modList ((h.bound c).filter (fun p => some p ≠ low)) HPhase.park)
      let s := match low with
        | some p => s.startHeld c p
        | none => s
      s.modCtx c (fun x => { x with mode := { x.mode with designated := low } })
  else s

/-- PASS has left force: its phase falls with this outer step (R206). -/
def State.passExit (s : State) (c : CtxId) : State :=
  if s.ctx[c].mode.passInForce || s.ctx[c].mode.designated.isNone then s
  else (s.dropNow c).modCtx c (fun x => { x with mode := { x.mode with designated := none } })

/-- CTX[c].PHASE_STATUS of this boundary (R138). -/
def State.formPhaseStatus (s : State) (c : CtxId) : State :=
  let k := s.cell c
  let w := word (k.dwell + 2048 * s.ctx[c].sched.nFloor + 262144 * k.nAct + 33554432 * (s.bound c).length)
  s.modCtx c (fun x => { x with phaseStatus := w })

/-- Accuracy class B of a context (R166): an item is defaulted, or provisional, from the restore of BOOT on (R165). -/
def State.classBNow (s : State) (c : CtxId) : Bool :=
  s.dev.restored && (s.ctx[c].sense.cal.isNone || s.ctx[c].chan.cal.isNone || s.ctx[c].chan.provisional
    || (s.bound c).any (fun p => s.ph[p].gainFinal.isNone || s.ph[p].provisional))
def State.formClass (s : State) (c : CtxId) : State :=
  let b := s.classBNow c
  if s.ctx[c].sense.classB = b then s
  else
    let s := s.modCtx c (fun x => { x with sense := { x.sense with classB := b } })
    s.event c.val evClassChange (if b then 1 else 0) (s.senseWord c)

/-- Condition of RAIL_UV at this boundary (R258). -/
def State.uvCond (s : State) (c : CtxId) : Bool :=
  let x := s.ctx[c]
  x.prot.pgEver && s.dev.rundown.isNone && !x.mode.passInForce && !x.inE modeCurrent
    && decide ((s.cell c).vmeas.v < (s.cell c).pos.v - x.p .uvMargin)
/-- Condition of PHASE_OC of a bound phase over the outer sample (R257, R258). -/
def State.ocCond (s : State) (c : CtxId) (p : PhaseId) : Bool :=
  s.ph[p].ocSeen || (s.ctx[c].prot.tripSeen && decide (s.tripClass c = 2) && decide (bitsOf (s.cp c .tripCfg) 8 7 = p.val))

/-- The sentinel count of a declared PHASE_OC. -/
def ocDone : Nat := 1000000
def State.ocTimerOf (s : State) (c : CtxId) (p : PhaseId) : TimerOut :=
  let t := s.ph[p].ocTimer
  faultTimer t (decide (ocDone ≤ t)) (s.ocCond c p) (s.cp c .ocTime).toNat

/-- What the timers of classes 0 to 2 did at a boundary (R259, R263). -/
structure Judgement where
  classes : List FClass
  shed : List PhaseId
  starts : Bool
  runs : Bool

/-- The timers of classes 0 to 2 advance (R259). -/
def State.timers (s : State) (c : CtxId) : State × Judgement :=
  let x := s.ctx[c]
  let ov := faultTimer x.prot.ovTimer x.prot.ovDeclared (s.ovCond c) (x.p .ovTime).toNat
  let uv := faultTimer x.prot.uvTimer x.prot.uvDeclared (s.uvCond c) (x.p .uvTime).toNat
  let ocs := (s.bound c).map (fun p => (p, s.ocTimerOf c p))
  let s := s.modCtx c (fun x => { x with prot := { x.prot with ovTimer := ov.count, ovDeclared := ov.declared, uvTimer := uv.count,
                                                               uvDeclared := uv.declared } })
  let s := ocs.foldl (fun s o => s.modPh o.1 (fun y => { y with ocTimer := if o.2.declared then ocDone else o.2.count })) s
  let hit := (ocs.filter (fun o => o.2.now)).map (·.1)
  (s, { classes := (if ov.now then [0] else []) ++ (if uv.now then [1] else []) ++ hit.map (fun _ => 2),
        shed := hit,
        starts := ov.starts || uv.starts || ocs.any (fun o => o.2.starts),
        runs := ov.runs || uv.runs || ocs.any (fun o => o.2.runs) })

/-- Phases declared PHASE_OC under SHED_PHASE become unavailable (R261, R263). -/
def State.shedOc (s : State) (c : CtxId) (ps : List PhaseId) : State :=
  if s.resp c 2 = 2 then ps.foldl (fun s p => s.modPh p (fun x => { x with unavOc := true })) s else s

/-- Fault timers and declarations of a regulating context (R259, R263). -/
def State.faultStep (s : State) (c : CtxId) : State × Judgement :=
  let r := s.timers c
  ((r.1.shedOc c r.2.shed).declareCtx c r.2.classes, r.2)

/-- The in-window test of power-good (R270). -/
def State.pgTest (s : State) (c : CtxId) : Bool :=
  let x := s.ctx[c]
  let v := (s.cell c).vmeas.v
  if x.mode.passInForce then decide (s.bus - x.p .passHeadroom ≤ v)
  else if x.inE modeCurrent then decide (v ≤ x.p .voutMax + x.p .pgWin)
  else decide ((v - (s.cell c).pos.v).natAbs ≤ x.p .pgWin)

/-- n_pg of R270: PG_DELAY in outer samples, rounded up, at least 1. -/
def State.pgCount (s : State) (c : CtxId) : Nat :=
  let m := s.ratio c
  max 1 (((s.cp c .pgDelay).toNat * 25 + (m - 1)) / (max m 1))

/-- Power-good at a boundary (R267, R270, R271): where a declaration of this very boundary has dropped it (`was`), the boundary does
not count. -/
def State.pgStep (s : State) (c : CtxId) (was starts runs : Bool) : State :=
  if !s.ctx[c].regulating || (was && !s.ctx[c].prot.pg) then s
  else
    let win := s.pgTest c
    let hit := s.atTarget c
    let s := s.modCtx c (fun x => { x with prot := { x.prot with pgRun := if win then x.prot.pgRun + 1 else 0,
                                                                 atTargetSeen := x.prot.atTargetSeen || hit } })
    let x := s.ctx[c]
    if x.prot.pg then
      if (!win && !runs) || (decide (x.p .pgEarly = 1) && starts) then s.pgDrop c else s
    else if s.dev.rundown.isNone && !x.prot.latched && x.prot.atTargetSeen && decide (s.pgCount c ≤ x.prot.pgRun) && !starts && !runs then
      let s := s.modCtx c (fun x => { x with prot := { x.prot with pg := true, pgEver := true } })
      s.event c.val evPgChange 1 (wordOf (s.cell c).vmeas.v)
    else s

/-- The rail parks when its reference reaches 0 V in rundown (R36). -/
def State.rundownPark (s : State) (c : CtxId) : State :=
  if s.dev.rundown.isSome && decide ((s.cell c).ref.v = 0) && decide ((s.cell c).remRef.v = 0) then s.stopReg c else s

/-- The boundary is done: what later rules look back on, and the sample's flags start afresh (R95, R212, R257). -/
def State.closeBoundary (s : State) (c : CtxId) : State :=
  let t := s.enables
  let s := s.halves (fun x => x.modCell c (fun k => k.mark t))
  let s := ((s.bound c).foldl (fun s p => s.modPh p (fun x => { x with ocSeen := false })) s).noteSched c
  s.modCtx c (fun x => { x with lastDone := some t, prot := { x.prot with tripSeen := x.prot.tripAsserted } })

/-- A redirect that no pause covers disturbs an integrating probe (R220). -/
def State.probeDisturb (s : State) (c : CtxId) (redirect : Bool) : State :=
  if redirect && decide (s.ctx[c].probe.st = .integrating) then s.modProbe c (fun p => { p with disturbed := true }) else s

/-- One boundary of a regulating context, from E to the shedding step. -/
def State.regulate (s : State) (c : CtxId) : State :=
  let r := s.formE c
  let s := ((r.1.passExit c).preAct c).judgeTarn c
  let tgt0 := s.ctx[c].tgt
  let red0 := s.ctx[c].redirects
  let s := s.formTarget c
  let moved := decide (s.ctx[c].tgt ≠ tgt0) && !s.ctx[c].firstStep
  let before := s.ctx[c].sched.events
  let p := s.schedStep c
  let s := p.1.modCtx c (fun x =>
    { x with probe := { x.probe with tgtWait := x.probe.live && (moved || x.probe.tgtWait) && !p.1.atTarget c } })
  let s := s.probePause c (s.ctx[c].probe.tgtWait || s.schedHolds c)
  let s := s.probeDisturb c (moved && decide (s.ctx[c].redirects ≠ red0 ∨ red0 = 65535))
  let cur := s.ctx[c].inE modeCurrent
  let s := (s.probeInject c cur).lawAll c r.2 p.2
  let sumI := s.sumIph c
  let k := s.cell c
  let s := (s.ringStep c).probeAfter c (if cur then k.icmd.v else k.err.v) (if cur then sumI else k.vmeas.v)
  let s := (s.traceStep c sumI).formFloors c before
  ((s.endEvents c).shedStep c).passPhase c

/-- Faults, power-good and the end of a regulated boundary (R259, R270). -/
def State.judgeBoundary (s : State) (c : CtxId) : State :=
  let r := s.faultStep c
  let s := r.1.pgStep c s.ctx[c].prot.pg r.2.starts r.2.runs
  let s := (s.formPhaseStatus c).rundownPark c
  s.modCtx c (fun x => { x with outerCount := x.outerCount + 1, firstStep := !x.regulating })

/-- What a context does at its boundary once its phases are settled: begin, go on, stop or idle (R23, R129); its schedule runs either way
(R187). -/
def State.contextStep (s : State) (c : CtxId) : State :=
  let on := s.ctx[c].regulating && s.mayGoOn c
  if on || (!s.ctx[c].regulating && s.mayBegin c) then
    let s := if on then s else s.begin c
    let s := s.vmeasAll c
    if (s.avail c).isEmpty then ((s.unavailable c).judgeTarn c).formPhaseStatus c
    else (s.regulate c).judgeBoundary c
  else (((s.stopReg c).judgeTarn c).schedIdle c).formPhaseStatus c

/-- A context whose last bound phase was released stops, and its channel receives an OFF command (R23). -/
def State.lostPhases (s : State) (c : CtxId) : State :=
  if s.ctx[c].regulating && (s.bound c).isEmpty then (s.stopReg c).offCmd c else s

/-- Context 0 at a boundary: VMEAS, the ring, and classes 0 and 1 of the input (R24, R68, R145, R260). -/
def State.inputFaults (s : State) : State :=
  let c : CtxId := 0
  let r := s.inputAt (s.cell c).vmeas.v
  let s := s.modCtx c (fun x =>
    { x with
      inputSeen := r.seen
      prot := { x.prot with ovTimer := r.ov.count, ovDeclared := r.ov.declared, uvTimer := r.uv.count, uvDeclared := r.uv.declared } })
  s.declareCtx c r.classes
def State.inputRing (s : State) : State :=
  let x := s.ctx[(0 : CtxId)]
  if x.prot.ringFrozen then s
  else
    let pos := x.prot.ringPos
    let n := x.outerCount
    let s := s.halves (fun h => h.modCell 0 (fun k => { k.ringPut pos n k.vmeas.v k.portIsw.v 0 0 with iswUnused := false }))
    s.modCtx 0 (fun x => { x with prot := { x.prot with ringPos := (pos + 1) % 64 } })
def State.inputStep (s : State) : State :=
  let s := ((((s.vmeasAll 0).inputRing).traceStep 0 0).inputFaults).formPhaseStatus 0
  s.modCtx 0 (fun x => { x with outerCount := x.outerCount + 1 })

/-- A boundary of any context. -/
def State.boundary (s : State) (c : CtxId) : State :=
  let s := if c.val = 0 then s.inputStep else ((s.rebind c).lostPhases c).contextStep c
  (s.formClass c).closeBoundary c

/-- The field-time word of a tag reaches a context's cells (R15, R16, R172): a half with a double-bit error keeps the last valid
one. -/
def State.ftArrives (s : State) (c : CtxId) (e : BcastErr) : State :=
  let w := s.ftWord
  (s.toPorts c e (fun k => { k with ftWord := tag w })).bcast c e

/-- OUTER_STEP (R24, R58, R72, R172): acts in the first fast tick of an outer-sample boundary of the context, once. -/
def execOuterStep (x : BoundaryWord) (s : State) : Host.Outcome State Fault Refusal :=
  let c := x.ctx
  if s.converting && decide (s.clk.fast % 16 = 0) && s.atBoundary c && decide (s.ctx[c].lastDone ≠ some s.enables) then
    let s := (s.settle phaseIds).ftArrives c x.ft
    .next (s.keepStopped (State.signalResidue s (s.boundary c) c))
  else .next s

/-- What the stages of the outer sample that runs read (R63). -/
def State.reads (s : State) (c : CtxId) : Reads :=
  let x := s.ctx[c]
  { law := s.decides c, vmeas := x.regulating || decide (c.val = 0), balance := decide (x.outerCount % 16 = 1), cur := x.inE modeCurrent,
    track := x.inE modeTrack, slews := decide (s.refMode c (s.half s.serving) = .slew),
    leads := x.follows && !x.mode.rejoin && !x.mode.leaderLost && s.dev.rundown.isNone, offtime := x.inE modeOfftime, request := (s.inForce c 2).isSome }
/-- The profile states that a half holds of a context (R187). -/
def Sched.profiles (x : Sched) : HalfId → List Tagged
  | .east => x.events.map Event.fE
  | .west => x.events.map Event.fW
/-- The errors that a scrub of one context finds in a half (R63). -/
def State.scrubErrors (s : State) (c : CtxId) (h : HalfId) : Nat :=
  let x := s.half h
  let m := s.reads c
  let phases := (phaseIds.filter (fun p => x.ph[p].bind = c ∧ x.ph[p].state ≠ .unbound)).foldl
    (fun (l : List Tagged) (p : PhaseId) => l ++ (x.ph[p]).scrubWords m x.ph[p].isActive) []
  ((x.cell[c].scrubWords m ++ phases ++ s.ctx[c].sched.profiles h).filter (fun w => !w.ok)).length
def Cell.failN (k : Cell) (n : Nat) : Cell := { k with residueErrors := k.residueErrors + n }

/-- CELL_SCRUB (R62, R63): once in an outer sample, the words of a context's cells that its stages do not read are checked in each
half. -/
def execCellScrub (c : CtxId) (s : State) : Host.Outcome State Fault Refusal :=
  if s.converting && s.ctx[c].lastDone.isSome && decide (s.ctx[c].scrubbed ≠ s.ctx[c].lastDone) then
    let t : State := { s with east := s.east.modCell c (fun k => k.failN (s.scrubErrors c .east)),
                              west := s.west.modCell c (fun k => k.failN (s.scrubErrors c .west)) }
    let t := t.modCtx c (fun x => { x with scrubbed := x.lastDone })
    .next (s.keepStopped (State.signalResidue s t c))
  else .next s

end Sys2Proof.Machine
end

