-- ==== Sys2Proof/Machine/Pmbus.lean ====
section
/-!
DEFINITION. The PMBus commands (12_host_mailbox_and_pmbus.md, R389 to R396; 16 R480, R481). `pmb.answer` holds what the
device drives after the last transaction: a read's bytes with the PEC byte last, no bytes for an acknowledged write, none
where a byte was not acknowledged. PAGE and MFR_PARAM_INDEX take a value at once; other writes join the requests (R372).
-/
namespace Sys2Proof.Machine

/-- A byte was not acknowledged. -/
def State.nack (s : State) : State := { s with pmb := { s.pmb with answer := none } }
/-- Every byte of a write was acknowledged. -/
def State.ack (s : State) : State := { s with pmb := { s.pmb with answer := some [] } }

/-- Codes of R393. -/
def pmbCodes : List Nat :=
  [0x00, 0x01, 0x03, 0x15, 0x19, 0x20, 0x21, 0x24, 0x27, 0x2B, 0x40, 0x78, 0x79, 0x7A, 0x7B, 0x7D, 0x7E, 0x88, 0x8B, 0x8C, 0x8D, 0x8E, 0x96,
    0x98, 0x99, 0x9A, 0xD0, 0xD1]

/-- A command that is not supported: NACKed at the command byte, with bit 7 (R393). -/
def State.pmbInvalid (s : State) : State := (s.cml 7).nack

/-- The bytes of a read, low byte first, and the PEC byte (R389). -/
def State.reply (s : State) (code : Nat) (bs : List Byte) : State :=
  let a := s.pmb.addr
  let pec := crc8 (BitVec.ofNat 8 (2 * a) :: BitVec.ofNat 8 code :: BitVec.ofNat 8 (2 * a + 1) :: bs)
  { s with pmb := { s.pmb with answer := some (bs ++ [pec]) } }
/-- A write's PEC byte (R389). -/
def State.pecGood (s : State) (code : Nat) (bs : List Byte) : Option Byte → Bool
  | none => decide (s.gp .pmbCfg % 2 = 0)
  | some p => decide (p = crc8 (BitVec.ofNat 8 (2 * s.pmb.addr) :: BitVec.ofNat 8 code :: bs))

/-- One transaction (R389, R395): the device address is NACKed while the interfaces do not answer; a write with a PEC
that does not match, or without a PEC it needs, is discarded; one of another length is not acknowledged (log entry 26). -/
def State.transact (s : State) (code : Nat) (x : PmbXfer) (bytes : Nat) (rd : State → State) (wr : List Byte → State → State) : State :=
  if !s.interfaces then s.nack
  else match x.write with
    | none => rd s
    | some bs =>
      if !s.pecGood code bs x.pec then (if x.pec.isSome then (s.cml 5).nack else (s.cml 5).ack)
      else if bs.length ≠ bytes then s.nack
      else wr bs s.ack
/-- A read-only command: a write of it is refused. -/
def State.readOnly (s : State) (code : Nat) (x : PmbXfer) (bytes : Nat) (rd : State → State) : State :=
  s.transact code x bytes rd (fun _ s => s.pmbRefuse code ansAccess)
/-- A send-byte command: it has no read. -/
def State.sendByte (s : State) (code : Nat) (x : PmbXfer) (act : State → State) : State :=
  s.transact code x 0 State.pmbInvalid (fun _ s => act s)

/-- A paged read of so many bytes (R391, R393): none for PAGE 0xFF; a page without a target reads 0. -/
def State.paged (s : State) (code bytes : Nat) (f : State → CtxId → List Byte) : State :=
  if s.pmb.page = 0xFF then s.pmbInvalid
  else match s.pages with
    | [] => s.reply code (List.replicate bytes 0)
    | c :: _ => s.reply code (f s c)
/-- V24 to LINEAR16 (R392). -/
def linear16 (code : Int) : Int := clamp (roundAway code 64) 0 65535
/-- A rational in LINEAR11 with exponent N: its rounded mantissa (R392). -/
def mantissa11 (num den : Int) (n : Int) : Int :=
  if n < 0 then roundAway (num * (2 : Int) ^ n.natAbs) den else roundAway num (den * (2 : Int) ^ n.natAbs)
/-- Mantissa and exponent of a rational in LINEAR11: the smallest N that fits (R392). -/
def split11 (num den : Int) : Int × Int :=
  let ns : List Int := (List.range 32).map (fun (j : Nat) => (j : Int) - 16)
  match ns.find? (fun n => decide (-1024 ≤ mantissa11 num den n) && decide (mantissa11 num den n ≤ 1023)) with
  | some n => (mantissa11 num den n, n)
  | none => (if num < 0 then -1024 else 1023, 15)
def pack11 (y n : Int) : Int := n % 32 * 2048 + y % 2048
def linear11 (num den : Int) : Int := let p := split11 num den; pack11 p.1 p.2
/-- The rate in mV/us of a VSLEW, as numerator and denominator. -/
def rateOf (vslew ratio : Int) : Int := if ratio = 0 then 0 else linear11 (vslew * 25000) (ratio * 65536 * F24)

/-- Two bytes of a LINEAR16 reading of a V24 parameter (R392). -/
def State.readV (s : State) (c : CtxId) (p : CP) : Int := (s.readSlot .pmb (.ctx c p)).toInt

/-- PAGE (R391, R480, R481). -/
def execPage (x : PmbXfer) (s : State) : Host.Outcome State Fault Refusal :=
  .next (s.transact 0x00 x 1 (fun s => s.reply 0x00 (leBytes 1 s.pmb.page)) (fun bs s =>
    let n := leNat bs
    if n = 0xFF ∨ n < 63 ∨ (n = 63 ∧ s.dev.compatEn = false) then { s with pmb := { s.pmb with page := n } } else s.pmbRefuse 0x00 ansRange))

/-- OPERATION (R393). -/
def State.operationOn (s : State) (c : CtxId) : Bool := if c.val = 0 then s.runReqNew else (s.readCReg .pmb c .swCtl).getLsbD 0
def execOperation (x : PmbXfer) (s : State) : Host.Outcome State Fault Refusal :=
  .next (s.transact 0x01 x 1 (fun s => s.paged 0x01 1 (fun s c => [if s.operationOn c then 0x80 else 0])) (fun bs s => s.pmbWrite 0x01 bs))

/-- CLEAR_FAULTS and STORE_USER_ALL (R393, R395). -/
def execClearFaults (x : PmbXfer) (s : State) : Host.Outcome State Fault Refusal :=
  .next (s.sendByte 0x03 x (fun s => s.pmbWrite 0x03 []))
def execStoreUserAll (x : PmbXfer) (s : State) : Host.Outcome State Fault Refusal :=
  .next (s.sendByte 0x15 x (fun s => s.pmbWrite 0x15 []))

/-- CAPABILITY, VOUT_MODE, PMBUS_REVISION, MFR_ID and MFR_MODEL (R392, R393). -/
def execCapability (x : PmbXfer) (s : State) : Host.Outcome State Fault Refusal :=
  .next (s.readOnly 0x19 x 1 (fun s => s.reply 0x19 [0xC0]))
def execVoutMode (x : PmbXfer) (s : State) : Host.Outcome State Fault Refusal :=
  .next (s.readOnly 0x20 x 1 (fun s => s.reply 0x20 [0x16]))
def execPmbusRevision (x : PmbXfer) (s : State) : Host.Outcome State Fault Refusal :=
  .next (s.readOnly 0x98 x 1 (fun s => s.reply 0x98 [0x44]))
/-- Eight characters as a block: its length, then its bytes. -/
def block (bs : List Byte) : List Byte := BitVec.ofNat 8 bs.length :: bs
def execMfrId (x : PmbXfer) (s : State) : Host.Outcome State Fault Refusal :=
  .next (s.readOnly 0x99 x 9 (fun s => s.reply 0x99 (block [0x44, 0x4F, 0x4C, 0x49, 0x52, 0x4F, 0x52, 0x49])))
def execMfrModel (x : PmbXfer) (s : State) : Host.Outcome State Fault Refusal :=
  .next (s.readOnly 0x9A x 9 (fun s => s.reply 0x9A (block [0x53, 0x4B, 0x4C, 0x43, 0x36, 0x33, 0x39, 0x36])))

/-- VOUT_COMMAND (R392, R393): VSET. -/
def execVoutCommand (x : PmbXfer) (s : State) : Host.Outcome State Fault Refusal :=
  .next (s.transact 0x21 x 2 (fun s => s.paged 0x21 2 (fun s c => leBytes 2 (linear16 (s.readV c .vset)))) (fun bs s => s.pmbWrite 0x21 bs))
/-- VOUT_MAX, VOUT_MIN and VOUT_OV_FAULT_LIMIT (R393). -/
def execVoutMax (x : PmbXfer) (s : State) : Host.Outcome State Fault Refusal :=
  .next (s.readOnly 0x24 x 2 (fun s => s.paged 0x24 2 (fun s c => leBytes 2 (linear16 (s.readV c .voutMax)))))
def execVoutMin (x : PmbXfer) (s : State) : Host.Outcome State Fault Refusal :=
  .next (s.readOnly 0x2B x 2 (fun s => s.paged 0x2B 2 (fun s c => leBytes 2 (linear16 (s.readV c .voutMin)))))
def execVoutOvFaultLimit (x : PmbXfer) (s : State) : Host.Outcome State Fault Refusal :=
  .next (s.readOnly 0x40 x 2 (fun s => s.paged 0x40 2 (fun s c => leBytes 2 (linear16 (s.readV c .voutMax + s.readV c .ovMargin)))))
/-- VOUT_TRANSITION_RATE (R392, R393): VSLEW, scaled by T_v. -/
def execVoutTransitionRate (x : PmbXfer) (s : State) : Host.Outcome State Fault Refusal :=
  .next (s.transact 0x27 x 2
    (fun s => s.paged 0x27 2 (fun s c => leBytes 2 (rateOf (s.readV c .vslew) (s.readV c .mRatio))))
    (fun bs s => s.pmbWrite 0x27 bs))

/-- Zones of a page (R393, R394): those of its bound phases; the Heath zone for context 0. -/
def State.pageZones (s : State) (c : CtxId) : List (Fin 19) := if c.val = 0 then [2] else (s.bound c).map s.phZone
def State.zoneAt (s : State) (zs : List (Fin 19)) (n : Nat) : Bool := zs.any (fun z => decide (n ≤ (s.zone z).level.num))
/-- A class flag of a context (R283). -/
def State.classFlag (s : State) (c : CtxId) (k : Nat) : Bool := s.ctx[c].prot.sticky.getLsbD k
/-- RAIL_OV and RAIL_UV are classes of contexts 1 to 63 (R258). -/
def State.railFlag (s : State) (c : CtxId) (k : Nat) : Bool := decide (c.val ≠ 0) && s.classFlag c k
/-- The high byte of STATUS_WORD (R394). -/
def State.statusHigh (s : State) (c : CtxId) : Nat :=
  flag (s.railFlag c 0 || s.railFlag c 1) 7 + flag ([2, 8, 9, 10, 11].any (s.classFlag c)) 6
    + flag (decide (s.ctx[(0 : CtxId)].prot.sticky &&& 0x3FFF ≠ 0)) 5 + flag ([3, 4, 5, 6, 7, 12, 13].any (s.classFlag c)) 4
    + flag (!s.ctx[c].prot.pg) 3
/-- STATUS_BYTE (R394). -/
def State.statusLow (s : State) (c : CtxId) : Nat :=
  flag (!s.ctx[c].regulating) 6 + flag (s.railFlag c 0) 5 + flag (s.classFlag c 2 || s.classFlag c 8) 4 + flag (s.classFlag 0 1) 3
    + flag (s.zoneAt (s.pageZones c) 1) 2 + flag (decide (s.pmb.cml ≠ 0)) 1 + flag (decide (s.statusHigh c ≠ 0)) 0
/-- The status reads of R394. -/
def execStatusByte (x : PmbXfer) (s : State) : Host.Outcome State Fault Refusal :=
  .next (s.readOnly 0x78 x 1 (fun s => s.paged 0x78 1 (fun s c => leBytes 1 (s.statusLow c))))
def execStatusWord (x : PmbXfer) (s : State) : Host.Outcome State Fault Refusal :=
  .next (s.readOnly 0x79 x 2 (fun s => s.paged 0x79 2 (fun s c => leBytes 2 (s.statusLow c + 256 * s.statusHigh c : Nat))))
def execStatusVout (x : PmbXfer) (s : State) : Host.Outcome State Fault Refusal :=
  .next (s.readOnly 0x7A x 1 (fun s => s.paged 0x7A 1 (fun s c => leBytes 1 (flag (s.railFlag c 0) 7 + flag (s.railFlag c 1) 4 : Nat))))
def execStatusIout (x : PmbXfer) (s : State) : Host.Outcome State Fault Refusal :=
  .next (s.readOnly 0x7B x 1 (fun s => s.paged 0x7B 1 (fun s c => leBytes 1 (flag (s.classFlag c 2 || s.classFlag c 8) 7))))
def execStatusTemperature (x : PmbXfer) (s : State) : Host.Outcome State Fault Refusal :=
  .next (s.readOnly 0x7D x 1 (fun s => s.paged 0x7D 1 (fun s c =>
    leBytes 1 (flag (s.zoneAt (s.pageZones c) 3) 7 + flag (s.zoneAt (s.pageZones c) 1) 6 : Nat))))
def execStatusCml (x : PmbXfer) (s : State) : Host.Outcome State Fault Refusal :=
  .next (s.readOnly 0x7E x 1 (fun s => s.reply 0x7E [s.pmb.cml]))

/-- READ_VIN, READ_VOUT, READ_IOUT and READ_POUT (R392, R393): volts of VMEAS, amperes of ISW's mean over 1 ms. -/
def execReadVin (x : PmbXfer) (s : State) : Host.Outcome State Fault Refusal :=
  .next (s.readOnly 0x88 x 2 (fun s => s.reply 0x88 (leBytes 2 (linear11 (s.cell 0).vmeas.v 65536))))
def execReadVout (x : PmbXfer) (s : State) : Host.Outcome State Fault Refusal :=
  .next (s.readOnly 0x8B x 2 (fun s => s.paged 0x8B 2 (fun s c => leBytes 2 (linear16 (s.cell c).vmeas.v))))
def State.iout (s : State) (c : CtxId) : Int × Int :=
  let l := s.ctx[c].chan.isws
  split11 (l.foldl (· + ·) 0) (16384 * max 1 l.length : Nat)
def execReadIout (x : PmbXfer) (s : State) : Host.Outcome State Fault Refusal :=
  .next (s.readOnly 0x8C x 2 (fun s => s.paged 0x8C 2 (fun s c => leBytes 2 (let p := s.iout c; pack11 p.1 p.2))))
def State.pout (s : State) (c : CtxId) : Int :=
  let p := s.iout c
  let v := linear16 (s.cell c).vmeas.v * p.1
  if p.2 < 0 then linear11 v (1024 * (2 : Int) ^ p.2.natAbs) else linear11 (v * (2 : Int) ^ p.2.natAbs) 1024
def execReadPout (x : PmbXfer) (s : State) : Host.Outcome State Fault Refusal :=
  .next (s.readOnly 0x96 x 2 (fun s => s.paged 0x96 2 (fun s c => leBytes 2 (s.pout c))))

/-- A temperature reading (R274, R392): broken reads 0xF3FF. -/
def temp11 (v : Int) : Int := if 32767 ≤ v then 0xF3FF else linear11 v 128
/-- The hottest of some zones; without a zone it reads 0. -/
def State.hottest (s : State) : List (Fin 19) → Int
  | [] => 0
  | z :: zs => temp11 (zs.foldl (fun m y => max m (s.zone y).v) (s.zone z).v)
def execReadTemperature1 (x : PmbXfer) (s : State) : Host.Outcome State Fault Refusal :=
  .next (s.readOnly 0x8D x 2 (fun s => s.paged 0x8D 2 (fun s c => leBytes 2 (s.hottest (s.pageZones c)))))
def execReadTemperature2 (x : PmbXfer) (s : State) : Host.Outcome State Fault Refusal :=
  .next (s.readOnly 0x8E x 2 (fun s => s.reply 0x8E (leBytes 2 (s.hottest [0, 1, 2]))))

/-- MFR_PARAM_INDEX and MFR_PARAM_VALUE (R391, R393): any parameter in the unprivileged view. A read of a parameter of class P is refused
(R6); that it answers a block of four zero bytes and leaves STATUS_CML and DEV.PMB_LAST alone, which R395 gives to writes, is DESIGN CHOICE,
log entry 144. -/
def execMfrParamIndex (x : PmbXfer) (s : State) : Host.Outcome State Fault Refusal :=
  .next (s.transact 0xD0 x 2 (fun s => s.reply 0xD0 (leBytes 2 s.pmb.index)) (fun bs s => { s with pmb := { s.pmb with index := leNat bs } }))
def execMfrParamValue (x : PmbXfer) (live : LivePins) (s : State) : Host.Outcome State Fault Refusal :=
  .next (s.transact 0xD1 x 5
    (fun s =>
      let y := (s.latchLive live).readIndex .pmb s.pmb.index
      y.1.reply 0xD1 (block (leBytes 4 y.2.1.toNat)))
    (fun bs s => if leAt bs 0 1 ≠ 4 then s.nack else s.pmbWrite 0xD1 bs))

/-- PMBUS_TIMEOUT_RESET (R389): SCL low for 25 ms to 35 ms ends the transaction; between the two the length is the
device's own (log entry 9). -/
def execPmbusTimeoutReset (ms : Nat) (s : State) : Host.Outcome State Fault Refusal :=
  if ms < 25 then .next s
  else if 35 ≤ ms then .next s.nack
  else
    let t : State := { s with free := s.free + 1 }
    .next (if (Config.freeValue s.free).getLsbD 0 then t.nack else t)

/-- INVALID_COMMAND (R393): a command code the device does not support. -/
def execInvalidCommand (code : Byte) (s : State) : Host.Outcome State Fault Refusal :=
  if pmbCodes.contains code.toNat then .next s
  else if s.interfaces then .next s.pmbInvalid
  else .next s.nack

end Sys2Proof.Machine
end

