-- ==== Sys2Proof/Machine/RecordCommands.lean ====
section
/-!
DEFINITION. Mailbox commands over the ledger and the record store (12_host_mailbox_and_pmbus.md, R374, R378; 11 R339 to
R351; 14 R437, R438).
-/
namespace Sys2Proof.Machine

/-- An account of context 0, which the compatibility view does not reach (R481; log entry 174). -/
def State.hidesAccount (s : State) (i : Iface) (a : Nat) : Bool := s.viewOn i && decide (a < 2)
/-- The two words of an account's count, high then low (R378): account 128 is LOSS (R340). -/
def State.accountWords (s : State) (a : Nat) : List Word :=
  let v : Int := if h : a < 128 then s.live ⟨a, h⟩ else s.loss
  [BitVec.ofInt 32 (v / 4294967296), BitVec.ofInt 32 v]
/-- The class-B mark of an account (R339, R378). -/
def State.markBit (s : State) (a : Nat) : Bool := if h : a < 128 then s.mark ⟨a, h⟩ else false
/-- LEDGER_READ (R340, R378). -/
def execLedgerRead (s : State) : Host.Outcome State Fault Refusal :=
  .next (s.serve 0x30 .both (· == 2) (fun r x s =>
    let first := x.arg 1
    let n := x.arg 2
    if n < 1 ∨ 30 < n ∨ 129 < first + n then s.refused r ansRange
    else
      let marks := (List.range n).foldl (fun m k => m + flag (s.markBit (first + k) && !s.hidesAccount r.box (first + k)) k) 0
      s.answer r 0 0 ((List.range n).flatMap (fun k =>
        if s.hidesAccount r.box (first + k) then [0, 0] else s.accountWords (first + k)) ++ [word marks])))

/-- Bytes as words: byte 4j in [7:0] of word j (R378). -/
def leWords (n : Nat) (b : List Byte) : List Word := (List.range n).map (fun j => word (leAt b (4 * j) 4))
/-- The words of an open item (R345); an item that is not open is answered NO_ITEM. -/
def State.itemWords (s : State) (k : Nat) : Option (List Word) :=
  if h : k < 32 then (s.led.items[k]).map (leWords 13) else none
/-- ITEM_READ (R345, R374). -/
def execItemRead (s : State) : Host.Outcome State Fault Refusal :=
  .next (s.serve 0x31 .m1only (· == 1) (fun r x s =>
    if 31 < x.arg 1 then s.refused r ansRange
    else match s.itemWords (x.arg 1) with
      | none => s.refused r ansNoItem
      | some ws => s.answer r 0 0 ws))

/-- The first record held at or after a sequence, by serial arithmetic over 32 bits (R378, R482). -/
def firstFrom (l : List Rec) (n : Nat) : Option Rec :=
  (l.filter (fun r => serialAtOrAfter 32 r.seq n)).foldl (fun m r => match m with
    | none => some r
    | some q => if serialNewer 32 q.seq r.seq then some r else some q) none
/-- Up to k records from a sequence on. -/
def recordsFrom (l : List Rec) : Nat → Nat → List Rec
  | 0, _ => []
  | k + 1, n => match firstFrom l n with
    | none => []
    | some r => r :: recordsFrom (l.filter (fun q => decide (q.seq ≠ r.seq))) k ((r.seq + 1) % 4294967296)
/-- CAIRN_READ (R378): DETAIL is a free value where no record is returned (log entry 9). -/
def execCairnRead (s : State) : Host.Outcome State Fault Refusal :=
  .next (s.serve 0x32 .m1only (· == 2) (fun r x s =>
    let k := x.arg 2
    if k < 1 ∨ 3 < k then s.refused r ansRange
    else
      match recordsFrom s.nv.cairnRecords k (x.arg 1) with
      | [] => ({ s with free := s.free + 1 } : State).answer r 0 ((Config.freeValue s.free).toNat % 16777216) []
      | q :: qs =>
        let seqs := (q :: qs).map (·.seq)
        let s : State := { s with cairn := { s.cairn with returned := seqs ++ s.cairn.returned } }
        s.answer r 0 (q.seq % 16777216) ((q :: qs).flatMap (fun e => leWords 16 e.bytes))))

/-- CONFIG_SAVE (R435 to R437): the answer gives the records written. -/
def execConfigSave (s : State) : Host.Outcome State Fault Refusal :=
  .next (s.serve 0x33 .both (· == 0) (fun r _ s =>
    let l := s.savedPairs
    let k := s.saveRefusal l
    if k ≠ 0 then s.refused r k
    else
      let recs := s.saveRecords l
      (s.startHost recs (some r)).answer r 0 0 [word recs.length]))
/-- CONFIG_ERASE (R438): only a header, with no records. -/
def execConfigErase (s : State) : Host.Outcome State Fault Refusal :=
  .next (s.serve 0x34 .m1only (· == 0) (fun r _ s =>
    let k := s.saveRefusal []
    if k ≠ 0 then s.refused r k else (s.startHost (s.saveRecords []) (some r)).answer r 0 0 []))

/-- The 13 words of a board identity (R374); one never written has no stated words (log entry 9). -/
def State.identWords (s : State) (k : Nat) : List Word :=
  match s.nv.inForce .q3 0x33 k with
  | some q => leWords 13 q.payload
  | none => (List.range 13).map (fun j => (Config.freeValue (s.free + j)).setWidth 32)
/-- IDENT_READ (R374). -/
def execIdentRead (s : State) : Host.Outcome State Fault Refusal :=
  .next (s.serve 0x35 .both (· == 1) (fun r x s =>
    if 15 < x.arg 1 then s.refused r ansRange
    else
      let ws := s.identWords (x.arg 1)
      ({ s with free := s.free + (if (s.nv.inForce .q3 0x33 (x.arg 1)).isSome then 0 else 13) } : State).answer r 0 0 ws))
/-- IDENT_WRITE (R331, R334, R374): a BOARD_ID record in Q3. -/
def execIdentWrite (s : State) : Host.Outcome State Fault Refusal :=
  .next (s.serve 0x36 .m1only (· == 14) (fun r x s =>
    let k := x.arg 1
    if 15 < k then s.refused r ansRange
    else
      let e := s.hostRefusal .q3 (if (s.nv.inForce .q3 0x33 k).isNone then 1 else 0)
      if e ≠ 0 then s.refused r e
      else (s.startHost [(0x33, k, wordsBytes (x.args 2 13))] (some r)).answer r 0 0 []))

end Sys2Proof.Machine
end

