-- ==== Sys2Proof/Machine/Sensing.lean ====
section
/-!
DEFINITION. Rail words, shunt words and auto-zero (05_sensing_and_calibration.md R142 to R158; 06 R189; 08 R235 to R245;
11 R338).
-/
namespace Sys2Proof.Machine

/-- j of R144: the window of rail converter c holds the newest 2^j codes. -/
def windowLog (m : Nat) : Nat := if m < 7 then 1 else if m < 13 then 2 else if m < 25 then 3 else if m < 50 then 4 else 5
/-- The window word of the held codes (R144). A code that no word has brought since BOOT counts 0 (log entry 17). -/
def windowWord (m : Nat) (codes : List Nat) : Int :=
  let j := windowLog m
  (((codes.take (2 ^ j)).foldl (· + ·) 0 * 2 ^ (11 - j) : Nat) : Int)
def State.window8 (s : State) (c : CtxId) : Int := windowWord (s.ratio c) s.ctx[c].sense.codes

/-- The count of full-scale rail words, and SENSE_OPEN (R158). -/
def State.railOpen (s : State) (c : CtxId) (full : Bool) : State :=
  let n := s.ctx[c].sense.openRun
  let s := s.modCtx c (fun x => { x with sense := { x.sense with openRun := if full then n + 1 else 0, senseOpen := x.sense.senseOpen || (full && decide (n = 15)) } })
  if full && decide (n = 15) then s.declareCtx c [5] else s

/-- The sample tag of a rail word: floor((25k + 22) ÷ 16) (R15, R143). -/
def railTag (fast : Nat) : Nat := (if fast % 50 = 24 then fast - 2 else fast - 3) / 16 % 4294967296
/-- A cell's port takes a window word (R15, R17, R60): a word that no stage has used is discarded and counted. -/
def Cell.railPort (k : Cell) (w : Int) (t : Nat) : Cell :=
  { k with port := tag w, portTag := t, portUnused := true, discarded := if k.portUnused then k.discarded + 1 else k.discarded }
/-- A cell's port takes an ISW word and the raw word it was formed from (R15, R17, R60, R142, R151). -/
def Cell.iswPort (k : Cell) (w raw : Int) (t : Nat) : Cell :=
  { k with portIsw := tag w, portRaw := tag raw, iswTag := t, iswUnused := true, discarded := if k.iswUnused then k.discarded + 1 else k.discarded }

/-- A rail code joins the converter's window (R144). -/
def State.railCode (s : State) (c : CtxId) (code : Nat) : State :=
  let now := s.clk.fast
  s.modCtx c (fun x => { x with sense := { x.sense with codes := (code :: x.sense.codes).take 32, lastWord := some now } })
/-- RAIL_WORD (R15 to R17, R143, R144, R158): one word at each of its instants. -/
def execRailWord (c : CtxId) (code : BitVec 12) (err : BcastErr) (s : State) : Host.Outcome State Fault Refusal :=
  if s.converting && railInstant s.clk.fast && decide (s.ctx[c].sense.lastWord ≠ some s.clk.fast) then
    let before := s
    let s := s.railCode c code.toNat
    let w := s.window8 c
    let s := (s.toPorts c err (fun k => k.railPort w (railTag s.clk.fast))).bcast c err
    let s := match s.cal.running with
      | some (.railP1 d) => if d = c then s.calSample (.railP1 c) code.toNat else s
      | some (.railP2 d) => if d = c then s.calSample (.railP2 c) code.toNat else s
      | _ => s
    .next (before.keepStopped (s.railOpen c (decide (code.toNat = 4095))))
  else .next s

/-- ISW of a shunt word, in the Heath (R151). -/
def State.formIsw (s : State) (c : CtxId) (raw : Int) : State :=
  let k := s.ctx[c].chan
  let r := roundCarry (s.sgain c * (raw - k.sofs)) k.remIsw.v F24 v24Lo v24Hi
  s.modCtx c (fun x => { x with chan := { x.chan with isw := r.y, remIsw := tag r.r }, sense := { x.sense with iswSat := x.sense.iswSat || r.clamped } })

/-- One division of R338 on tagged counts: remainder and uncommitted count, or none where a residue check fails. -/
def ledgerStage (add : Acc) (rem u : Tagged) (d : Int) : Option (Tagged × Tagged) :=
  let a := add.add rem.acc
  if a.ok && u.ok then some (tag (a.v - a.v.fdiv d * d), tag (u.v + a.v.fdiv d)) else none
/-- Charge and energy of one word in one cell (R338), which uses the word (R17). -/
def Cell.ledger (k : Cell) : Cell :=
  let k := { k with iswUnused := false }
  let k := match ledgerStage (k.portIsw.acc.mul (accOf 64)) k.qRem k.uCharge 1000000 with
    | some (r, u) => { k with qRem := r, uCharge := u }
    | none => k.fail
  match ledgerStage (k.last.vmeas.acc.mul k.portIsw.acc) k.eRem k.uEnergy 16384000000 with
  | some (r, u) => { k with eRem := r, uEnergy := u }
  | none => k.fail
/-- The ledger accumulates from the end of BOOT until HOLDUP (R338, R339). -/
def State.ledgerStep (s : State) (c : CtxId) : State :=
  match s.dev.st with
  | .standby | .run | .safe =>
    (s.halves (fun x => x.modCell c Cell.ledger)).modCtx c (fun x =>
      { x with uMarkQ := x.uMarkQ || (x.sense.classB && decide ((s.cell c).ledger.uCharge.v ≠ (s.cell c).uCharge.v))
               uMarkE := x.uMarkE || (x.sense.classB && decide ((s.cell c).ledger.uEnergy.v ≠ (s.cell c).uEnergy.v)) })
  | _ => s

/-- The ISW words of the last millisecond (R393). -/
def Chan.msStep (k : Chan) : Chan := { k with isws := (k.isw :: k.isws).take 1000 }

/-- One ISW word and an event that waits for its confirmation, or whose window is open (R189): baseline, or threshold; with the last
word of the window it is over. w is the word's field time in 1/256 microsecond, next that of the word after it. -/
def Event.judgeWord (e : Event) (w next conf : Nat) (isw : Int) : Event :=
  if !e.entered || e.closed || e.ended then e
  else
    let t := e.t * 256 % 2 ^ 56
    let lim := (e.t + conf) * 256 % 2 ^ 56
    let base := e.isw0.getD isw
    let hit := decide (e.di = 0) || decide ((e.di.natAbs : Int) / 2 ≤ sgn e.di * (isw - base))
    let e :=
      if e.confirmed then e
      else if !(serialNewer 56 w t) then { e with isw0 := some isw }
      else if serialAtOrAfter 56 lim w && hit then
        { e with confirmed := true, confTime := if e.di = 0 then 0 else (serialDist 48 (w / 256) e.t) }
      else e
    if serialNewer 56 next lim then (if e.confirmed then { e with closed := true } else { e with lastHere := true }) else e
/-- The field time broadcast with the tag of the next shunt word, 400 fast ticks on (R143, R189). -/
def State.nextIswWord (s : State) : Nat := ((s.ft.ftTag + 400 * s.ft.rate) % 2 ^ 88) / 2 ^ 32
/-- Events and an ISW word, as it stands at the cells' ports (R16, R189). -/
def State.confirmStep (s : State) (c : CtxId) : State :=
  if s.ctx[c].sched.events.isEmpty && s.ctx[c].sched.windows.isEmpty then s
  else
    let w := s.ftWord
    let n := s.nextIswWord
    let conf := (s.cp c .schConf).toNat
    let isw := (s.cell c).portIsw.v
    s.modSched c (fun x =>
      { x with
        events := x.events.map (fun e => e.judgeWord w n conf isw)
        windows := x.windows.filter (fun l => !serialNewer 56 n (l * 256)) })

/-- The rail side in V24 codes (R235). -/
def State.vUp (s : State) (c : CtxId) : Int := (s.vgain c * s.window8 c + s.voff c * F24).fdiv F24
/-- The current limit, and whether the ICMD bound is the smaller term (R203, R235). -/
def State.iLim (s : State) (c : CtxId) : Int × Bool :=
  let k := s.ctx[c].chan
  let vds := max (s.vUp c - k.vs) 16384
  let base := min (s.cp c .ilimMax) ((s.cp c .pSet * 4194304).fdiv vds)
  if decide (c.val ≠ 0) && s.ctx[c].mode.passInForce && s.ctx[c].inE modeCurrent then
    (min base (s.cp c .icmd), decide (s.cp c .icmd < base))
  else (base, false)

/-- The gate current of a word in microamperes, numerator and denominator, for the source current igs, and whether the channel is
limiting (R236). -/
def gateLoop (igs isw ilim : Int) : (Int × Nat) × Bool :=
  if ilim ≤ 0 then ((-4 * igs, 1), true)
  else
    let n := 16 * (ilim - isw)
    let lim := decide (15 * ilim < 16 * isw)
    if ilim ≤ n then ((igs, 1), lim) else if n ≤ -4 * ilim then ((-4 * igs, 1), lim) else ((igs * n, ilim.toNat), lim)

/-- LIMITING and the gate current of a word, in the state that the channel had at the start of its fast tick: in FAULT by another cause
of that tick the gate stays off (R236, R245). -/
def Chan.drive (k : Chan) (g : (Int × Nat) × Bool) : Chan :=
  if k.st = .fault then { k with faultLim := g.2, gate := (0, 1), limiting := false } else { k with gate := g.1, limiting := g.2 }
/-- ON entry (R238). -/
def Chan.enterOn (k : Chan) : Chan :=
  let k := { k with foldTimer := 0, calm := 0 }
  if k.st = .fault then { k with faultFrom := .on } else { k with st := .on }
/-- Gate loop, insertion timers, proof and ON entry of a word at an instant (R236 to R238, R241), by the state of before a cause of the
same fast tick (R245). -/
def Chan.loopStep (k : Chan) (igs ilim : Int) (bound : Bool) (now : Nat) : Chan :=
  let g := gateLoop igs k.isw ilim
  let calm := if g.2 then 0 else k.calm + 1
  match k.stateOf now with
  | .starting =>
    let k := { k.drive g with calm := calm, insTimer := k.insTimer + 1, proven := k.proven || decide (2 ≤ k.vgs.val) }
    if k.vgs.val = 3 ∧ 8 ≤ calm then k.enterOn else k
  | .on =>
    let fold := if g.2 && !bound then k.foldTimer + 1 else k.foldTimer
    { k.drive g with calm := calm, foldTimer := if 1000 ≤ calm then 0 else fold }
  | _ => { k with gate := (0, 1), limiting := false }

/-- The recorded cause is declared at the first word after the gate is off, GATE_STUCK after its check (R245). -/
def State.declareCause (s : State) (c : CtxId) : State :=
  let k := s.ctx[c].chan
  match k.toDeclare with
  | some q =>
    if k.vgs = 0 ∨ (q = .gateStuck ∧ k.stuckSeen = true) then
      (s.modChan c (fun k => { k with toDeclare := none, stuckSeen := false })).declareChan c q.cls
    else s
  | none => s

/-- The count of full-scale shunt words of an on channel whose threshold lies below 100 mV (R158, R239). Where another cause of the same
fast tick has taken the channel to FAULT, SENSE_SHUNT, the last in the order, sets its flag alone (R245). -/
def State.shuntOpen (s : State) (c : CtxId) (full : Bool) : State :=
  let k := s.ctx[c].chan
  let hit := full && decide (k.stateOf s.clk.time = .on) && decide (s.cp c .trip < 170)
  let n := k.openRun
  let s := s.modChan c (fun k => { k with openRun := if hit then n + 1 else 0 })
  if hit && decide (n = 7) then
    let s := s.modCtx c (fun x => { x with sense := { x.sense with senseOpen := true } })
    if k.st = .fault then s else s.declareChan c 12
  else s
/-- SENSE_SHUNT by the auto-zero limit is declared at the first shunt word after it (R157, R245). -/
def State.declareZero (s : State) (c : CtxId) : State :=
  if s.ctx[c].chan.senseDue then (s.modChan c (fun k => { k with senseDue := false })).declareChan c 12 else s

/-- The gate of the channel is off (R157, R244). -/
def Chan.isOff (k : Chan) : Bool :=
  decide (k.vgs = 0) && (match k.st with
    | .starting | .on | .stopping => false
    | _ => true)

/-- A word of the shunt's zeroing window (R157). -/
def State.zeroStep (s : State) (c : CtxId) (raw : Int) : State :=
  let k := s.ctx[c].chan
  let first := decide (s.tag32 % 2500000 < 25)
  let off := k.isOff
  match k.zeroRun with
  | some (n, v) =>
    if n < 64 then
      if off then s.modChan c (fun k => { k with zeroRun := some (n + 1, v + raw) })
      else (s.modChan c (fun k => { k with zeroRun := none, zeroMissed := k.zeroMissed + 1 })).modCtx c
        (fun x => { x with sense := { x.sense with azAbort := true } })
    else s
  | none =>
    if first then
      if off && decide (k.offSince + msTicks ≤ s.clk.time) then s.modChan c (fun k => { k with zeroRun := some (1, raw) })
      else s.modChan c (fun k => { k with zeroMissed := k.zeroMissed + 1 })
    else s

/-- What a shunt word does once its ISW stands (R189, R235 to R245, R338). -/
def State.shuntStep (s : State) (c : CtxId) (code : Nat) (raw : Int) : State :=
  let s := (s.ledgerStep c).confirmStep c
  let l := s.iLim c
  let igs := gateSource (s.cp c .gateSrc)
  let now := s.clk.time
  let s := s.modChan c (fun k => k.msStep.loopStep igs l.1 l.2 now)
  let s := ((s.declareCause c).declareZero c).shuntOpen c (decide (code = 4095))
  let s := match s.cal.running with
    | some (.shuntGain d) => if d = c then s.calSample (.shuntGain c) code else s
    | _ => s
  s.zeroStep c raw

/-- SHUNT_WORD (R142, R143, R151, R189, R235 to R245, R338): one word at each of its instants, fast tick 400k + 168. -/
def execShuntWord (c : CtxId) (code : BitVec 12) (vs : BitVec 12) (vgs : Fin 4) (err : BcastErr) (s : State) :
    Host.Outcome State Fault Refusal :=
  if s.converting && decide (s.clk.fast % 400 = 168) && decide (s.ctx[c].chan.lastWord ≠ some s.clk.fast) then
    let raw : Int := code.toNat * 2048
    let now := s.clk.fast
    let t := (s.modChan c (fun k => { k with vs := vs.toNat * 1024, vgs := vgs, lastWord := some now })).formIsw c raw
    let isw := t.ctx[c].chan.isw
    let n := s.tag32
    let t := (t.toPorts c err (fun k => k.iswPort isw raw n)).bcast c err
    .next (s.keepStopped (State.signalResidue t (t.shuntStep c code.toNat raw) c))
  else .next s

/-- A phase's fault is released (R261, R381). -/
def State.releaseImon (s : State) (p : PhaseId) : State :=
  if s.ph[p].unavImon && !s.ph[p].imonNow then
    let s := s.modPh p (fun x => { x with unavImon := false })
    if (s.hph p).bind.val = 0 then s else s.releasedEvent (s.hph p).bind 6
  else s

/-- A window that gives no offset counts as one more in which the phase was not zeroed (R154, R156). -/
def PhaseS.azFailed (x : PhaseS) : PhaseS :=
  { x with azRun := none, azMissed := if x.offsetValid then x.azMissed + 1 else x.azMissed,
           azStale := x.azStale || (x.offsetValid && decide (600 ≤ x.azMissed + 1)) }

/-- A half's OFFSET at the end of a window (R153): the sum passes its accumulate check, or the offset stands (R61, R62). -/
def Half.azStore (x : Half) (p : PhaseId) : Half :=
  let h := x.ph[p]
  if h.azSum.ok then x.modPh p (fun h => { h with offset := tag (h.azSum.v / 64), azSum := {} }) else x.modCell h.bind Cell.fail
/-- The new offset of a phase in force in both halves, and valid (R154). -/
def State.azTake (s : State) (p : PhaseId) : State :=
  let t := (s.halves (fun x => x.azStore p)).modPh p (fun x => { x with azRun := none, offsetValid := true, azMissed := 0, azStale := false })
  (State.signalResidue s t (s.hph p).bind).releaseImon p
/-- AUTO_ZERO (R153 to R156): at the tag after a phase's window; the limit is judged on the serving half's sum. -/
def execAutoZero (p : PhaseId) (s : State) : Host.Outcome State Fault Refusal :=
  if s.ph[p].azRun = some 64 ∧ 64 ≤ s.tag32 % 250000 then
    if 43 * 64 * 16384 < (s.hph p).azSum.v.natAbs then .next ((s.modPh p PhaseS.azFailed).imonFault p) else .next (s.azTake p)
  else .next s

/-- SHUNT_AUTO_ZERO (R157): the end of a channel's window; a broken limit is declared at the next shunt word (R245). -/
def execShuntAutoZero (c : CtxId) (s : State) : Host.Outcome State Fault Refusal :=
  match s.ctx[c].chan.zeroRun with
  | some (64, v) =>
    if 64 * 64 * 2048 < v then
      .next (((s.modChan c (fun k => { k with zeroRun := none, zeroMissed := k.zeroMissed + 1, zeroFault := true, senseDue := true })).modCtx c
        (fun x => { x with sense := { x.sense with senseOpen := true } })))
    else .next (s.modChan c (fun k => { k with zeroRun := none, sofs := v / 64, zeroed := true, zeroMissed := 0, zeroFault := false }))
  | _ => .next s

end Sys2Proof.Machine
end

