-- ==== Sys2Proof/Machine/Session.lean ====
section
/-!
DEFINITION. Privileged sessions (12_host_mailbox_and_pmbus.md, R383, R384) and the code-flash commands (R379).
-/
namespace Sys2Proof.Machine

/-- Ten seconds of Heath fast ticks (R383, R384). -/
def tenSeconds : Nat := 10 * sTicks

/-- The session ends with its event (R381, R384): M1 slots and credits stay where they are. -/
def State.endSession (s : State) (reason : Nat) : State :=
  if s.mb.session then
    ({ s with mb := { s.mb with session := false }, cairn := { s.cairn with returned := [] } } : State).event srcIface.val evSessionEnd (word reason) 0
  else s
/-- A session opens (R178, R384, R425): an open one ends first. -/
def State.openSession (s : State) : State :=
  let s := s.endSession 3
  { s with mb := { s.mb with session := true, openedAt := s.clk.time, failures := 0 }
           cairn := { s.cairn with returned := [] }
           ft := { s.ft with latchM1 := none }
           ctx := every s.ctx (fun _ x => { x with selM1 := 0 }) }

/-- The lockout after three failures still holds (R383). -/
def State.lockedOut (s : State) : Bool := match s.mb.lockout with
  | none => false
  | some t => decide (s.clk.time < t + tenSeconds)
/-- The words of a nonce (R383). -/
def nonceWords (n : Nat) : List Word := (List.finRange 8).map (fun j => Config.nonce n j)
/-- AUTH_CHALLENGE (R383): the manual gives no numbering of challenges, so N is a free value (log entry 9). -/
def execAuthChallenge (s : State) : Host.Outcome State Fault Refusal :=
  .next (s.serve 0x40 .m0only (· == 0) (fun r _ s =>
    if s.lockedOut then s.refused r ansState
    else
      let n : Word := (Config.freeValue s.free).setWidth 32
      let k := s.mb.challenges
      let s : State := { s with mb := { s.mb with challenge := some (n.toNat, s.clk.time), challenges := k + 1 }, free := s.free + 1 }
      s.answer r 0 0 (nonceWords k ++ [n, Config.serialHi, Config.serialLo])))

/-- The MAC of a challenge (R383): nonce, serial and N, most significant byte first. -/
def State.mac (s : State) (n : Nat) : List Byte :=
  let ws := nonceWords (s.mb.challenges - 1) ++ [Config.serialHi, Config.serialLo, word n]
  hmacSha256 ((List.finRange 8).flatMap (fun j => beBytes 4 (Config.sessionKey j).toNat)) (ws.flatMap (fun w => beBytes 4 w.toNat))
/-- A response proves the session key (R383). -/
def State.authOk (s : State) (n : Nat) (mac : List Word) : Bool :=
  match s.mb.challenge with
  | none => false
  | some (m, t) => decide (m = n) && decide (s.clk.time < t + tenSeconds) && decide (mac.flatMap (fun w => beBytes 4 w.toNat) = s.mac n)
/-- A failed response (R381, R383): every third in a row locks AUTH_CHALLENGE. -/
def State.authFailed (s : State) (n : Word) : State :=
  let f := s.mb.failures + 1
  let s : State := { s with mb := { s.mb with failures := f, lockout := if f % 3 = 0 then some s.clk.time else s.mb.lockout } }
  s.event srcIface.val evAuthFailed n (word f)
/-- AUTH_RESPONSE (R383): the challenge is used up whatever the outcome. -/
def execAuthResponse (s : State) : Host.Outcome State Fault Refusal :=
  .next (s.serve 0x41 .m0only (· == 9) (fun r x s =>
    let ok := s.authOk (x.arg 1) (x.args 2 8)
    let s : State := { s with mb := { s.mb with challenge := none } }
    if ok then s.openSession.answer r 0 0 [] else (s.authFailed (x.argW 1)).refused r ansAuth))
/-- AUTH_LOCKOUT_END (R383): the 10 s are over. -/
def execAuthLockoutEnd (s : State) : Host.Outcome State Fault Refusal :=
  if s.mb.lockout.isSome && !s.lockedOut then .next { s with mb := { s.mb with lockout := none } } else .next s

/-- SESSION_END (R384). -/
def execSessionEnd (s : State) : Host.Outcome State Fault Refusal :=
  .next (s.serve 0x42 .m1only (· == 0) (fun r _ s => (s.endSession 2).answer r 0 0 []))
/-- SESSION_TIMEOUT (R384): 10 s without an accepted M1 DOORBELL. -/
def execSessionTimeout (s : State) : Host.Outcome State Fault Refusal :=
  if max s.mb.openedAt s.mb.lastM1 + tenSeconds ≤ s.clk.time then .next (s.endSession 1) else .next s

/-- The words of a bank are programmed, one after another. -/
def Summit.programRun (x : Summit) (b : Bool) : List Word → Nat → Summit
  | [], _ => x
  | w :: ws, j => (x.program b j w).programRun b ws (j + 1)
/-- FLASH_WRITE (R379): the bank of the current shadow. -/
def execFlashWrite (s : State) : Host.Outcome State Fault Refusal :=
  .next (s.serve 0x50 .m1only (fun n => decide (2 ≤ n)) (fun r x s =>
    let a := x.arg 1
    let n := x.arg 2
    if x.narg ≠ n + 2 then s.refused r ansBadCommand
    else if n < 1 ∨ 60 < n ∨ a % 4 ≠ 0 then s.refused r ansRange
    else match s.shadow with
      | none => s.answer r ansState 7 []
      | some h =>
        let b := bankOf h
        if flashBytes < a + 4 * n then s.refused r ansRange
        else if (List.range n).any (fun k => s.sum.programmed b (a / 4 + k)) then s.refused r ansState
        else ({ s with sum := (s.sum.programRun b (x.args 3 n) (a / 4)).invalidate b } : State).answer r 0 0 []))
/-- FLASH_READ (R374): words from a byte offset of a bank. -/
def execFlashRead (s : State) : Host.Outcome State Fault Refusal :=
  .next (s.serve 0x51 .m1only (· == 3) (fun r x s =>
    let a := x.arg 2
    let n := x.arg 3
    if 1 < x.arg 1 ∨ n < 1 ∨ 60 < n ∨ flashBytes < a + 4 * n then s.refused r ansRange
    else s.answer r 0 0 ((List.range n).map (fun k => word (leNat (s.sum.flashRead (decide (x.arg 1 = 1)) (a + 4 * k) 4))))))

end Sys2Proof.Machine
end

