-- ==== Sys2Proof/Machine/Spi.lean ====
section
/-!
DEFINITION. SPI frames of the mailbox (12_host_mailbox_and_pmbus.md, R362 to R371, R380, R384 to R388). A row names the
operation of its frame; FRAMING brings any header.
-/
namespace Sys2Proof.Machine

/-- Violation codes of R387. -/
def vFraming : Nat := 1
def vLength : Nat := 2
def vCrc : Nat := 3
def vBadField : Nat := 4
def vBusy : Nat := 5
def vSlotState : Nat := 6
def vNoSession : Nat := 7
def vPopMismatch : Nat := 8
def vSeqGap : Nat := 9
def vStoreBusy : Nat := 0xA

/-- Fields of a header word (R365). -/
def hdrOp (h : Word) : Nat := h.toNat / 268435456
def hdrMb (h : Word) : Nat := h.toNat / 67108864 % 4
def hdrSlot (h : Word) : Fin 4 := ⟨h.toNat / 16777216 % 4, by omega⟩
def hdrLen (h : Word) : Nat := h.toNat / 65536 % 256
def hdrSeq (h : Word) : Nat := h.toNat % 65536
/-- The slot a header names. -/
def hdrReq (h : Word) : Req := { box := if hdrMb h = 1 then .m1 else .m0, slot := hdrSlot h }

/-- A header that is valid for no layout (R365, R387). -/
def badField (h : Word) : Bool :=
  let op := hdrOp h
  let mb := hdrMb h
  let len := hdrLen h
  decide (op < 1) || decide (4 < op) || decide (mb = 2)
    || (decide (mb = 3) && (decide (op ≠ 4) || decide ((hdrSlot h).val ≠ 0)))
    || ((decide (op = 1) || decide (op = 2)) && (decide (len < 1) || decide (64 < len)))
    || (decide (op = 3) && (decide (len < 1) || decide (16 < len) || decide (2 ≤ (hdrSlot h).val)))
    || (decide (op = 4) && decide (mb ≠ 3) && decide (len ≠ 0))
/-- Words of a frame's layout (R363). -/
def layoutWords (h : Word) : Nat :=
  match hdrOp h with
  | 1 => hdrLen h + 2
  | 2 | 3 => hdrLen h + 3
  | _ => 2

def SlotState.num : SlotState → Nat
  | .empty => 0
  | .loaded => 1
  | .busy => 2
  | .done => 3
/-- A bit per slot of a mailbox. -/
def slotBits (v : Vector Slot64 4) (w : Nat) (f : Slot64 → Nat) : Nat := (List.finRange 4).foldl (fun n k => n + f v[k] * 2 ^ (w * k.val)) 0
/-- The status word (R364). -/
def State.statusWord (s : State) : Word :=
  let m := s.mb
  let done (x : Slot64) : Nat := if x.st = .done then 1 else 0
  word (m.seqEcho % 256 + 256 * (m.events.length % 256) + 65536 * slotBits m.m0 1 done + 1048576 * slotBits m.m1 1 done
    + flag m.ferr 24 + flag (!m.events.isEmpty) 25 + flag m.session 26 + flag s.busy 27 + 268435456 * s.dev.st.num)

/-- Milliseconds since the later of the session's opening and the last accepted M1 DOORBELL (R384, R388). -/
def State.sessionMs (s : State) : Nat :=
  if s.mb.session then min 10000 ((s.clk.time - max s.mb.openedAt s.mb.lastM1) / msTicks) else 10000
/-- The words of an event entry (R381). -/
def EvEntry.words (e : EvEntry) : List Word := [word (65536 * e.eseq + 256 * e.code + e.source), word e.ftime, e.a, e.b]
/-- Credits of a mailbox that host software holds: one for every slot that is not BUSY (R370, R388). -/
def credits (v : Vector Slot64 4) : Nat := ((List.finRange 4).filter (fun k => decide (v[k].st ≠ .busy))).length
/-- Hardware register H:k (R388). -/
def State.hwReg (s : State) (k : Nat) : Word :=
  let m := s.mb
  match k with
  | 0 => word (0x63960001 + 256 * (Config.siliconRev.toNat % 256))
  | 1 => word (slotBits m.m0 2 (fun x => x.st.num) + 256 * slotBits m.m1 2 (fun x => x.st.num))
  | 2 => word (credits m.m0 + 16 * credits m.m1)
  | 3 => word (m.violCount % 65536 + 65536 * (m.violHseq % 256) + 16777216 * m.violCode)
  | 4 => word (s.sessionMs + flag m.session 31)
  | 5 => word (256 * m.events.length + 65536 * ((m.events.head?.map (·.eseq)).getD 0))
  | 0x10 | 0x11 | 0x12 | 0x13 => match m.events with
    | [] => 0
    | e :: _ => e.words.getD (k - 0x10) 0
  | _ => 0

/-- A slot whose words a READ_SLOT may return (R368, R369, R384). -/
def State.slotReadable (s : State) (r : Req) : Bool :=
  let st := (s.mb.slot r).st
  !s.busy && (decide (r.box ≠ .m1) || s.mb.session) && (decide (st = .loaded) || decide (st = .done))
/-- The MISO words of a layout between status word and device CRC (R363). A READ_SLOT that may not read its slot returns
free values (log entry 9). -/
def State.misoData (s : State) (h : Word) : List Word :=
  let n := hdrLen h
  match hdrOp h with
  | 1 => List.replicate n 0
  | 2 =>
    let x := s.mb.slot (hdrReq h)
    word x.st.num :: (List.range n).map (fun j =>
      if s.slotReadable (hdrReq h) then (if j < x.written then x.words.toList.getD j 0 else 0) else (Config.freeValue (s.free + j)).setWidth 32)
  | 3 => 0 :: (List.range n).map (fun j => s.hwReg (16 * (hdrSlot h).val + j))
  | _ => []
/-- The MISO words of a frame of n words (R363). -/
def State.misoWords (s : State) (h : Word) (n : Nat) : List Word :=
  let st := s.statusWord
  let all := if badField h then [st] else let l := st :: s.misoData h; l ++ [crcWords l]
  (List.range n).map (fun k => all.getD k 0)

/-- The first violation of a frame after STORE_BUSY, by the order of R387; 0 for none. -/
def State.violation (s : State) (h : Word) (f : SpiFrame) : Nat :=
  let r := hdrReq h
  let st := (s.mb.slot r).st
  let op := hdrOp h
  let dev := decide (hdrMb h = 3)
  firstRefusal [(decide (f.tail ≠ 0), vFraming), (badField h, vBadField), (decide (1 + f.rest.length ≠ layoutWords h), vLength),
    (decide (f.rest.getLast? ≠ some (crcWords (h :: f.rest.dropLast))), vCrc), (s.busy && decide (op ≠ 3), vBusy),
    (decide (op ≠ 3) && decide (hdrMb h = 1) && !s.mb.session, vNoSession),
    (decide (op = 1) && decide (st = .busy), vSlotState), (decide (op = 2) && decide (st ≠ .loaded) && decide (st ≠ .done), vSlotState),
    (decide (op = 4) && !dev && decide (st ≠ .loaded), vSlotState),
    (dev && decide (s.mb.events.head?.map (fun e => e.eseq % 256) ≠ some (hdrLen h)), vPopMismatch)]

/-- A violation is recorded (R387). -/
def State.violated (s : State) (v : Nat) (hseq : Nat) : State :=
  let m := s.mb
  let s : State := { s with mb := { m with ferr := true, violCode := v, violHseq := hseq % 256, violCount := (m.violCount + 1) % 65536 } }
  if v = vSeqGap ∨ v = vStoreBusy then s else s.summaryFree srcIface (word v)

/-- What an accepted frame does (R367, R369, R370, R380). A DOORBELL goes before the PMBus writes of its own fab cycle (R372). -/
def State.acceptFrame (s : State) (h : Word) (f : SpiFrame) : State :=
  let r := hdrReq h
  let now := s.clk.time
  match hdrOp h with
  | 1 => { s with mb := s.mb.modSlot r (fun _ => { st := .loaded, words := words64 (f.rest.take (hdrLen h)), written := hdrLen h, unread := false }) }
  | 2 => { s with mb := s.mb.modSlot r (fun x => { x with unread := false }) }
  | 4 =>
    if hdrMb h = 3 then { s with mb := { s.mb with events := s.mb.events.drop 1 } }
    else
      let m := s.mb.modSlot r (fun x => { x with st := .busy })
      let q := m.queue
      let k := q.length - (s.pmb.jobs.filter (fun j => decide (j.fab = s.fab))).length
      { s with mb := { m with queue := q.take k ++ r :: q.drop k, lastM1 := if r.box = .m1 then now else m.lastM1 } }
  | _ => s

/-- A frame that no violation discards: its sequence is echoed, and a gap is logged (R364, R387). -/
def State.frameOk (s : State) (h : Word) (f : SpiFrame) : State :=
  let gap := match s.mb.lastHseq with
    | none => false
    | some q => decide (hdrSeq h ≠ (q + 1) % 65536)
  let s := s.acceptFrame h f
  let s : State := { s with mb := { s.mb with ferr := false, seqEcho := hdrSeq h % 256, lastHseq := some (hdrSeq h) } }
  if gap then s.violated vSeqGap (hdrSeq h) else s

/-- One SPI frame with header word h (R362 to R368, R385): what MISO carries, and what the device does at its end. -/
def State.spi (s : State) (h : Word) (f : SpiFrame) : State :=
  let n := 1 + f.rest.length
  let out (s : State) (l : List Word) : State := { s with mb := { s.mb with miso := l } }
  if s.dev.st = .cold ∨ (s.dev.st = .boot ∧ s.dev.drivers = false) then out s (List.replicate n Config.undrivenMiso)
  else if s.dev.st = .holdup then out s (List.replicate n 0xFFFFFFFF)
  else if s.silent then (out s (List.replicate n 0xFFFFFFFF)).violated vStoreBusy (hdrSeq h)
  else
    let l := s.misoWords h n
    let v := s.violation h f
    let free := if hdrOp h = 2 ∧ s.slotReadable (hdrReq h) = false then s.free + hdrLen h else s.free
    let s : State := { out s l with free := free }
    if v = 0 then s.frameOk h f else s.violated v (hdrSeq h)

/-- The header word of a row: its operation above the other fields (R365). -/
def rowHeader (op : Nat) (f : SpiFrame) : Word := word (268435456 * op + f.hdr.toNat)

/-- WRITE_SLOT (R369). -/
def execWriteSlot (f : SpiFrame) (s : State) : Host.Outcome State Fault Refusal := .next (s.spi (rowHeader 1 f) f)
/-- READ_SLOT (R369, R382). -/
def execReadSlot (f : SpiFrame) (s : State) : Host.Outcome State Fault Refusal := .next (s.spi (rowHeader 2 f) f)
/-- READ_STATUS (R388). -/
def execReadStatus (f : SpiFrame) (s : State) : Host.Outcome State Fault Refusal := .next (s.spi (rowHeader 3 f) f)
/-- DOORBELL (R370, R372, R384). -/
def execDoorbell (f : SpiFrame) (s : State) : Host.Outcome State Fault Refusal := .next (s.spi (rowHeader 4 f) f)
/-- EVENT_POP (R380): a DOORBELL frame to the device. -/
def execEventPop (f : SpiFrame) (s : State) : Host.Outcome State Fault Refusal := .next (s.spi (rowHeader 4 f) f)
/-- FRAMING (R367, R387): a frame with any header, such as one of no defined operation or one cut inside a word. -/
def execFraming (header : Word) (f : SpiFrame) (s : State) : Host.Outcome State Fault Refusal := .next (s.spi header f)

/-- MB_IRQ is low (R382). -/
def State.mbIrqLow (s : State) : Bool :=
  !s.mb.events.isEmpty || (List.finRange 4).any (fun k => (decide (s.mb.m0[k].st = .done) && s.mb.m0[k].unread)
    || (decide (s.mb.m1[k].st = .done) && s.mb.m1[k].unread))

end Sys2Proof.Machine
end

