-- ==== Sys2Proof/Machine/Summit.lean ====
section
/-!
DEFINITION. Binding-table scrub and token check (01 R19, 04 R134), comparison of the halves, summit moves,
resynchronization and supervisor watchdogs (10_summit_and_failover.md, R287 to R303).
-/
namespace Sys2Proof.Machine

/-- What one scrub finds of a pair of words, beside the word that the other half's table holds (R19): the pair it leaves, corrections made, a rewrite for the Cairn, and
whether the half loses its tables. -/
structure ScrubOut where
  a : CtxId × Ecc
  b : CtxId × Ecc
  fixes : Nat
  rewrite : Bool
  lost : Bool
deriving DecidableEq, Repr
def fixOf : Ecc → Nat
  | .single => 1
  | _ => 0
def scrubPair (a b other : CtxId × Ecc) : ScrubOut :=
  match a.2, b.2 with
  | .double, .double => ⟨a, b, 0, false, true⟩
  | .double, _ => ⟨(b.1, .ok), (b.1, .ok), 1 + fixOf b.2, true, false⟩
  | _, .double => ⟨(a.1, .ok), (a.1, .ok), 1 + fixOf a.2, true, false⟩
  | _, _ =>
    let n := fixOf a.2 + fixOf b.2
    if a.1 = b.1 then ⟨(a.1, .ok), (b.1, .ok), n, false, false⟩
    else if other.2 ≠ .double ∧ (a.1 = other.1 ∨ b.1 = other.1) then ⟨(other.1, .ok), (other.1, .ok), n, false, false⟩
    else ⟨(a.1, .ok), (b.1, .ok), n, false, true⟩

/-- The scrub of every word of a half's tables. -/
def State.scrubTables (s : State) (h : HalfId) : Vector ScrubOut 96 :=
  let x := s.sum.half h
  let y := s.sum.half h.other
  Vector.ofFn (fun p : PhaseId => scrubPair x.bindA[p] x.bindB[p] (bindRead y.bindA[p] y.bindB[p]))

/-- BINDING_TABLE_SCRUB (R19, R288). -/
def execBindingTableScrub (h : HalfId) (s : State) : Host.Outcome State Fault Refusal :=
  let r := s.scrubTables h
  let fixes := phaseIds.foldl (fun n p => n + r[p].fixes) 0
  let rewrites := phaseIds.filter (fun p => r[p].rewrite)
  let lost := phaseIds.any (fun p => r[p].lost)
  let s := s.modHs h (fun x => { x with bindA := every r (fun _ o => o.a), bindB := every r (fun _ o => o.b),
                                        scrub := min (x.scrub + fixes) 0xFFFFFFFF })
  let s := rewrites.foldl (fun s p => s.summaryFree (srcHalf h) (word p.val)) s
  .next (if lost then s.attribError h (fun x => { x with attribErr := true }) else s)

/-- A change of OWNER may stand in a half where R22 has brought it: with the releasing context until its boundary after the change, and
while the Spur ends its pulse; then in the free pool, until the acquiring context's boundary after the parking. -/
def State.underWay (s : State) (h : HalfId) (p : PhaseId) : Bool :=
  let x := (s.half h).ph[p]
  let y := s.ph[p]
  let past (c : CtxId) (t : Nat) : Bool := (s.ctx[c].lastDone.map (fun u => decide (t < u))).getD false
  y.moving &&
    (if x.bind.val = 0 then !past (s.ownerOf p) (max y.movedTag (x.parkedTag.getD 0))
     else decide (x.bind = y.heldBy) && (x.leaving || !past y.heldBy y.movedTag))
/-- A half's binding of a Spur is not what R134 compares it with: OWNER, or while a change of R22 is under way the holder of its token
(DEDUCED, log entry 30). -/
def State.misbound (s : State) (h : HalfId) (p : PhaseId) : Bool :=
  !s.follower p && decide ((s.half h).ph[p].bind ≠ s.ownerOf p) && !s.underWay h p
/-- Tokens of a holder: those of a joined pair are with its lead (R112, R134). A Spur has one binding, so the total is 96. -/
def State.tokensOf (s : State) (c : CtxId) : Nat :=
  (phaseIds.filter (fun p => decide ((s.hph (if s.follower p then pairLead p else p)).bind = c))).length
def State.freeTokens (s : State) : Nat := s.tokensOf 0
/-- A change of OWNER has been carried out in both halves (R22). -/
def State.settledOwner (s : State) (p : PhaseId) : Bool :=
  decide (s.east.ph[p].bind = s.ownerOf p) && decide (s.west.ph[p].bind = s.ownerOf p)
/-- Spurs bound alike in both halves against OWNER are parked in the free pool (R134). -/
def State.unbind (s : State) (ps : List PhaseId) : State :=
  let t := s.enables
  let f (h : HPhase) : HPhase := { h with state := .unbound, bind := 0, pulse := none, leaving := false, parkedTag := some t }
  let s := s.halves (fun x => x.modList ps f)
  ps.foldl (fun s p => s.modPh p (fun x => { x with forced := true })) s

/-- The token check (R134, R140, R288). Where both halves disagree with OWNER, each in its own way, the table Token check has no row: each
is marked as a half that disagrees alone, and TOKEN_ERR stays as it is. A check that finds a mismatch adds 1 to TOKEN_ERR_COUNT, however
many Spurs it finds: DESIGN CHOICE, log entries 160 and 161. -/
def State.checkTokens (s : State) : Host.Outcome State Fault Refusal :=
  let s := s.settle phaseIds
  let s : State := { s with ph := every s.ph (fun p x => { x with moving := x.moving && !s.settledOwner p }) }
  let e := phaseIds.filter (s.misbound .east)
  let w := phaseIds.filter (s.misbound .west)
  let same := e.all (fun p => decide (s.east.ph[p].bind = s.west.ph[p].bind)) && decide (e = w)
  let s : State := { s with tokFree := s.freeTokens }
  if e.isEmpty && w.isEmpty then .next s
  else
    let s : State := { s with tokCount := capInc s.tokCount 0xFFFF }
    if same then
      let s := ({ s with tokErr := true } : State).unbind e
      .next ((s.event 0xFF evTokenErr s.tokenWord 0).summary srcHeath evTokenErr 0xFF none s.tokenWord)
    else
      let s := if e.isEmpty then s else s.attribError .east (fun x => { x with attribErr := true })
      .next (if w.isEmpty then s else s.attribError .west (fun x => { x with attribErr := true }))

/-- TOKEN_CHECK (R134): at sample tags that are multiples of 25,000. -/
def execTokenCheck (s : State) : Host.Outcome State Fault Refusal :=
  if s.clk.synced && decide (s.tag32 % 25000 = 0) then s.checkTokens else .next s

/-- The streams of the tag before differ: edge words, or the state of a phase at its first fast tick (R287). -/
def State.streamsDiffer (s : State) : Bool := decide (s.east.prevEdges ≠ s.west.prevEdges) || decide (s.east.prevFirst ≠ s.west.prevFirst)

/-- A tag begins: the stream of the tag before closes, and the phase states of this first fast tick stand (R287). -/
def Half.mark (x : Half) : Half :=
  { x with prevFirst := x.first, first := every x.ph (fun _ h => h.state), prevEdges := x.edges, edges := [] }
/-- What a resynchronization does as a tag begins (R302): the copy 48 tags after its start, and then the comparison of eight tags,
each of which is complete in the tag after it. -/
def State.resyncStep (s : State) (h : HalfId) : State :=
  match (s.sum.half h).resyncTag with
  | none => s
  | some t =>
    if s.enables = t + 48 then (if s.holder = some h.other then s.copyHalf h else s)
    else if t + 50 ≤ s.enables ∧ s.enables ≤ t + 57 ∧ s.streamsDiffer = true then s.modHs h (fun x => { x with resyncBad := true })
    else s
/-- The first fast tick of a tag (R287, R302). -/
def State.markTag (s : State) : State := (((s.settle phaseIds).halves Half.mark).resyncStep .east).resyncStep .west

/-- HALF_COMPARISON (R287, R289): in tag T + 1 the streams of tag T are compared while both halves are eligible; a difference opens
the judgement of a disagreement at T, unless one is open. -/
def execHalfComparison (s : State) : Host.Outcome State Fault Refusal :=
  let diff := s.sum.east.eligible && s.sum.west.eligible && s.streamsDiffer && decide (0 < s.enables)
  let t := s.enables - 1
  .next (if diff && s.sum.disagreeTag.isNone then { s with sum := { s.sum with disagreeTag := some t } } else s)

/-- An attributing error was learned of within two tags of a disagreement (R289). -/
def State.attributed (s : State) (t : Nat) : Bool :=
  (s.sum.east.errTags ++ s.sum.west.errTags).any (fun u => decide (t ≤ u + 2) && decide (u ≤ t + 2))

/-- The instant at which a tag began. -/
def State.tagTime (s : State) (t : Nat) : Nat := s.clk.time - (s.clk.fast - 16 * t)
/-- An unattributed disagreement at a tag (R289). One second is counted on the Heath's own time, also across a loss of the clock. -/
def State.unattributed (s : State) (t : Nat) : State :=
  match s.holder with
  | none => s
  | some h =>
    let w := word t
    let now := s.tagTime t
    let again := match s.sum.lastDisagree with
      | some u => decide (now < u + sTicks)
      | none => false
    let s := s.loseElig h.other (fun x => { x with disagreed := true })
    let s : State := { s with sum := { s.sum with fUnattrib := true, unattribs := capInc s.sum.unattribs 255, lastDisagree := some now,
                                                  fAlert := s.sum.fAlert || again } }
    let s := (s.event srcHeath.val evUnattrib w 0).summary srcHeath evUnattrib 0xFF none w
    if again then s.event srcHeath.val evAlert w 0 else s

/-- DISAGREEMENT_JUDGEMENT (R289): at the end of tag T + 2. -/
def execDisagreementJudgement (s : State) : Host.Outcome State Fault Refusal :=
  match s.sum.disagreeTag with
  | none => .next s
  | some t =>
    if s.enables < t + 3 then .next s
    else
      let s : State := { s with sum := { s.sum with disagreeTag := none } }
      .next (if s.attributed t then s else s.unattributed t)

/-- TAG_MARK_SILENT (R288). -/
def execTagMarkSilent (h : HalfId) (s : State) : Host.Outcome State Fault Refusal :=
  .next (s.attribError h (fun x => { x with silent := true }))

/-- A heartbeat of a half is judged (R296): one that did not arrive, or whose 8 bits differ from the Heath's count of the tag, is
missed. -/
def HalfS.beat (x : HalfS) (tag : Nat) (bits : Option Byte) : HalfS :=
  let missed := decide (bits ≠ some (BitVec.ofNat 8 tag))
  { x with hbTag := some tag, hbMisses := if missed then x.hbMisses + 1 else 0 }
/-- HEARTBEAT_LOST (R290, R296): at the first fast tick of the tag after a multiple of 25, what has arrived of its heartbeat is judged,
once; the third miss in a row costs the half its eligibility. -/
def execHeartbeatLost (x : Heartbeat) (s : State) : Host.Outcome State Fault Refusal :=
  let h := x.half
  let now := s.clk.time
  let t := s.enables - 1
  if s.clk.synced && decide (s.clk.fast % 16 = 0) && decide (0 < s.enables) && decide (t % 4294967296 % 25 = 0) && decide ((s.sum.half h).hbTag ≠ some t) then
    let s := s.modHs h (fun y => y.beat t x.bits)
    let missed := decide (0 < (s.sum.half h).hbMisses)
    let s := if missed then s.modHs h (fun x => { x with hbAt := now }) else s
    .next (if 3 ≤ (s.sum.half h).hbMisses then s.loseElig h (fun x => { x with hbLost := true }) else s)
  else .next s

/-- FAILOVER (R292, R293, R299): an ineligible holder loses the summit. -/
def execFailover (s : State) : Host.Outcome State Fault Refusal :=
  let s := s.arbVote
  match s.holder with
  | none => .next s
  | some h => if (s.sum.half h).eligible then .next s else .next (s.failover h)

/-- HANDOVER_DONE (R292, R293, R295): a release that was taken moves the summit at the first fast tick of the next
sample tag. -/
def execHandoverDone (s : State) : Host.Outcome State Fault Refusal :=
  let s := s.arbVote
  match s.holder, s.sum.handoverAt with
  | some h, some t =>
    if (s.sum.half h).eligible = false ∨ s.enables ≤ t then .next s
    else if (s.sum.half h.other).eligible then
      let s := s.moveSummit h.other
      let s : State := { s with sum := { s.sum with fHandover := true } }
      .next (s.event srcHeath.val evHandover (word (halfNum h.other)) 0)
    else .next (s.refuseRelease h)
  | _, _ => .next s

/-- A half that may start to resynchronize (R290, R303). -/
def State.mayResync (s : State) (h : HalfId) : Bool :=
  let x := s.sum.half h
  decide (s.holder = some h.other) && !x.eligible && !x.resyncing && !x.blocked && !x.stopped s.enables && (!x.hbLost || decide (x.hbAt + msTicks ≤ s.clk.time))
/-- RESYNC_START (R290, R302). -/
def execResyncStart (h : HalfId) (s : State) : Host.Outcome State Fault Refusal :=
  let t := s.enables
  .next (if s.mayResync h then
      s.modHs h (fun x => { x with resyncing := true, resyncTag := some t, resyncCopied := false, resyncBad := false })
    else s)

/-- RESYNC_COMPLETE (R64, R290, R302): the holder's state stands in the half, eight tags have compared alike, and it is eligible. -/
def execResyncComplete (h : HalfId) (s : State) : Host.Outcome State Fault Refusal :=
  let x := s.sum.half h
  match x.resyncTag with
  | none => .next s
  | some t =>
    if t + 57 ≤ s.enables ∧ s.enables ≤ t + 64 ∧ s.holder = some h.other ∧ x.resyncCopied = true ∧ x.resyncBad = false then
      .next (s.modHs h HalfS.regain)
    else .next s

/-- A resynchronization has failed (R303): a copied word was uncorrectable, a compared tag differed, or its time is over. -/
def HalfS.resyncFailed (x : HalfS) (t now : Nat) : Bool := x.resyncBad || decide (t + 64 < now)
/-- RESYNC_FAIL (R291, R303): it starts again at the next tag; the third failure in a row retires the half. With no holder there is none
(R294). -/
def execResyncFail (h : HalfId) (s : State) : Host.Outcome State Fault Refusal :=
  match (s.sum.half h).resyncTag with
  | none => .next s
  | some u =>
    if s.holder = some h.other ∧ (s.sum.half h).resyncFailed u s.enables = true then
      let t := s.enables + 1
      let s := s.modHs h (fun x => { x with resyncFails := x.resyncFails + 1, resyncTag := some t, resyncCopied := false, resyncBad := false })
      let s : State := { s with sum := { s.sum with fResyncFail := true } }
      let s := s.event (srcHalf h).val evResyncFail (word (halfNum h)) 0
      .next (if 3 ≤ (s.sum.half h).resyncFails then s.retire h else s)
    else .next s

/-- The watchdog of a half has counted WDOG_MS × 1,000 of the Heath's microsecond steps since its last refresh (R297): the count lies
within the time its supervisor has run without a pause. -/
def State.watchdogDue (s : State) (h : HalfId) (count : Nat) : Bool :=
  let x := s.sum.half h
  x.supRunning && !x.supHalted && decide ((s.gp .wdogMs).toNat * 1000 ≤ count) && decide (x.supSince + usTicks * count ≤ s.clk.time)
/-- WATCHDOG_EXPIRY (R18, R295, R297): the supervisor restarts, and a holder releases the summit. The operand is what the watchdog has
counted since the firmware's last refresh (log entry 22). -/
def execWatchdogExpiry (x : WatchCount) (s : State) : Host.Outcome State Fault Refusal :=
  let h := x.half
  if !s.watchdogDue h x.count then .next s
  else
    let now := s.clk.time
    let s := s.modHs h (fun x => { x with supRunning := false, supBoot := some now })
    let s : State := { s with sum := { s.sum with fSupRestart := true, supRestarts := capInc s.sum.supRestarts 255 } }
    .next ((s.event (srcHalf h).val evSupRestart (word (halfNum h)) (word (fieldAt s.sum.sticky 8 8))).requestRelease h)

end Sys2Proof.Machine
end

