-- ==== Sys2Proof/Machine/Switches.lean ====
section
/-!
DEFINITION. What happens to a switch channel (08_section_switches.md, R230 to R246), retries (09 R264), and the end of a
rundown (01 R36).
-/
namespace Sys2Proof.Machine

/-- SEAT_LOW (R230, R244): the debounce starts, or starts again after a glitch. -/
def execSeatLow (c : CtxId) (s : State) : Host.Outcome State Fault Refusal :=
  let now := s.clk.time
  .next (s.modChan c (fun x =>
    if x.seated then x
    else { x with seatLowSince := some now, seatGlitch := x.seatGlitch || x.seatLowSince.isSome,
                  st := if x.st = .unseated then .seating else x.st }))

/-- SEATED (R230, R244). -/
def execSeated (c : CtxId) (s : State) : Host.Outcome State Fault Refusal :=
  match s.ctx[c].chan.seatLowSince with
  | none => .next s
  | some t =>
    if s.ctx[c].chan.seated = false ∧ t + (s.cp c .seatDebounce).toNat * msTicks ≤ s.clk.time then
      .next (s.modChan c (fun x => { x with seated := true, st := match x.st with
        | .unseated | .seating => .off
        | st => st }.noteTrip))
    else .next s

/-- SEAT_LOST (R230, R231, R244): SEAT reads high; before the debounce is complete that is a glitch. -/
def execSeatLost (c : CtxId) (s : State) : Host.Outcome State Fault Refusal :=
  let x := s.ctx[c].chan
  if x.seated then
    let s := s.raiseCause c .seatLost
    .next (s.modChan c (fun x => { x with seated := false, seatLowSince := none, st := if x.st = .off then .unseated else x.st }))
  else
    .next (s.modChan c (fun x => { x with seatLowSince := none, seatGlitch := x.seatGlitch || x.seatLowSince.isSome,
                                          st := if x.st = .seating then .unseated else x.st }))

/-- FAST_TRIP (R239, R240): the shunt voltage at the comparator, in microvolts. -/
def execFastTrip (c : CtxId) (microvolt : Int) (s : State) : Host.Outcome State Fault Refusal :=
  .next ((s.modChan c (fun x => { x with shuntUv := some microvolt })).tripFollow c)

/-- GATE_NOT_RISING (R241, R268): the microsecond in which the timeout falls has passed without a proof. -/
def execGateNotRising (c : CtxId) (s : State) : Host.Outcome State Fault Refusal :=
  let x := s.ctx[c].chan
  if x.stateOf s.clk.time = .starting ∧ x.proven = false ∧ x.gateStart + ((s.cp c .gateTimeout).toNat + 1) * usTicks ≤ s.clk.time then
    .next (s.raiseCause c .gateNotRising)
  else .next s

/-- INSERTION_TIMEOUT (R242). -/
def execInsertionTimeout (c : CtxId) (s : State) : Host.Outcome State Fault Refusal :=
  let x := s.ctx[c].chan
  if x.stateOf s.clk.time = .starting ∧ (s.cp c .insTime).toNat ≤ x.insTimer then
    .next (s.raiseCause c (if x.limitingOf s.clk.time then .startShort else .gateLow))
  else .next s

/-- FOLDBACK_TIMEOUT (R242). -/
def execFoldbackTimeout (c : CtxId) (s : State) : Host.Outcome State Fault Refusal :=
  let x := s.ctx[c].chan
  if x.stateOf s.clk.time = .on ∧ (s.cp c .insTime).toNat ≤ x.foldTimer then .next (s.raiseCause c .foldbackTimeout) else .next s

/-- GATE_STUCK (R243, R245): VGS is at or above 1.0 V 20 µs after the pull-down began. -/
def execGateStuck (c : CtxId) (s : State) : Host.Outcome State Fault Refusal :=
  let x := s.ctx[c].chan
  if x.vgs = 0 ∨ s.clk.time < x.pullStart + 8000 then .next s
  else match x.st with
    | .stopping => .next (s.chanFault c .gateStuck)
    | .fault => if x.cause = .gateStuck then .next s else .next (s.chanFault c .gateStuck)
    | _ => .next s

/-- VGS_BELOW_1V (R233, R244, R246): a stopped channel rests and a held ON acts; a granted release of FAULT acts. -/
def execVgsBelow1V (c : CtxId) (s : State) : Host.Outcome State Fault Refusal :=
  let now := s.clk.time
  let s := s.modChan c (fun x => { x with vgs := 0 })
  match s.ctx[c].chan.st with
  | .stopping =>
    let held := s.ctx[c].chan.heldOn
    let ev := s.ctx[c].chan.heldEv
    let s := s.modChan c (fun x => { x.rest now with heldOn := false, heldEv := none })
    .next (if held then s.heldStart c ev else s)
  | .fault => .next ((s.modChan c (fun x => { x with offSince := now })).tryRelease c)
  | _ => .next s

/-- A retry of a context is granted (R264). -/
def State.retryContext (s : State) (c : CtxId) : State :=
  match s.ctx[c].prot.retryDue with
  | none => s
  | some t =>
    if s.clk.time < t then s
    else
      let k : FClass := ⟨s.ctx[c].prot.lastClass.val % 14, by omega⟩
      let s := s.modCtx c (fun x => { x with prot := { x.prot with
        latched := false, retryDue := none, retryUsed := x.prot.retryUsed + 1, retryApplyOn := x.prot.retryChanOn } })
      s.releasedEvent c k
/-- A retry of a channel is granted (R246, R264). -/
def State.retryChannel (s : State) (c : CtxId) : State :=
  match s.ctx[c].chan.retryDue with
  | none => s
  | some t =>
    if s.clk.time < t then s
    else
      let k := s.ctx[c].chan.cause.cls
      let s := s.modCtx c (fun x => { x with prot := { x.prot with retryUsed := x.prot.retryUsed + 1 } })
      ((s.modChan c (fun x => { x with granted := true, retryOn := true, retryDue := none })).releasedEvent c k).tryRelease c
/-- RETRY_INTERVAL (R264). -/
def execRetryInterval (c : CtxId) (s : State) : Host.Outcome State Fault Refusal := .next ((s.retryContext c).retryChannel c)

/-- RETRY_USED_EXPIRY (R264): 10 s of regulation without a RETRY declaration. -/
def execRetryUsedExpiry (c : CtxId) (s : State) : Host.Outcome State Fault Refusal :=
  if s.ctx[c].regulating && decide (s.ctx[c].prot.lastRetry + 10 * sTicks ≤ s.clk.time) then
    .next (s.modCtx c (fun x => { x with prot := { x.prot with retryUsed := 0 } }))
  else .next s

/-- RUN is left for STANDBY (R33, R36, R195). -/
def State.leaveRun (s : State) : State :=
  let s := s.flushAll
  ({ s with dev := { s.dev with rundown := none } } : State).goto .standby
/-- No phase is in a pulse: every rail that has stopped has parked (R36, R133). -/
def State.allParked (s : State) : Bool := phaseIds.all (fun p => !(s.hph p).inPulse s.steps)
/-- A rundown has parked its last rail (R36): none regulates, and no pulse is left in flight. -/
def State.rundownOver (s : State) : Bool :=
  decide (s.dev.st = .run) && s.dev.rundown.isSome && ctxIds.all (fun c => !s.ctx[c].regulating) && (s.settle phaseIds).allParked
/-- RUNDOWN_COMPLETE (R36): the last rail has parked. -/
def execRundownComplete (s : State) : Host.Outcome State Fault Refusal :=
  .next (if s.rundownOver then s.move .standby State.leaveRun else s)
/-- Every rail stops, and every phase not yet parked parks at once (R36). -/
def State.parkRails (s : State) : State :=
  let now := s.steps
  (ctxIds.foldl State.stopReg s).halves (fun x => { x with ph := every x.ph (fun _ h => h.parkNow now) })
/-- RUNDOWN_LIMIT (R36): at 100 ms every phase not yet parked parks at once. -/
def execRundownLimit (s : State) : Host.Outcome State Fault Refusal :=
  match s.dev.rundown with
  | none => .next s
  | some t =>
    if s.dev.st = .run ∧ t + 100 * msTicks ≤ s.clk.time then
      .next (s.parkRails.move .standby State.leaveRun)
    else .next s

end Sys2Proof.Machine
end

