-- ==== Sys2Proof/Machine/Tarn.lean ====
section
/-!
DEFINITION. The Tarn link: cycles, polls, replies, violations and quarantine (13_tarn_link.md, R397 to R421).
-/
namespace Sys2Proof.Machine

/-- One port. -/
def State.port (s : State) : Port → TarnPort
  | .a => s.tarnA
  | .b => s.tarnB
def State.modPort (s : State) (p : Port) (f : TarnPort → TarnPort) : State :=
  match p with
  | .a => { s with tarnA := f s.tarnA }
  | .b => { s with tarnB := f s.tarnB }
def State.modTarn (s : State) (c : CtxId) (f : TarnS → TarnS) : State := s.modCtx c (fun x => { x with tarn := f x.tarn })

/-- The addresses a map enrols, in rising order (R400). -/
def enrolled (m : BitVec 64) : List CtxId := ctxIds.filter (fun a => decide (a.val ≠ 0) && m.getLsbD a.val)
/-- A frame with its CRC, most significant byte first (R404, R407). -/
def framed (bs : List Byte) : List Byte := bs ++ beBytes 2 (crc16 bs).toNat
/-- The extended slot belongs to every sixteenth cycle (R401). -/
def TarnPort.extended (x : TarnPort) : Bool := decide (x.cycle % 16 = 15)
/-- The position after so many slots: the next slot of this cycle, or the next cycle (R401). -/
def TarnPort.moveTo (x : TarnPort) (k : Nat) : TarnPort :=
  let n := (enrolled x.map).length
  if k ≤ n ∨ (k = n + 1 ∧ x.extended = true) then { x with pos := k } else { x with pos := 0, cycle := (x.cycle + 1) % 65536 }
/-- The port drives a frame: DE rises one bit time before its first start bit and drops one bit time after its last stop bit, each bit
32 fast ticks (R397, R399). -/
def State.drive (s : State) (port : Port) (bs : List Byte) : State :=
  let t := s.clk.time + (10 * bs.length + 2) * 32
  s.modPort port (fun x => { x with sent := bs, driveEnd := t })
/-- TA_DE and TB_DE: low where the drivers are off (R41, R397, R449). -/
def State.deHigh (s : State) (port : Port) : Bool := s.dev.st.serves && decide (s.clk.time < (s.port port).driveEnd)
/-- A port may start a slot: it is enabled, its last slot is over, and the drivers are on (R41, R401). -/
def State.slotFree (s : State) (p : Port) : Bool := (s.port p).enabled && (s.port p).poll.isNone && s.dev.st.serves

/-- An address newly enrolled: its poll sequence starts at 0, and its serial is learned again (R402, R405, R415). -/
def State.enrol (s : State) (old new : BitVec 64) : State :=
  (enrolled new).foldl (fun s a => if old.getLsbD a.val then s else s.modTarn a (fun x => { x with seq := 0, learned := none, diagNext := false })) s
/-- BEACON_SLOT (R400, R401, R404): a new cycle, with the map then in force. -/
def execBeaconSlot (port : Port) (s : State) : Host.Outcome State Fault Refusal :=
  let x := s.port port
  if s.slotFree port && decide (x.pos = 0) then
    let new := s.tarnMapWord port
    let s := s.enrol x.map new
    let bs : List Byte := [0xA5, 0, BitVec.ofNat 8 x.cycle, BitVec.ofNat 8 s.dev.st.num, 0]
    .next ((s.drive port (framed bs)).modPort port (fun x => { x with map := new }.moveTo 1))
  else .next s

/-- The answer code that a poll of an address carries (R411, R417). -/
def TarnS.pollAnswer (x : TarnS) : Nat := if x.quarantined then 0xF else x.answer.getD 0
/-- A poll of an address in a slot (R403 to R405, R411): its answer is carried once. -/
def State.poll (s : State) (port : Port) (a : CtxId) (kind budget : Nat) : State :=
  let t := s.ctx[a].tarn
  let bs : List Byte := [0xA5, BitVec.ofNat 8 a.val, BitVec.ofNat 8 t.seq, BitVec.ofNat 8 (16 * kind + t.pollAnswer), BitVec.ofNat 8 budget]
  let s := s.modTarn a (fun x => { x with seq := (x.seq + 1) % 256, answer := none })
  (s.drive port (framed bs)).modPort port (fun x => { x with poll := some { addr := a, kind := kind, seq := t.seq, budget := budget } }.moveTo (x.pos + 1))
/-- NORMAL_SLOT (R401, R403): the next enrolled address of the cycle. -/
def execNormalSlot (port : Port) (s : State) : Host.Outcome State Fault Refusal :=
  let x := s.port port
  if s.slotFree port && decide (0 < x.pos) then
    match (enrolled x.map)[x.pos - 1]? with
    | some a => .next (s.poll port a 1 4)
    | none => .next s
  else .next s
/-- The address that the extended slot visits: in rising order, one per extended slot (R402). -/
def TarnPort.visit (x : TarnPort) : Option CtxId :=
  match (enrolled x.map).find? (fun a => decide (x.nextExt ≤ a.val)) with
  | some a => some a
  | none => (enrolled x.map).head?
/-- EXTENDED_SLOT (R401, R402): IDENT at one visit of an address, DIAG at its next; without an enrolled address the slot
is idle. -/
def execExtendedSlot (port : Port) (s : State) : Host.Outcome State Fault Refusal :=
  let x := s.port port
  if s.slotFree port && decide (x.pos = (enrolled x.map).length + 1) && x.extended then
    match x.visit with
    | none => .next (s.modPort port (fun x => x.moveTo (x.pos + 1)))
    | some a =>
      let diag := s.ctx[a].tarn.diagNext
      let s := s.poll port a (if diag then 3 else 2) 64
      .next ((s.modTarn a (fun x => { x with diagNext := !diag })).modPort port (fun x => { x with nextExt := a.val + 1 }))
  else .next s

/-- A slot is over: a disabled port then releases its line (R401). -/
def TarnPort.finish (x : TarnPort) : TarnPort :=
  if x.stopping then { x with poll := none, enabled := false, stopping := false } else { x with poll := none }

/-- The quarantine that a release of this fab cycle ended (R418). -/
def TarnS.endedNow (x : TarnS) : Bool := x.tie.any (fun p => p.1)
/-- The serial that a reply is held against: that of before a release of the same fab cycle (R415, R418). -/
def TarnS.serialHeld (x : TarnS) : Option (BitVec 64) :=
  match x.tie with
  | some (true, l) => if x.learned.isSome then x.learned else l
  | _ => x.learned
/-- A violation of an address that has not been released in this fab cycle (R416, R417). -/
def State.violate (s : State) (a : CtxId) (code : Nat) : State :=
  let dup := decide (code = 8)
  let s := s.modTarn a (fun x => { x with
    viol := true
    violCount := capInc x.violCount 255
    lastViol := code
    run := capInc x.run 255
    cleanRun := 0 })
  let s := s.summaryFree (srcCtx a) (word code)
  let t := s.ctx[a].tarn
  let s := if dup then s.modTarn a (fun x => { x with dup := true, dupQuar := true }) else s
  if !t.quarantined && !t.endedNow && (dup || decide (bitsOf (s.cp a .tarnCfg) 8 8 ≤ t.run)) then
    let s := s.modTarn a (fun x => { x with quarantined := true, quarFlag := true })
    (s.event a.val evTarnQuar (word a.val) (word (fieldAt t.sticky 24 8))).declareCtx a [7]
  else s
/-- A violation of an address (R416, R417). A release of the same fab cycle is applied after it: the address leaves quarantine, RUN
reads 0, and the violation stays counted (R418). -/
def State.tarnViolation (s : State) (a : CtxId) (code : Nat) : State :=
  let s := s.violate a code
  let t := s.ctx[a].tarn
  if t.tie.isSome then
    let s := if t.endedNow then s.modTarn a (fun x => { x with run := 0, learned := none, cleanRun := 0, dupQuar := false }) else s
    s.quarRelease a
  else s

/-- Fields of a reply (R406). -/
def replyByte (r : TarnChars) (k : Nat) : Nat := (r.chars.getD k 0).toNat
def replyKind (r : TarnChars) : Nat := replyByte r 3 / 64
def replyLen (r : TarnChars) : Nat := replyByte r 4
def replyPayload (r : TarnChars) : List Byte := (r.chars.drop 5).take (replyLen r)
/-- The serial of an IDENT payload (R408). -/
def replySerial (r : TarnChars) : BitVec 64 := BitVec.ofNat 64 (beNat (padTo 8 (replyPayload r)))
/-- The CRC of a whole frame does not match, or its frame ended before its CRC (R407, R415). -/
def replyCrcBad (r : TarnChars) : Bool :=
  let n := 7 + replyLen r
  if r.chars.length < n then !r.overrun else decide (beNat ((r.chars.drop (n - 2)).take 2) ≠ (crc16 (r.chars.take (n - 2))).toNat)
/-- The violation of a slot's reply; 0 where it is clean (R415). -/
def State.replyViolation (s : State) (q : Poll) (r : TarnChars) : Nat :=
  let k := replyKind r
  let n := replyLen r
  firstRefusal [(r.late, 2), (r.framing || decide (replyByte r 0 ≠ 0x5A) || replyCrcBad r, 1),
    (r.overrun || decide (7 + n < r.chars.length), 7), (decide (replyByte r 1 ≠ q.addr.val), 5), (decide (replyByte r 2 ≠ q.seq), 4),
    (decide (q.budget < n) || ((decide (k = 1) || decide (k = 2)) && decide (n ≠ 3)) || (decide (k ≠ 0) && decide (q.kind ≠ 1)), 6),
    (decide (k = 3), 9),
    (decide (q.kind = 2) && (match s.ctx[q.addr].tarn.serialHeld with
      | none => false
      | some x => decide (x ≠ replySerial r)), 8)]

/-- Words of a payload: byte 4j in bits [31:24] of word j (R408). -/
def beWord (bs : List Byte) (j : Nat) : Word := word (beNat (padTo 4 ((bs.drop (4 * j)).take 4)))
/-- A request payload (R409). -/
def tarnRequest (kind : Nat) (bs : List Byte) : TarnReq :=
  let b := leAt bs 2 1
  { kind := kind, slew := b / 16, prio := b / 4 % 4, value := beNat (bs.take 2), bad := decide (b % 4 ≠ 0) }
/-- What a clean reply leaves (R408, R416). -/
def State.keepReply (s : State) (port : Port) (q : Poll) (r : TarnChars) : State :=
  let s := s.modTarn q.addr (fun x => { x with run := 0, nodeBits := replyByte r 3 % 64 })
  if q.kind = 1 then
    if replyKind r = 0 then s.modTarn q.addr (fun x => { x with node := beWord (replyPayload r) 0 }) else s
  else
    let s := s.modPort port (fun x => { x with ext := Vector.ofFn (fun j : Fin 16 => beWord (replyPayload r) j.val), extAddr := q.addr.val, extLen := replyLen r })
    if q.kind = 2 then s.modTarn q.addr (fun x => { x with learned := some (x.learned.getD (replySerial r)) }) else s
/-- A clean reply (R408, R410, R417, R418): a request goes to both cells as a broadcast word, which may hold errors (R16), and waits for
its judgement; under quarantine it is ignored, and the
reply counts towards an automatic release. -/
def State.cleanReply (s : State) (port : Port) (q : Poll) (r : TarnChars) (err : BcastErr) : State :=
  let s := s.keepReply port q r
  let t := s.ctx[q.addr].tarn
  if t.quarantined then
    let n := t.cleanRun + 1
    let s := s.modTarn q.addr (fun x => { x with cleanRun := n })
    let cfg := s.cp q.addr .tarnCfg
    if bitOf cfg 0 && !t.dupQuar && decide (bitsOf cfg 16 8 ≤ n) then s.quarRelease q.addr else s
  else if replyKind r = 1 ∨ replyKind r = 2 then
    let now := s.enables
    let s := s.bcast q.addr err
    if err.east = .double ∧ err.west = .double then s
    else s.modTarn q.addr (fun x => { x with waiting := some (tarnRequest (replyKind r) (replyPayload r), now) })
  else s

/-- TARN_REPLY (R403, R406 to R410, R415 to R418). -/
def execTarnReply (port : Port) (r : TarnChars) (s : State) : Host.Outcome State Fault Refusal :=
  match (s.port port).poll with
  | none => .next s
  | some q =>
    let s := s.modPort port TarnPort.finish
    let v := s.replyViolation q r
    .next (if v = 0 then s.cleanReply port q r r.err else s.tarnViolation q.addr v)

/-- NO_REPLY (R403, R415): no start bit in the slot. -/
def execNoReply (port : Port) (s : State) : Host.Outcome State Fault Refusal :=
  match (s.port port).poll with
  | none => .next s
  | some q => .next ((s.modPort port TarnPort.finish).tarnViolation q.addr 3)

/-- No reply window or reply is open on a port: no slot with a poll runs, or its poll has not ended, which it does one bit time before DE
drops (R399, R403). -/
def State.noWindow (s : State) (port : Port) : Bool :=
  (s.port port).poll.isNone || decide (s.clk.time + 32 < (s.port port).driveEnd)
/-- TARN_STRAY (R415): a character while no reply window or reply is open. -/
def execTarnStray (port : Port) (s : State) : Host.Outcome State Fault Refusal :=
  if s.dev.st.serves && s.noWindow port then .next (s.modPort port (fun x => { x with stray := (x.stray + 1) % 65536 }))
  else .next s

end Sys2Proof.Machine
end

