-- ==== Sys2Proof/Machine/Dispatch.lean ====
section
/-! DEFINITION. One arm per command: its meaning, or its rejection by name. -/
namespace Sys2Proof.Machine

/-- The effect of a command on everything but the queue. -/
def exec (i : Instr) (s : State) : Host.Outcome State Fault Refusal :=
  match i with
  | .vinUvloRise => Sys2Proof.Machine.execVinUvloRise s
  | .selfSuppliesUp => Sys2Proof.Machine.execSelfSuppliesUp s
  | .pinDriversEnabled => Sys2Proof.Machine.execPinDriversEnabled s
  | .heathSyncPulse refClock pmbOhm => Sys2Proof.Machine.execHeathSyncPulse refClock pmbOhm s
  | .selfTestWindowClose eastPass westPass => Sys2Proof.Machine.execSelfTestWindowClose eastPass westPass s
  | .configRestore => Sys2Proof.Machine.execConfigRestore s
  | .ledgerRecovery => Sys2Proof.Machine.execLedgerRecovery s
  | .vinUvloFall => Sys2Proof.Machine.execVinUvloFall s
  | .lastGasp cells => Sys2Proof.Machine.execLastGasp cells s
  | .lastGaspStop => Sys2Proof.Machine.execLastGaspStop s
  | .lastGaspComplete => Sys2Proof.Machine.execLastGaspComplete s
  | .vholdMinimum => Sys2Proof.Machine.execVholdMinimum s
  | .resetNLow ns => Sys2Proof.Machine.execResetNLow ns s
  | .resetNRise => Sys2Proof.Machine.execResetNRise s
  | .supplyUndervoltage r => Sys2Proof.Machine.execSupplyUndervoltage r s
  | .supplyRecovered r => Sys2Proof.Machine.execSupplyRecovered r s
  | .coreUndervoltage h => Sys2Proof.Machine.execCoreUndervoltage h s
  | .safeNLow ns held => Sys2Proof.Machine.execSafeNLow ns held s
  | .clockLoss cause => Sys2Proof.Machine.execClockLoss cause s
  | .clockReturn => Sys2Proof.Machine.execClockReturn s
  | .requalification eastPass westPass => Sys2Proof.Machine.execRequalification eastPass westPass s
  | .runReq ifc => Sys2Proof.Machine.execRunReq ifc s
  | .rundown ifc => Sys2Proof.Machine.execRundown ifc s
  | .rundownComplete => Sys2Proof.Machine.execRundownComplete s
  | .rundownLimit => Sys2Proof.Machine.execRundownLimit s
  | .safeClr ifc => Sys2Proof.Machine.execSafeClr ifc s
  | .innerDecision codes irefOut errs => Sys2Proof.Machine.execInnerDecision codes irefOut errs s
  | .pulseEnd p => Sys2Proof.Machine.execPulseEnd p s
  | .peakMiss p => Sys2Proof.Machine.execPeakMiss p s
  | .outerStep x => Sys2Proof.Machine.execOuterStep x s
  | .cellScrub c => Sys2Proof.Machine.execCellScrub c s
  | .railWord c code err => Sys2Proof.Machine.execRailWord c code err s
  | .shuntWord c code vs vgs err => Sys2Proof.Machine.execShuntWord c code vs vgs err s
  | .autoZero p => Sys2Proof.Machine.execAutoZero p s
  | .shuntAutoZero c => Sys2Proof.Machine.execShuntAutoZero c s
  | .bindingTableScrub h => Sys2Proof.Machine.execBindingTableScrub h s
  | .tokenCheck => Sys2Proof.Machine.execTokenCheck s
  | .halfComparison => Sys2Proof.Machine.execHalfComparison s
  | .disagreementJudgement => Sys2Proof.Machine.execDisagreementJudgement s
  | .tagMarkSilent h => Sys2Proof.Machine.execTagMarkSilent h s
  | .heartbeatLost x => Sys2Proof.Machine.execHeartbeatLost x s
  | .failover => Sys2Proof.Machine.execFailover s
  | .handoverDone => Sys2Proof.Machine.execHandoverDone s
  | .resyncStart h => Sys2Proof.Machine.execResyncStart h s
  | .resyncComplete h => Sys2Proof.Machine.execResyncComplete h s
  | .resyncFail h => Sys2Proof.Machine.execResyncFail h s
  | .watchdogExpiry x => Sys2Proof.Machine.execWatchdogExpiry x s
  | .handover ifc => Sys2Proof.Machine.execHandover ifc s
  | .commitTag => Sys2Proof.Machine.execCommitTag s
  | .w1cClear ifc index w => Sys2Proof.Machine.execW1cClear ifc index w s
  | .sel ifc c w => Sys2Proof.Machine.execSel ifc c w s
  | .swap ifc c view => Sys2Proof.Machine.execSwap ifc c view s
  | .view ifc c v => Sys2Proof.Machine.execView ifc c v s
  | .compat ifc w => Sys2Proof.Machine.execCompat ifc w s
  | .compatMap ifc k w => Sys2Proof.Machine.execCompatMap ifc k w s
  | .railP1 ifc c => Sys2Proof.Machine.execRailP1 ifc c s
  | .railP2 ifc c => Sys2Proof.Machine.execRailP2 ifc c s
  | .phaseGain ifc p => Sys2Proof.Machine.execPhaseGain ifc p s
  | .shuntGain ifc c => Sys2Proof.Machine.execShuntGain ifc c s
  | .calCaptureDone => Sys2Proof.Machine.execCalCaptureDone s
  | .calRecordWritten => Sys2Proof.Machine.execCalRecordWritten s
  | .tsyncEdge falling => Sys2Proof.Machine.execTsyncEdge falling s
  | .holdover => Sys2Proof.Machine.execHoldover s
  | .arm ifc => Sys2Proof.Machine.execArm ifc s
  | .ftNowHi ifc => Sys2Proof.Machine.execFtNowHi ifc s
  | .ftNowLo ifc => Sys2Proof.Machine.execFtNowLo ifc s
  | .gateStart c => Sys2Proof.Machine.execGateStart c s
  | .deferredGateStart c => Sys2Proof.Machine.execDeferredGateStart c s
  | .confirmationTimeout c => Sys2Proof.Machine.execConfirmationTimeout c s
  | .conductionEdge c rising ago => Sys2Proof.Machine.execConductionEdge c rising ago s
  | .seatLow c => Sys2Proof.Machine.execSeatLow c s
  | .seated c => Sys2Proof.Machine.execSeated c s
  | .seatLost c => Sys2Proof.Machine.execSeatLost c s
  | .fastTrip c microvolt => Sys2Proof.Machine.execFastTrip c microvolt s
  | .gateNotRising c => Sys2Proof.Machine.execGateNotRising c s
  | .insertionTimeout c => Sys2Proof.Machine.execInsertionTimeout c s
  | .foldbackTimeout c => Sys2Proof.Machine.execFoldbackTimeout c s
  | .gateStuck c => Sys2Proof.Machine.execGateStuck c s
  | .vgsBelow1V c => Sys2Proof.Machine.execVgsBelow1V c s
  | .switchOn ifc c => Sys2Proof.Machine.execSwitchOn ifc c s
  | .switchOff ifc c => Sys2Proof.Machine.execSwitchOff ifc c s
  | .switchClear ifc c => Sys2Proof.Machine.execSwitchClear ifc c s
  | .cragCrossing k microvolt => Sys2Proof.Machine.execCragCrossing k microvolt s
  | .tripGroupAssert c => Sys2Proof.Machine.execTripGroupAssert c s
  | .tripGroupDeassert c => Sys2Proof.Machine.execTripGroupDeassert c s
  | .retryInterval c => Sys2Proof.Machine.execRetryInterval c s
  | .retryUsedExpiry c => Sys2Proof.Machine.execRetryUsedExpiry c s
  | .faultClear ifc c => Sys2Proof.Machine.execFaultClear ifc c s
  | .retryReset ifc c => Sys2Proof.Machine.execRetryReset ifc c s
  | .zoneEvaluation z samples => Sys2Proof.Machine.execZoneEvaluation z samples s
  | .ledgerTake => Sys2Proof.Machine.execLedgerTake s
  | .tallyEntryCommitted => Sys2Proof.Machine.execTallyEntryCommitted s
  | .consolidation => Sys2Proof.Machine.execConsolidation s
  | .reclaim area => Sys2Proof.Machine.execReclaim area s
  | .deferredWritesResume => Sys2Proof.Machine.execDeferredWritesResume s
  | .hostRecordWriteDone => Sys2Proof.Machine.execHostRecordWriteDone s
  | .cairnRecordWrite => Sys2Proof.Machine.execCairnRecordWrite s
  | .holdTest vhold10mV dropMicrovolt => Sys2Proof.Machine.execHoldTest vhold10mV dropMicrovolt s
  | .ledgerResolveAdd ifc item => Sys2Proof.Machine.execLedgerResolveAdd ifc item s
  | .ledgerResolveDismiss ifc item => Sys2Proof.Machine.execLedgerResolveDismiss ifc item s
  | .ledgerMarkClr ifc c => Sys2Proof.Machine.execLedgerMarkClr ifc c s
  | .cairnAck ifc seq => Sys2Proof.Machine.execCairnAck ifc seq s
  | .cairnErase ifc => Sys2Proof.Machine.execCairnErase ifc s
  | .cairnEraseDone => Sys2Proof.Machine.execCairnEraseDone s
  | .fwErase ifc => Sys2Proof.Machine.execFwErase ifc s
  | .fwVerify ifc => Sys2Proof.Machine.execFwVerify ifc s
  | .fwRestart ifc => Sys2Proof.Machine.execFwRestart ifc s
  | .fwOperationDone => Sys2Proof.Machine.execFwOperationDone s
  | .supervisorBooted h => Sys2Proof.Machine.execSupervisorBooted h s
  | .writeSlot f => Sys2Proof.Machine.execWriteSlot f s
  | .readSlot f => Sys2Proof.Machine.execReadSlot f s
  | .readStatus f => Sys2Proof.Machine.execReadStatus f s
  | .doorbell f => Sys2Proof.Machine.execDoorbell f s
  | .eventPop f => Sys2Proof.Machine.execEventPop f s
  | .paramRead live => Sys2Proof.Machine.execParamRead live s
  | .paramWrite => Sys2Proof.Machine.execParamWrite s
  | .schedPost => Sys2Proof.Machine.execSchedPost s
  | .schedCancel => Sys2Proof.Machine.execSchedCancel s
  | .cellStatus => Sys2Proof.Machine.execCellStatus s
  | .captureRead => Sys2Proof.Machine.execCaptureRead s
  | .traceStart => Sys2Proof.Machine.execTraceStart s
  | .traceRelease => Sys2Proof.Machine.execTraceRelease s
  | .ledgerRead => Sys2Proof.Machine.execLedgerRead s
  | .itemRead => Sys2Proof.Machine.execItemRead s
  | .cairnRead => Sys2Proof.Machine.execCairnRead s
  | .configSave => Sys2Proof.Machine.execConfigSave s
  | .configErase => Sys2Proof.Machine.execConfigErase s
  | .identRead => Sys2Proof.Machine.execIdentRead s
  | .identWrite => Sys2Proof.Machine.execIdentWrite s
  | .authChallenge => Sys2Proof.Machine.execAuthChallenge s
  | .authResponse => Sys2Proof.Machine.execAuthResponse s
  | .authLockoutEnd => Sys2Proof.Machine.execAuthLockoutEnd s
  | .sessionEnd => Sys2Proof.Machine.execSessionEnd s
  | .sessionTimeout => Sys2Proof.Machine.execSessionTimeout s
  | .flashWrite => Sys2Proof.Machine.execFlashWrite s
  | .flashRead => Sys2Proof.Machine.execFlashRead s
  | .page x => Sys2Proof.Machine.execPage x s
  | .operation x => Sys2Proof.Machine.execOperation x s
  | .clearFaults x => Sys2Proof.Machine.execClearFaults x s
  | .storeUserAll x => Sys2Proof.Machine.execStoreUserAll x s
  | .capability x => Sys2Proof.Machine.execCapability x s
  | .voutMode x => Sys2Proof.Machine.execVoutMode x s
  | .voutCommand x => Sys2Proof.Machine.execVoutCommand x s
  | .voutMax x => Sys2Proof.Machine.execVoutMax x s
  | .voutTransitionRate x => Sys2Proof.Machine.execVoutTransitionRate x s
  | .voutMin x => Sys2Proof.Machine.execVoutMin x s
  | .voutOvFaultLimit x => Sys2Proof.Machine.execVoutOvFaultLimit x s
  | .statusByte x => Sys2Proof.Machine.execStatusByte x s
  | .statusWord x => Sys2Proof.Machine.execStatusWord x s
  | .statusVout x => Sys2Proof.Machine.execStatusVout x s
  | .statusIout x => Sys2Proof.Machine.execStatusIout x s
  | .statusTemperature x => Sys2Proof.Machine.execStatusTemperature x s
  | .statusCml x => Sys2Proof.Machine.execStatusCml x s
  | .readVin x => Sys2Proof.Machine.execReadVin x s
  | .readVout x => Sys2Proof.Machine.execReadVout x s
  | .readIout x => Sys2Proof.Machine.execReadIout x s
  | .readTemperature1 x => Sys2Proof.Machine.execReadTemperature1 x s
  | .readTemperature2 x => Sys2Proof.Machine.execReadTemperature2 x s
  | .readPout x => Sys2Proof.Machine.execReadPout x s
  | .pmbusRevision x => Sys2Proof.Machine.execPmbusRevision x s
  | .mfrId x => Sys2Proof.Machine.execMfrId x s
  | .mfrModel x => Sys2Proof.Machine.execMfrModel x s
  | .mfrParamIndex x => Sys2Proof.Machine.execMfrParamIndex x s
  | .mfrParamValue x live => Sys2Proof.Machine.execMfrParamValue x live s
  | .pmbusTimeoutReset ms => Sys2Proof.Machine.execPmbusTimeoutReset ms s
  | .beaconSlot port => Sys2Proof.Machine.execBeaconSlot port s
  | .normalSlot port => Sys2Proof.Machine.execNormalSlot port s
  | .extendedSlot port => Sys2Proof.Machine.execExtendedSlot port s
  | .tarnReply port r => Sys2Proof.Machine.execTarnReply port r s
  | .noReply port => Sys2Proof.Machine.execNoReply port s
  | .tarnRelease ifc c => Sys2Proof.Machine.execTarnRelease ifc c s
  | .tarnStray port => Sys2Proof.Machine.execTarnStray port s
  | .extest scan => Sys2Proof.Machine.execExtest scan s
  | .samplePreload scan => Sys2Proof.Machine.execSamplePreload scan s
  | .bypass x => Sys2Proof.Machine.execBypass x s
  | .flashLoad w => Sys2Proof.Machine.execFlashLoad w s
  | .flashStatus => Sys2Proof.Machine.execFlashStatus s
  | .debugHalt w => Sys2Proof.Machine.execDebugHalt w s
  | .debugResume w => Sys2Proof.Machine.execDebugResume w s
  | .debugStep w => Sys2Proof.Machine.execDebugStep w s
  | .freeze w => Sys2Proof.Machine.execFreeze w s
  | .unfreeze w => Sys2Proof.Machine.execUnfreeze w s
  | .debugStatus => Sys2Proof.Machine.execDebugStatus s
  | .framing header f => Sys2Proof.Machine.execFraming header f s
  | .invalidCommand code => Sys2Proof.Machine.execInvalidCommand code s
  | .freshSave => Sys2Proof.Machine.execFreshSave s
  | .flashLoadEraseDone => Sys2Proof.Machine.execFlashLoadEraseDone s

end Sys2Proof.Machine
end

