-- ==== Sys2Proof/Machine/FabCycle.lean ====
section
/-!
DEFINITION. The passage of time: what an empty queue does (log entry 2; R10, R15, R171, R172, R292, R310), and the end of a
fab cycle: what it set becomes old (R7), and triggers that lost in it are examined again (R34).
-/
namespace Sys2Proof.Machine

/-- A rundown is over, or has reached its limit of 100 ms (R36). -/
def State.rundownDue (s : State) : Bool :=
  s.rundownOver || (decide (s.dev.st = .run) && (match s.dev.rundown with
    | some t => decide (t + 100 * msTicks ≤ s.clk.time)
    | none => false))
/-- A trigger that lost, examined in the next fab cycle against the new state (R34). -/
def State.again (s : State) : Trig → State
  | .holdup => if s.dev.st.powered && !s.dev.vinOn then s.move .holdup State.enterHoldup else s
  | .reset => if s.dev.st.resets then s.move .reset State.toBoot else s
  | .safe => if s.safeFrom && s.dev.caused then s.move .safe State.enterSafe else s
  | .standby =>
    match s.dev.st with
    | .boot => if s.dev.bootStep = 6 then s.move .standby State.endBoot else s
    | .run => if s.rundownDue then (if s.rundownOver then s else s.parkRails).move .standby State.leaveRun else s
    | .safe => if s.dev.caused then s else s.move .standby (fun s => s.goto .standby)
    | _ => s
  | .run => if s.dev.st = .standby && s.dev.runReq then s.move .run State.enterRun else s
/-- The losers of the fab cycle that ended, in the order of R34. -/
def State.reexamine (s : State) : State :=
  let l := s.dev.lost
  ([Trig.holdup, .reset, .safe, .standby, .run].filter (fun t => l.contains t)).foldl State.again { s with dev := { s.dev with lost := [] } }
/-- A fab cycle begins: the write engine takes its next work (R331), and PMBus writes that waited have their turn (R372). -/
def State.fabEdge (s : State) : State :=
  let s := s.newCycle
  let s := if s.dev.lost.isEmpty then s else s.reexamine
  s.engineStep.turnOver

/-- One Heath fast tick of 2.5 ns: the tick counts, and field time by its rate; field time is latched for the
broadcast at a tag's first fast tick. Output stages follow the start edges of the tick (R127), the copies of the arbiter and of the
safe-state logic are voted (R292, R312), and at a tag's first fast tick its stream begins (R287). Without a clock only the Heath's own
time passes. -/
def State.pass (s : State) : State :=
  if s.clocked then
    let ft := (s.ft.ft + s.ft.rate) % 2 ^ 88
    let f := s.clk.fast + 1
    let s : State := { s with clk := { s.clk with fast := f, time := s.clk.time + 1 },
                              ft := { s.ft with ft := ft, ftTag := if f % 16 = 0 then ft else s.ft.ftTag } }
    let s := s.follow.arbVote
    let s : State := { s with sum := s.sum.safeVote }
    if f % 16 = 0 then s.markTag else s
  else { s with clk := { s.clk with time := s.clk.time + 1 }, sum := s.sum.safeVote }
/-- A tick, and at every fourth the edge of a fab cycle. -/
def State.tick (s : State) : State :=
  let s := s.pass
  if s.clk.time % 4 = 0 then s.fabEdge else s

end Sys2Proof.Machine
end

