-- ==== Sys2Proof/Safety.lean ====
section
/-!
DEFINITION. What claims are stated with: a command that completes, what a command leaves unchanged, the canonical form of
the block's memories, and the states a rule speaks of.
-/
namespace Sys2Proof.Machine

/-- A command completes: it answers a next state, and what the rules give holds of it. -/
def Completes (c : Instr) (s : State) (P : State → Prop) : Prop := ∃ t, exec c s = .next t ∧ P t

/-- The record store is in the canonical form of Memory.lean: addresses rising, no erased byte listed (R322, R323). -/
def StoreOk (s : State) : Prop := Memory.wf (0xFF : Byte) s.nv.mem = true

/-- What the rules bound in every state: the record store's form, the 64 entries of the event queue (R380) and the 16
requests of the Cairn queue (R350). -/
def Bounds (s : State) : Prop := StoreOk s ∧ s.mb.events.length ≤ 64 ∧ s.cairn.queue.length ≤ 16

/-- A fault response, the Heath zone at SHUT among them, forces SAFE in a fab cycle (R33, R39). -/
def FaultIn (fab : Nat) (t : State) : Prop := t.dev.causeFault = true ∧ t.dev.causeAt[SafeCause.fault.ix] = some fab

/-- An entry to SAFE by a command other than a commit tag, from BOOT, STANDBY or RUN (R33): SAFE_N, clock loss, no eligible half, a cause
that the arbitration of the summit finds, or a fault response. -/
def SafeBy (c : Instr) (s t : State) : Prop :=
  (∃ ns held, c = .safeNLow ns held ∧ safeTaken ns = true ∧ t.dev.causePin = true) ∨ (∃ k, c = .clockLoss k ∧ t.dev.causeClock = true) ∨
  (c = .failover ∧ t.dev.causeNoHalf = true ∧ t.holder = none) ∨
  (∃ e w, c = .selfTestWindowClose e w ∧ s.dev.st = .boot ∧ t.dev.caused = true) ∨ FaultIn s.fab t

/-- The transitions of R33 with the commands that trigger them; the end of BOOT with AUTO_RUN passes through STANDBY, and an
undervoltage of VDD_IO, VDDA or VDD_H acts as RESET_N (R444). The writes of RUN_REQ and SAFE_CLR act at their commit tag. -/
def Moves (c : Instr) (s t : State) : Prop :=
  match s.dev.st, t.dev.st with
  | .cold, .boot => c = .vinUvloRise
  | .boot, .standby => c = .ledgerRecovery
  | .boot, .run => c = .ledgerRecovery ∧ s.gp .autoRun = 2
  | .run, .standby => (c = .rundownComplete ∧ s.rundownOver = true) ∨ c = .rundownLimit
  | .boot, .safe | .standby, .safe | .run, .safe => SafeBy c s t
  | .standby, .boot | .run, .boot | .safe, .boot =>
    (∃ ns, c = .resetNLow ns ∧ resetTaken ns = true) ∨ c = .supplyUndervoltage .io ∨ c = .supplyUndervoltage .a ∨ c = .supplyUndervoltage .h
  | .boot, .holdup | .standby, .holdup | .run, .holdup | .safe, .holdup => c = .vinUvloFall
  | .holdup, .boot => (c = .lastGaspComplete ∨ c = .lastGaspStop) ∧ s.dev.vinOn = true
  | .holdup, .cold => ((c = .lastGaspComplete ∨ c = .lastGaspStop) ∧ s.dev.vinOn = false) ∨ c = .vholdMinimum
  | _, _ => False

/-- The transitions of a commit tag (R33): a write of RUN_REQ or of SAFE_CLR that is due, or a fault response that a write brings. -/
def CommitMoves (s t : State) : Prop :=
  match s.dev.st, t.dev.st with
  | .standby, .run => ∃ k ∈ s.commits, k.due s.enables = true ∧ k.act = .runReq true
  | .safe, .standby => ∃ k ∈ s.commits, k.due s.enables = true ∧ k.act = .safeClr
  | .boot, .safe | .standby, .safe | .run, .safe => FaultIn s.fab t
  | _, _ => False

/-- The transitions at the edge of a fab cycle, by the triggers that lost in the one before (R34). -/
def AgainMoves (s t : State) : Prop :=
  match s.dev.st, t.dev.st with
  | .boot, .holdup | .standby, .holdup | .run, .holdup | .safe, .holdup => .holdup ∈ s.dev.lost ∧ s.dev.vinOn = false
  | .standby, .boot | .run, .boot | .safe, .boot => .reset ∈ s.dev.lost
  | .boot, .safe | .standby, .safe | .run, .safe => (.safe ∈ s.dev.lost ∧ s.dev.caused = true) ∨ FaultIn ((s.clk.time + 1) / 4) t
  | .boot, .standby => .standby ∈ s.dev.lost ∧ s.dev.bootStep = 6
  | .boot, .run => .standby ∈ s.dev.lost ∧ s.dev.bootStep = 6 ∧ s.gp .autoRun = 2
  | .run, .standby => .standby ∈ s.dev.lost ∧ s.dev.rundown.isSome = true
  | .safe, .standby => .standby ∈ s.dev.lost ∧ s.dev.caused = false
  | .standby, .run => .run ∈ s.dev.lost ∧ s.dev.runReq = true
  | _, _ => False

/-- What a read of a W1C word shows after a write of `w` (R7): each flag of `flags` that the present fab cycle has set (`fresh`), or that an
earlier one set (`old`) and that `w` does not clear; each count, which a clear of its flags takes back to what this fab cycle counted. -/
def Cleared (flags : Word) (counts : List (Nat × Nat × Word)) (old fresh w after : Word) : Prop :=
  (∀ j : Nat, j < 32 → flags.getLsbD j = true → after.getLsbD j = (fresh.getLsbD j || (old.getLsbD j && !w.getLsbD j))) ∧
  (∀ x ∈ counts, fieldAt after x.1 x.2.1 =
    min ((if w &&& x.2.2 = 0 then fieldAt old x.1 x.2.1 else 0) + fieldAt fresh x.1 x.2.1) (2 ^ x.2.1 - 1))

/-- A rounded store in exact arithmetic (R53 to R55): the sum and the remainder, divided to the nearest, ties up; what the bounds hold
back, or a divisor below 1, leaves the bound in the store and the remainder as it was. -/
def rounds (acc rem d lo hi : Int) : Int × Int :=
  if d < 1 then (hi, rem)
  else
    let y := (2 * (acc + rem) + d) / (2 * d)
    if y < lo then (lo, rem) else if hi < y then (hi, rem) else (y, acc + rem - y * d)

/-- Every word that the law of a cell, or a stage of a phase, reads carries its tag (R60). -/
def Cell.lawOk (k : Cell) : Bool :=
  (k.lawWords ++ [k.remVmeas, k.port, k.remRef, k.iffPrev, k.remIcmd, k.trackI]).all Tagged.ok && CellWord.all.all (fun x => (k.w x).ok)
def HPhase.wordsOk (h : HPhase) : Bool :=
  [h.iph, h.bal, h.thr, h.ton, h.remIph, h.remBal, h.remThr, h.remTonN, h.remTonD, h.gain.word, h.offset].all Tagged.ok
/-- A phase is bound to a context and not on its way out (R22). -/
def HPhase.serves (h : HPhase) (c : CtxId) : Bool := decide (h.bind = c) && decide (h.state ≠ .unbound) && !h.leaving

/-- The inner decision of a context in one half is at hand (R58, R143): the tag's words come, the half's cells run, and no phase is about
to declare an IMON fault (R158). -/
def State.decidesNow (s : State) (c : CtxId) (h : HalfId) : Bool :=
  s.innerTime && decide (c.val ≠ 0) && s.decides c && !(s.sum.half h).stopped s.enables
    && phaseIds.all (fun q => decide (s.ph[q].fullRun < 24) && decide (s.ph[q].irefRun < 24))
/-- No pulse of a half comes to its end, or to TON_MAX, by now (R118, R119). -/
def State.calm (s : State) (h : HalfId) : Bool :=
  phaseIds.all (fun p =>
    let x := (s.half h).ph[p]
    x.pulse.all (fun q => q.endAt.all (fun e => decide (s.steps < e))
      && (q.fall.isSome || decide (x.state ≠ .on) || decide (s.steps < q.start + x.act.tonMax))))
/-- A phase that may start at this tag (R115, R119): its timing words are those it reloads in the tag (R125). -/
def State.mayPulse (s : State) (c : CtxId) (h : HalfId) (offtime : Bool) (p : PhaseId) : Bool :=
  let x := (s.half h).ph[p]
  let a := (x.reload s.clk.fast).act
  x.serves c && decide (x.state = .active) && x.pulse.isNone && decide (x.lastEnd + max a.tpause a.thr ≤ 512 * s.enables)
    && (!offtime || decide (x.lastEnd + x.offTime ≤ 512 * s.enables))
/-- How far a phase stands behind the pointer in rotation order; the pointer itself comes last (R115). -/
def pastPointer (ptr p : PhaseId) : Nat := (p.val + 95 - ptr.val) % 96
/-- The due phase (R115). -/
def State.isDue (s : State) (c : CtxId) (h : HalfId) (offtime : Bool) (p : PhaseId) : Bool :=
  s.mayPulse c h offtime p && phaseIds.all (fun q => !s.mayPulse c h offtime q
    || decide (pastPointer (s.half h).cell[c].pointer p ≤ pastPointer (s.half h).cell[c].pointer q))
/-- The presentation tick of a phase at this tag (R99, R118). -/
def State.presentTick (s : State) (c : CtxId) (h : HalfId) (p : PhaseId) : Nat :=
  let k := (s.half h).cell[c]
  let b := decide (s.ctx[c].lastDone = some s.enables)
  presentAt (presentBase s.enables k.presented k.nAct b (b && decide (s.ctx[c].outerCount % 16 = 1))) ((s.half h).bound c) p

/-- The order in which CAUSE takes the causes that arise in one fast tick (R245). -/
def ChCause.order : List ChCause :=
  [.seatLost, .fastTrip, .gateStuck, .startShort, .foldbackTimeout, .gateNotRising, .gateLow, .senseShunt]
/-- The flag of a cause in the channel's own status (table Channel fault causes); that of SENSE_SHUNT stands with the rail's. -/
def Chan.flagOf (x : Chan) : ChCause → Bool
  | .none | .senseShunt => false
  | .seatLost => x.seatLost
  | .fastTrip => x.fastTrip
  | .startShort => x.startShort
  | .foldbackTimeout => x.foldbackTimeout
  | .gateNotRising | .gateLow | .gateStuck => x.passDeviceFail

/-- A boundary of a context that regulates and goes on (R23, R24), with phases that neither join nor leave it (R22). -/
def State.stepsOn (s : State) (c : CtxId) : Bool :=
  s.converting && decide (s.clk.fast % 16 = 0) && s.atBoundary c && decide (s.ctx[c].lastDone ≠ some s.enables) && decide (c.val ≠ 0)
    && s.ctx[c].regulating && s.mayGoOn c && s.dev.rundown.isNone && !(s.avail c).isEmpty && !s.ctx[c].firstStep
    && !(s.sum.half s.serving).stopped s.enables
    && [HalfId.east, .west].all (fun h => phaseIds.all (fun p =>
      let x := (s.half h).ph[p]
      (decide (x.bind ≠ c) || (decide (s.ownerOf p = c) && x.serves c && decide (x.state ≠ .held) && (decide (x.state ≠ .on) || x.pulse.isSome)))
        && (decide (s.ownerOf p ≠ c) || s.follower p || decide (x.bind = c))))

/-- The interfaces serve, the supervisor takes requests, and the request at the head of the queue is the command `cmd` with `n` arguments, all of them
written to its slot (R371, R372, R374). -/
structure State.Asks (s : State) (cmd n : Nat) (r : Req) : Prop where
  serves : s.takes = true
  head : s.mb.queue.head? = some r
  cmd : (s.mb.slot r).cmd = cmd
  narg : (s.mb.slot r).narg = n
  written : n + 1 ≤ (s.mb.slot r).written
  box : r.box ≠ .pmb
  jobs : s.pmb.jobs = []

/-- The request at the head of the queue is taken. -/
def State.taken (s : State) : State := { s with mb := { s.mb with queue := s.mb.queue.tail } }

end Sys2Proof.Machine
end

