-- ==== Sys2Proof/Certificates/Slice0/Obligations.lean ====
section
/-!
DEFINITION. Statements of this model for the provers, one after another in the order of OBLIGATIONS.json. Each says which rules of
the spec it formalises; one that rests on a choice of the model names its log entry.
-/
open Sys2Proof Sys2Proof.Machine

/-- One step takes the command at the front of the queue and runs it on the state with the queue's rest. -/
def Obligations.StepRunsFront : Prop :=
  ∀ (c : Instr) (s : State), step { s with pending := c :: s.pending } = exec c s

/-- On an empty queue one fast tick passes, and away from the edge of a fab cycle it runs no command's machinery: a clocked block
counts it, field time takes the rate and is latched for the broadcast at a tag's first fast tick; without a clock only the
Heath's own time passes and the copies of the safe-state logic are voted. At the edge the bits and counts that the fab cycle has set
read on, and no longer as set in this cycle (R7); an idle write engine takes the next work in the order of R331, in every state but COLD
and HOLDUP; and PMBus writes at the head of the requests have their turn (R372). That the empty queue is a tick, and that the engine takes
work at this edge, are the model's choices (log entries 2, 143). -/
def Obligations.IdleStepIsOneTick : Prop :=
  (∀ s : State, s.pending = [] → (s.clk.time + 1) % 4 ≠ 0 →
    (s.clocked = true → ∃ t, step s = .next t ∧ t.clk.fast = s.clk.fast + 1 ∧ t.clk.time = s.clk.time + 1 ∧
      t.ft.ft = (s.ft.ft + s.ft.rate) % 2 ^ 88 ∧ t.ft.ftTag = (if (s.clk.fast + 1) % 16 = 0 then t.ft.ft else s.ft.ftTag) ∧
      t.dev = s.dev ∧ t.mb = s.mb ∧ t.nv = s.nv ∧ t.led = s.led ∧ t.commits = s.commits ∧ t.gInF = s.gInF ∧ t.gAcc = s.gAcc ∧
      t.holder = s.holder ∧ (s.sum.arbBad = 0 → t.cairn = s.cairn) ∧ t.pending = []) ∧
    (s.clocked = false → step s = .next { s with clk := { s.clk with time := s.clk.time + 1 }, sum := s.sum.safeVote })) ∧
  (∀ s : State, s.pending = [] → (s.clk.time + 1) % 4 = 0 → s.dev.lost = [] → s.pmb.jobs = [] → s.nv.routine = [] → ∃ t, step s = .next t ∧
    t.dev = s.dev ∧ t.clk.time = s.clk.time + 1 ∧ t.commits = s.commits ∧ t.gInF = s.gInF ∧ t.gAcc = s.gAcc ∧ t.mb.queue = s.mb.queue ∧
    t.led.sticky = s.led.sticky ∧ t.ft.sticky = s.ft.sticky ∧ t.th.sticky = s.th.sticky ∧ t.tokenSticky = s.tokenSticky ∧
    t.led.torn = false ∧ t.ft.stepped = false ∧ t.th.fWarn = false ∧ t.tokErr = false ∧ t.tokCount = 0 ∧
    (∀ c : CtxId, t.ctx[c].lawSticky = s.ctx[c].lawSticky ∧ t.ctx[c].prot.sticky = s.ctx[c].prot.sticky ∧
      t.ctx[c].chan.sticky = s.ctx[c].chan.sticky ∧ t.ctx[c].prot.declCount = 0 ∧ t.ctx[c].redirects = 0 ∧ t.ctx[c].chan.tripCount = 0 ∧
      t.ctx[c].tarn.tie = none) ∧
    ((s.dev.st = .cold ∨ s.dev.st = .holdup ∨ s.nv.work ≠ .idle) → t.nv.work = s.nv.work) ∧
    (s.dev.st ≠ .cold → s.dev.st ≠ .holdup → s.nv.work = .idle →
      (s.nv.erasing = true → t.nv.work = .erase) ∧
      (s.nv.erasing = false → s.cairn.queue ≠ [] → t.nv.work = .cairn) ∧
      (s.sum.arbBad = 0 → s.nv.erasing = false → s.cairn.queue = [] →
        (s.nv.hostQueue ≠ [] → t.nv.work = .host) ∧
        (s.nv.hostQueue = [] → s.cal.writing.isSome = true → t.nv.work = .cal) ∧
        (s.nv.hostQueue = [] → s.cal.writing = none → s.routineDeferred = true → t.nv.work = .idle) ∧
        (s.nv.hostQueue = [] → s.cal.writing = none → s.routineDeferred = false → s.nv.held = false → s.consolidationDue = true →
          t.nv.work = .consolidate)))) ∧
  (∀ (s : State) (j : PmbJob), s.pending = [] → (s.clk.time + 1) % 4 = 0 → s.dev.lost = [] → s.takes = true → s.nv.work ≠ .idle →
    s.mb.queue = [⟨.pmb, 0⟩] → s.pmb.jobs = [j] →
    let u := s.pass.newCycle.deferStep
    step s = .next (({ u with mb := { u.mb with queue := [] }, pmb := { u.pmb with jobs := [] } } : State).runJob j))

/-- What reset leaves of DEV.STATE (R38). Every slot of both mailboxes is EMPTY after BOOT, and no request waits (R369). -/
def Obligations.ResetState : Prop :=
  (State.reset.dev.st = .boot ∧ State.reset.devStateWord = 1 ∧ State.reset.dev.runReq = false ∧ State.reset.holder = none) ∧
  (∀ k : Fin 4, State.reset.mb.m0[k].st = .empty ∧ State.reset.mb.m1[k].st = .empty ∧ State.reset.mb.queue = [] ∧
    State.reset.mb.events = [])

/-- The record store keeps its canonical form, the event queue holds at most 64 entries and the Cairn queue at most 16 requests, at
reset. -/
def Obligations.BoundsAtReset : Prop :=
  Bounds State.reset

/-- Every step that answers a next state keeps the canonical form of the record store, the 64 entries of the event queue and the 16
requests of the Cairn queue. -/
def Obligations.BoundsKept : Prop :=
  ∀ s t : State, Bounds s → step s = .next t → Bounds t

/-- The release floor never falls, whatever the step. -/
def Obligations.FloorNeverFalls : Prop :=
  ∀ s t : State, step s = .next t → s.sum.floor.toNat ≤ t.sum.floor.toNat

/-- No command touches the queue of waiting commands, and every command answers a next state: the block has no stop. That a
command whose condition does not hold, or that comes before its instant, changes nothing and still answers one is the model's choice (log entry
3), and so is that the operands bring what an event carries from outside (log entry 11). -/
def Obligations.EveryCommandCompletes : Prop :=
  ∀ (c : Instr) (s : State), ∃ t, exec c s = .next t ∧ t.pending = s.pending

/-- The device changes state in a step only as the table Device state transitions lists, each transition by its triggers: a command's own,
where SAFE is entered by SAFE_N, a clock loss, the loss of the last half, a cause at the arbitration or a fault response; a due write of
RUN_REQ or SAFE_CLR at a commit tag; and with no command waiting a trigger that lost in the fab cycle before (R33, R34, R36, R444). At the
edge of a fab cycle the losers are examined again against the state as it stands, HOLDUP first, then RESET_N, SAFE and the others (R34).
That a tick is the step of an empty queue is the model's choice (log entry 2), and so is that the commands waiting in the queue fall in
the present fab cycle (log entry 131). -/
def Obligations.DeviceTransitions : Prop :=
  (∀ s t : State, step s = .next t →
    (∀ (c : Instr) (rest : List Instr), s.pending = c :: rest → c ≠ .commitTag → t.dev.st = s.dev.st ∨ Moves c s t) ∧
    (∀ rest : List Instr, s.pending = .commitTag :: rest → t.dev.st = s.dev.st ∨ CommitMoves s t) ∧
    (s.pending = [] → t.dev.st = s.dev.st ∨ ((s.clk.time + 1) % 4 = 0 ∧ AgainMoves s t))) ∧
  (∀ s : State, s.pending = [] → (s.clk.time + 1) % 4 = 0 → s.dev.movedAt ≠ some ((s.clk.time + 1) / 4) → s.pmb.jobs = [] →
    ∃ t, step s = .next t ∧
      (.holdup ∈ s.dev.lost → s.dev.st.powered = true → s.dev.vinOn = false → t.dev.st = .holdup ∧ t.dev.runReq = false) ∧
      (.reset ∈ s.dev.lost → s.dev.st.resets = true → (.holdup ∉ s.dev.lost ∨ s.dev.vinOn = true) →
        t.dev.st = .boot ∧ t.holder = none ∧ t.gInF = globReset) ∧
      (s.dev.lost = [.safe] → s.safeFrom = true → s.dev.caused = true → t.dev.st = .safe ∧ t.dev.runReq = false ∧ t.dev.lost = []) ∧
      (s.dev.lost = [.safe] → (s.safeFrom = false ∨ s.dev.caused = false) → t.dev.st = s.dev.st ∧ t.dev.lost = []) ∧
      (s.dev.lost = [.run] → s.dev.st = .standby → s.dev.runReq = true → t.dev.st = .run) ∧
      (s.dev.lost = [.run] → s.dev.st ≠ .standby → t.dev.st = s.dev.st) ∧
      (s.dev.lost = [.standby] → s.dev.st = .safe → (s.dev.caused = false → t.dev.st = .standby) ∧ (s.dev.caused = true → t.dev.st = .safe)) ∧
      (s.dev.lost = [.standby] → s.dev.st = .boot → s.dev.bootStep = 6 →
        (s.gp .autoRun ≠ 2 → t.dev.st = .standby) ∧ (s.gp .autoRun = 2 → t.dev.st = .run ∧ t.dev.runReq = true)) ∧
      (∀ u : Nat, s.dev.rundown = some u → s.dev.lost = [.standby] → s.dev.st = .run → u + 100 * msTicks ≤ s.clk.time + 1 →
        t.dev.st = .standby ∧ t.dev.rundown = none) ∧
      (s.dev.lost = [] → t.dev.st = s.dev.st))

/-- VIN above the on-threshold takes COLD to the start of BOOT: parameters at their resets, channels UNSEATED, halves with no
holder, and the record store and the release floor as they were; the newest Cairn sequence is that of a record of the ring, such that
none of the ring's is newer, wherever their sequences lie within half the range of one another (R33, R35, R347, R482). A ring that holds
no record keeps the sequence, and the count of challenges lives on in the part: the model's choices (log entries 65 and 9). In every
other state the level alone is taken. -/
def Obligations.PowerUp : Prop :=
  (∀ s : State, s.dev.st = .cold → Completes .vinUvloRise s (fun t =>
    t.dev.st = .boot ∧ t.dev.vinOn = true ∧ t.dev.bootStep = 1 ∧ t.dev.drivers = false ∧ t.dev.powerUp = true ∧ t.dev.runReq = false ∧
    t.holder = none ∧ t.gInF = globReset ∧ t.gAcc = globReset ∧
    (∀ c : CtxId, t.ctx[c].inF = ctxParReset ∧ t.ctx[c].chan.st = .unseated) ∧
    (∀ p : PhaseId, t.ph[p].inF = phParReset) ∧ t.nv.mem = s.nv.mem ∧ (s.nv.cairnRecords = [] → t.cairn.newest = s.cairn.newest) ∧
    (s.nv.cairnRecords ≠ [] → ∃ r ∈ s.nv.cairnRecords, t.cairn.newest = r.seq) ∧
    (∀ b : Nat, (∀ r ∈ s.nv.cairnRecords, serialDist 32 b r.seq < 2 ^ 31) →
      ∀ r ∈ s.nv.cairnRecords, serialNewer 32 r.seq t.cairn.newest = false) ∧
    t.sum.floor = s.sum.floor ∧ t.mb.m0 = State.reset.mb.m0 ∧ t.mb.m1 = State.reset.mb.m1 ∧ t.mb.challenges = s.mb.challenges)) ∧
  (∀ s : State, s.dev.st ≠ .cold → exec .vinUvloRise s = .next { s with dev := { s.dev with vinOn := true } })

/-- Steps 2 and 3 of the boot sequence and the pin drivers: step 5 of the power-up enables the drivers, step 6 brings the supplies up
behind it, and after a dip the rails' own recovery is step 2 (R40, R444, R448); the resistor at PMB_ADDR gives the PMBus address. The
self-test window closes and the summit is arbitrated: East holds it if eligible, else West; with neither, SAFE is entered with NO_HALF
(R40 step 4, R33, R390). -/
def Obligations.BootSteps : Prop :=
  ((∀ s : State, s.dev.st = .boot → s.dev.powerUp = true → exec .pinDriversEnabled s = .next { s with dev := { s.dev with drivers := true } }) ∧
  (∀ s : State, s.dev.st = .boot → s.dev.powerUp = true → s.dev.drivers = true → Completes .selfSuppliesUp s (fun t =>
    t.dev.powerUp = false ∧ t.dev.drivers = true ∧ t.dev.bootStep = (if s.dev.uv then s.dev.bootStep else max s.dev.bootStep 2) ∧
    t.dev.st = .boot ∧ t.clk = s.clk ∧ t.nv = s.nv ∧ t.sum = s.sum)) ∧
  (∀ s : State, s.dev.st = .boot → (s.dev.powerUp = false ∨ s.dev.drivers = false) → exec .selfSuppliesUp s = .next s) ∧
  (∀ (refClock : Bool) (ohm : Nat) (s : State), s.dev.st = .boot → s.dev.bootStep = 2 → s.dev.rstLow = false →
    s.dev.uvIo = false → s.dev.uvA = false → s.dev.uvH = false → exec (.heathSyncPulse refClock ohm) s =
    .next { s with dev := { s.dev with bootStep := 3 }
                   clk := { s.clk with fast := 0, synced := true, srcRef := refClock, rootOk := true, lockE := true, lockW := true,
                                       lockH := true }
                   ft := {}
                   pmb := { s.pmb with addr := 0x40 + (pmbStrap ohm).val } }) ∧
  (∀ ohm : Nat, ohm ≤ 100 → pmbStrap ohm = 0) ∧
  (∀ (k : Fin 14) (ohm : Nat), 99 * pmbOhms.getD k.val 0 ≤ 100 * ohm → 100 * ohm ≤ 101 * pmbOhms.getD k.val 0 →
    (pmbStrap ohm).val = k.val + 1)) ∧
  (∀ (east west : Bool) (s : State), s.dev.st = .boot → s.dev.bootStep = 3 → Completes (.selfTestWindowClose east west) s (fun t =>
    t.dev.bootStep = 4 ∧ (east = false → t.sum.east.eligible = false) ∧ (west = false → t.sum.west.eligible = false) ∧
    (t.sum.east.eligible = true → t.holder = some .east) ∧
    (t.sum.east.eligible = false → t.sum.west.eligible = true → t.holder = some .west) ∧
    (t.sum.east.eligible = false → t.sum.west.eligible = false →
      t.holder = none ∧ t.dev.causeNoHalf = true ∧ (s.mayMove .safe = true → t.dev.st = .safe ∧ t.dev.runReq = false)) ∧
    t.nv = s.nv ∧ t.gInF = s.gInF))

/-- Steps 5 and 6 of the boot sequence: a store without a valid configuration sets CFG_DEFAULTED, one without a calibration
CAL_DEFAULTED; the ledger of a blank store opens run 1. The end of BOOT enters STANDBY, or RUN where AUTO_RUN is 1; a step that
ends in SAFE stays there (R33, R40, R165, R344, R439). That steps 5 and 6 go on in SAFE is the model's reading (log entry 16). -/
def Obligations.BootEnds : Prop :=
  (∀ s : State, s.bootAt 4 = true → Completes .configRestore s (fun t =>
    t.dev.bootStep = 5 ∧ t.dev.st = s.dev.st ∧ t.dev.restored = true ∧ (s.nv.savedConfig = none → t.dev.cfgDefaulted = true) ∧
    (s.nv.records .q3 = [] → t.dev.calDefaulted = true) ∧ t.clk = s.clk ∧ t.pending = s.pending)) ∧
  (∀ s : State, s.bootAt 5 = true → Completes .ledgerRecovery s (fun t =>
    t.dev.bootStep = 6 ∧ t.led.lastTake = s.clk.time ∧ t.pending = s.pending ∧
    (s.nv.records .q1 = [] → (∀ k : Nat, k < 1024 → s.nv.tally k = .erased) → t.led.run = 1) ∧
    (s.dev.st ≠ .boot → t.dev.st = s.dev.st) ∧
    (s.dev.st = .boot → s.mayMove .standby = true →
      (s.gp .autoRun ≠ 2 → t.dev.st = .standby ∧ t.dev.runReq = s.dev.runReq) ∧
      (s.gp .autoRun = 2 → t.dev.st = .run ∧ t.dev.runReq = true))))

/-- VIN below the off-threshold takes the device into HOLDUP: the hold switch closes, no rail regulates, RUN_REQ clears, a host-
initiated write and a calibration in progress are abandoned, and the last gasp begins; an idle write engine has programmed
nothing (R33, R37, R333, R353). Where another transition is taken in the same fab cycle, the trigger is examined again in the
next (R34); in COLD and in HOLDUP the level alone changes. Which work of the write engine is given up and which is completed is the model's
reading (log entries 92, 146). -/
def Obligations.HoldupEntry : Prop :=
  (∀ s : State, (s.dev.st = .boot ∨ s.dev.st = .standby ∨ s.dev.st = .run ∨ s.dev.st = .safe) → s.mayMove .holdup = true →
    Completes .vinUvloFall s (fun t =>
      t.dev.st = .holdup ∧ t.dev.vinOn = false ∧ t.dev.holdSwitch = true ∧ t.dev.runReq = false ∧ t.nv.hostWrite = none ∧
      t.nv.hostQueue = [] ∧ t.nv.work = .idle ∧ t.nv.routine = [] ∧ t.cal.running = none ∧ t.cal.writing = none ∧ t.cairn.gaspStage = 0 ∧
      t.cairn.gaspCell = none ∧ (∀ c : CtxId, c.val ≠ 0 → t.ctx[c].regulating = false) ∧ (s.nv.work = .idle → t.nv.mem = s.nv.mem) ∧
      t.pending = s.pending)) ∧
  (∀ s : State, (s.dev.st = .boot ∨ s.dev.st = .standby ∨ s.dev.st = .run ∨ s.dev.st = .safe) → s.mayMove .holdup = false →
    Completes .vinUvloFall s (fun t => t.dev.st = s.dev.st ∧ t.dev.vinOn = false ∧ .holdup ∈ t.dev.lost ∧ t.nv = s.nv ∧ t.ctx = s.ctx)) ∧
  (∀ s : State, (s.dev.st = .cold ∨ s.dev.st = .holdup) → exec .vinUvloFall s = .next { s with dev := { s.dev with vinOn := false } })

/-- In HOLDUP, within the die window of R335, the write engine programs the last gasp cell by cell: with a cell in progress, its
eight bytes go to its address and nothing else changes but what is left of the record (R323, R353). HOLDUP ends: when the last
gasp is over or is stopped at 4.5 V, VIN chooses BOOT or COLD; below the VHOLD minimum the device enters COLD (R33, R446, R447).
The record store stays as it was programmed. -/
def Obligations.HoldupGaspAndEnd : Prop :=
  (∀ (s : State) (a : Nat) (b : List Byte), s.dev.st = .holdup → s.dieWithin (-5120) 16000 = true → s.cairn.gaspCell = some (a, b) →
    exec (.lastGasp 1) s = .next { s with
      nv := { s.nv with mem := Memory.writeList 0xFF s.nv.mem a (b.take 8) }
      cairn := { s.cairn with gaspCell := if (b.drop 8).isEmpty then none else some (a + 8, b.drop 8) } }) ∧
  ((∀ s : State, s.dev.st = .holdup → s.gaspOver = true → Completes .lastGaspComplete s (fun t =>
    t.dev.st = (if s.dev.vinOn then .boot else .cold) ∧ t.nv.mem = s.nv.mem ∧ t.sum.floor = s.sum.floor)) ∧
  (∀ s : State, s.dev.st = .holdup → Completes .lastGaspStop s (fun t =>
    t.dev.st = (if s.dev.vinOn then .boot else .cold) ∧ t.nv.mem = s.nv.mem ∧ t.sum.floor = s.sum.floor)) ∧
  (∀ s : State, s.dev.st = .holdup → Completes .vholdMinimum s (fun t =>
    t.dev.st = .cold ∧ t.nv.mem = s.nv.mem ∧ t.sum.floor = s.sum.floor ∧ t.gInF = globReset)))

/-- RESET_N: a low of 0.8 µs is taken, one of 0.5 µs is not; it restarts BOOT from BOOT, STANDBY, RUN and SAFE and is ignored in
HOLDUP (R33, R35, R450). A BOOT puts every parameter at its reset value and keeps the record store. A low that meets another
transition of its fab cycle is examined again in the next (R34). -/
def Obligations.ResetN : Prop :=
  (∀ (ns : Nat) (s : State), 800 ≤ ns → (s.dev.st = .boot ∨ s.dev.st = .standby ∨ s.dev.st = .run ∨ s.dev.st = .safe) →
    s.mayMove .reset = true → Completes (.resetNLow ns) s
    (fun t => t.dev.st = .boot ∧ t.dev.rstLow = true ∧ t.gInF = globReset ∧ t.gAcc = globReset ∧ t.dev.runReq = false ∧
      t.holder = none ∧ t.nv.mem = s.nv.mem ∧ t.sum.floor = s.sum.floor ∧ t.commits = [])) ∧
  (∀ (ns : Nat) (s : State), 800 ≤ ns → (s.dev.st = .boot ∨ s.dev.st = .standby ∨ s.dev.st = .run ∨ s.dev.st = .safe) →
    s.mayMove .reset = false → Completes (.resetNLow ns) s
    (fun t => t.dev.st = s.dev.st ∧ t.dev.rstLow = true ∧ .reset ∈ t.dev.lost ∧ t.gInF = s.gInF ∧ t.ctx = s.ctx ∧ t.nv = s.nv)) ∧
  (∀ (ns : Nat) (s : State), 800 ≤ ns → (s.dev.st = .holdup ∨ s.dev.st = .cold) →
    exec (.resetNLow ns) s = .next { s with dev := { s.dev with rstLow := true } }) ∧
  (∀ (ns : Nat) (s : State), ns ≤ 500 → exec (.resetNLow ns) s = .next s) ∧
  (∀ s : State, exec .resetNRise s = .next { s with dev := { s.dev with rstLow := false } })

/-- Supplies: VDD_IO, VDDA and VDD_H in undervoltage act as RESET_N; a core rail's undervoltage costs its half its eligibility; a
recovered rail is good again (R290, R444). SAFE_N: a low of 100 ns in STANDBY or RUN forces every output stage and enters SAFE
with SAFE_CAUSE.PIN; RUN_REQ clears and no rail regulates; before the summit is arbitrated the cause alone is kept. A low shorter
than 50 ns changes no more than the level (R33, R34, R37, R39, R312, R313). -/
def Obligations.SuppliesAndSafeN : Prop :=
  ((∀ (r : Supply) (s : State), r ≠ .e → r ≠ .w → (s.dev.st = .boot ∨ s.dev.st = .standby ∨ s.dev.st = .run ∨ s.dev.st = .safe) →
    s.mayMove .reset = true →
    Completes (.supplyUndervoltage r) s (fun t => t.dev.st = .boot ∧ t.gInF = globReset ∧ t.nv.mem = s.nv.mem)) ∧
  (∀ (h : HalfId) (s : State), (s.dev.st = .boot ∨ s.dev.st = .standby ∨ s.dev.st = .run ∨ s.dev.st = .safe) →
    exec (.coreUndervoltage h) s = .next ((({ s with dev := s.dev.setUv (match h with | .east => .e | .west => .w) true } : State).modHs h
      (fun x => { x with coreUv := true, eligible := false, resyncing := false, resyncTag := none, resyncCopied := false,
                         resyncBad := false })))) ∧
  (∀ s : State, exec (.supplyUndervoltage .e) s = exec (.coreUndervoltage .east) s ∧
    exec (.supplyUndervoltage .w) s = exec (.coreUndervoltage .west) s) ∧
  (∀ (r : Supply) (s : State), s.dev.st ≠ .boot → Completes (.supplyRecovered r) s (fun t =>
    t.dev = s.dev.setUv r false ∧ t.sum = (match r with
      | .e => s.sum.mod .east (fun x => { x with coreUv := false })
      | .w => s.sum.mod .west (fun x => { x with coreUv := false })
      | _ => s.sum) ∧ t.ctx = s.ctx ∧ t.ph = s.ph ∧ t.nv = s.nv ∧ t.gInF = s.gInF)) ∧
  (∀ (r : Supply) (s : State), s.dev.st = .boot → Completes (.supplyRecovered r) s (fun t =>
    t.dev.st = .boot ∧ t.dev.uvIo = (s.dev.setUv r false).uvIo ∧ t.dev.uvE = (s.dev.setUv r false).uvE ∧ s.dev.bootStep ≤ t.dev.bootStep ∧
    t.ctx = s.ctx ∧ t.ph = s.ph ∧ t.nv = s.nv ∧ t.gInF = s.gInF))) ∧
  ((∀ (ns : Nat) (held : Bool) (s : State), 100 ≤ ns → s.safeFrom = true → s.mayMove .safe = true → Completes (.safeNLow ns held) s
    (fun t => t.dev.st = .safe ∧ t.dev.causePin = true ∧ t.dev.safeNLow = held ∧ t.dev.runReq = false ∧ t.dev.rundown = none ∧
      (∀ p : PhaseId, t.ph[p].forced = true) ∧ (∀ c : CtxId, c.val ≠ 0 → t.ctx[c].regulating = false) ∧ t.nv = s.nv ∧ t.gInF = s.gInF)) ∧
  (∀ (ns : Nat) (held : Bool) (s : State), 100 ≤ ns → s.safeFrom = false → Completes (.safeNLow ns held) s
    (fun t => t.dev.st = s.dev.st ∧ t.dev.causePin = true ∧ t.dev.safeNLow = held ∧ t.ctx = s.ctx ∧ t.ph = s.ph ∧ t.nv = s.nv)) ∧
  (∀ (ns : Nat) (held : Bool) (s : State), ns < 50 →
    exec (.safeNLow ns held) s = .next { s with dev := { s.dev with safeNLow := s.dev.safeNLow && held } }))

/-- The clock: a loss forces every output stage and enters SAFE with SAFE_CAUSE.CLOCK, counted once; its return restarts the sample
tag at 0, clears LOCKED, keeps field time, and in SAFE leaves no half eligible until it requalifies (R32, R34, R309, R310). -/
def Obligations.ClockLossAndReturn : Prop :=
  (∀ (cause : ClockCause) (s : State), s.clk.synced = true → s.clk.ok = true → s.safeFrom = true → s.mayMove .safe = true →
    Completes (.clockLoss cause) s (fun t => t.dev.st = .safe ∧ t.dev.causeClock = true ∧ t.dev.runReq = false ∧ t.clk.ok = false ∧
      t.clk.lossCount = (if s.clk.lossCount < 255 then s.clk.lossCount + 1 else s.clk.lossCount) ∧ (∀ p : PhaseId, t.ph[p].forced = true) ∧
      t.nv = s.nv ∧ t.gInF = s.gInF)) ∧
  (∀ (cause : ClockCause) (s : State), s.clk.synced = true → s.clk.ok = false →
    exec (.clockLoss cause) s = .next { s with clk := s.clk.lose cause }) ∧
  (∀ s : State, s.clk.synced = true → s.clk.ok = false → s.dev.st = .safe → Completes .clockReturn s (fun t =>
    t.clk.fast = 0 ∧ t.clk.ok = true ∧ t.ft.locked = false ∧ t.ft.ft = s.ft.ft ∧ t.holder = none ∧ t.sum.east.eligible = false ∧
      t.sum.west.eligible = false ∧ t.sum.testing = true ∧ t.dev = s.dev ∧ t.nv = s.nv ∧ t.gInF = s.gInF)) ∧
  (∀ s : State, s.clk.synced = true → s.clk.ok = false → s.dev.st ≠ .safe → Completes .clockReturn s (fun t =>
    t.clk.fast = 0 ∧ t.clk.ok = true ∧ t.ft.locked = false ∧ t.ft.ft = s.ft.ft ∧ t.holder = s.holder ∧ t.dev = s.dev ∧ t.nv = s.nv ∧
      t.gInF = s.gInF)) ∧
  (∀ s : State, s.clk.ok = true → exec .clockReturn s = .next s)

/-- RUN_REQ, RUNDOWN and SAFE_CLR: an accepted write of DEV.RUN_CTL waits for the global commit tag and changes nothing else;
the register holds all of them, and a row of one of them writes the others as they read: AUTO_RUN by all three, RUN_REQ by SAFE_CLR (the
model's reading, log entry 77) (R25, R38). -/
def Obligations.RunControlWrites : Prop :=
  ∀ (i : Iface) (s : State), s.carries i = true →
    let auto : Int := if s.gNew .autoRun = 2 then 2 else 0
    let run (on : Bool) : List Commit := [⟨s.globTag, .glob .autoRun auto⟩, ⟨s.globTag, .runReq on⟩]
    let after (l : List Commit) : State := { s with
      gAcc := (s.setGlobNew .autoRun auto).gAcc, commits := s.commits ++ l, mb := { s.mb with lastAnswer := 0 } }
    exec (.runReq i) s = .next (after (run true)) ∧
    exec (.rundown i) s = .next (after (run false)) ∧
    exec (.safeClr i) s = .next (after (run s.runReqNew ++ [⟨s.globTag, .safeClr⟩]))

/-- At their commit tag, with the AUTO_RUN that the same write of RUN_CTL brings: RUN_REQ = 1 takes STANDBY to RUN; RUN_REQ = 0 starts
a rundown of RUN, in which every section channel has its OFF command; SAFE_CLR clears each of the four causes whose condition has ended,
and did not come again in this fab cycle, and leaves SAFE for STANDBY only when none is left (R33, R34, R36, R38, R39, R262, R311). What
ends a fault that forced SAFE is State.faultOver (log entry 31). A rundown ends in STANDBY: once no rail regulates and no phase is in a
pulse, or 100 ms after it began, when every rail still running is parked at once (R36). Before that neither event does anything (log
entry 3). -/
def Obligations.RunAndRundown : Prop :=
  (∀ (s : State) (n : Nat) (a : Int), n ≤ s.enables →
    (s.commits = [⟨n, .glob .autoRun a⟩, ⟨n, .runReq true⟩] →
      (s.dev.st = .standby → s.mayMove .run = true → Completes .commitTag s (fun t =>
        t.dev.st = .run ∧ t.dev.runReq = true ∧ t.gp .autoRun = a ∧ t.dev.compatEn = decide (s.gNew .compat = 1) ∧ t.nv = s.nv)) ∧
      (s.dev.st = .standby → s.mayMove .run = false → Completes .commitTag s (fun t =>
        t.dev.st = .standby ∧ t.dev.runReq = true ∧ .run ∈ t.dev.lost ∧ t.gp .autoRun = a)) ∧
      (s.dev.st ≠ .standby → Completes .commitTag s (fun t =>
        t.dev = { s.dev with runReq := true } ∧ t.gp .autoRun = a ∧ t.ctx = s.ctx ∧ t.nv = s.nv))) ∧
    (s.commits = [⟨n, .glob .autoRun a⟩, ⟨n, .runReq false⟩] → s.dev.st = .run → s.dev.rundown = none → Completes .commitTag s (fun t =>
      t.dev.st = .run ∧ t.dev.runReq = false ∧ t.dev.rundown = some s.clk.time ∧ t.gp .autoRun = a ∧
      (∀ c : CtxId, c.val ≠ 0 → t.ctx[c].chan.on = false) ∧ t.nv = s.nv)) ∧
    (∀ on : Bool, s.commits = [⟨n, .glob .autoRun a⟩, ⟨n, .runReq on⟩, ⟨n, .safeClr⟩] → s.dev.st = .safe → s.mayMove .standby = true →
      let again (k : SafeCause) : Bool := decide (s.dev.causeAt[k.ix] = some s.fab)
      Completes .commitTag s (fun t =>
        t.dev.causePin = (s.dev.causePin && (s.dev.safeNLow || again .pin)) ∧
        t.dev.causeNoHalf = (s.dev.causeNoHalf && (s.holder.isNone || again .noHalf)) ∧
        t.dev.causeClock = (s.dev.causeClock && (!s.clk.ok || !s.clk.synced || s.holder.isNone || again .clock)) ∧
        t.dev.causeFault = (s.dev.causeFault && (!s.faultOver || again .fault)) ∧
        (t.dev.st = .standby ↔ t.dev.causePin = false ∧ t.dev.causeNoHalf = false ∧ t.dev.causeClock = false ∧ t.dev.causeFault = false) ∧
        (t.dev.st ≠ .standby → t.dev.st = .safe) ∧ t.dev.runReq = on ∧ t.gp .autoRun = a ∧ t.nv = s.nv))) ∧
  ((∀ s : State, s.dev.st = .run → s.dev.rundown.isSome = true → (∀ c : CtxId, s.ctx[c].regulating = false) →
    (∀ p : PhaseId, (s.hph p).pulse = none) → s.mayMove .standby = true →
    Completes .rundownComplete s (fun t => t.dev.st = .standby ∧ t.dev.rundown = none ∧ t.nv.mem = s.nv.mem ∧ t.gInF = s.gInF)) ∧
  (∀ s : State, s.dev.st = .run → s.rundownOver = true → s.mayMove .standby = false → exec .rundownComplete s =
    .next { s with dev := { s.dev with lost := if .standby ∈ s.dev.lost then s.dev.lost else s.dev.lost ++ [.standby] } }) ∧
  (∀ (s : State) (c : CtxId), s.ctx[c].regulating = true → exec .rundownComplete s = .next s) ∧
  (∀ (s : State) (p : PhaseId) (q : Pulse), (s.hph p).pulse = some q →
    (q.fall.isSome = true → q.endAt.all (fun e => decide (s.steps < e)) = true → exec .rundownComplete s = .next s) ∧
    (q.fall = none → q.endAt = none → s.steps < q.start + (s.hph p).act.tonMax → exec .rundownComplete s = .next s)) ∧
  (∀ (s : State) (n : Nat), s.dev.st = .run → s.dev.rundown = some n → n + 40000000 ≤ s.clk.time →
    Completes .rundownLimit s (fun t => (s.mayMove .standby = true → t.dev.st = .standby ∧ t.dev.rundown = none) ∧
      (∀ c : CtxId, t.ctx[c].regulating = false) ∧ (∀ p : PhaseId, (t.hph p).pulse = none ∨ (t.hph p).state = .unbound) ∧ t.gInF = s.gInF)) ∧
  (∀ (s : State) (n : Nat), s.dev.rundown = some n → s.clk.time < n + 40000000 → exec .rundownLimit s = .next s))

/-- HANDOVER, ARM and TARN_RELEASE, of class UR: a write through M1 is accepted and waits for its commit tag; a write through M0 or
PMBus is refused and changes nothing, as is one of the other registers that only M1 may write (R7, R25, R174, R295, R418). In the
compatibility view context 0 has no target, and DEV.COMPAT and its map are refused for the state outside STANDBY (R481). At their commit
tag: the holder of an eligible shadow's summit has its release taken, and with no shadow it is refused; ARM takes the load in force and
waits for an edge (log entry 135), or with SRC 0 the load is made at once, and a write that leaves ARM 0 disarms; a quarantined context is
released. -/
def Obligations.RestrictedWrites : Prop :=
  (∀ s : State, s.takes = true →
    (s.mb.session = true →
      exec (.handover .m1) s = .next { s with
        sum := { s.sum with handoverBit := true }, commits := s.commits ++ [⟨s.globTag, .handover⟩],
        mb := { s.mb with lastAnswer := 0 } } ∧
      (∀ v : Fin 8, v.val % 4 ≠ 3 → s.gNew .ftCfg = v.val → (v.val % 4 ≠ 0 → s.ftLoad % pulseUs (v.val % 4) = 0) →
        exec (.arm .m1) s = .next { s with
          gAcc := (s.setGlobNew .ftCfg (v.val : Int)).gAcc
          commits := s.commits ++ [⟨s.globTag, .glob .ftCfg v.val⟩, ⟨s.globTag, .ftArm true⟩]
          mb := { s.mb with lastAnswer := 0 } }) ∧
      (∀ c : CtxId, c.val ≠ 0 → exec (.tarnRelease .m1 c) s = .next { s with
        commits := s.commits ++ [⟨s.ctxTag c, .tarnRelease c⟩], mb := { s.mb with lastAnswer := 0 } }) ∧
      exec (.tarnRelease .m1 0) s = .next { s with mb := { s.mb with lastAnswer := ansState } }) ∧
    (∀ (i : Iface) (c : CtxId) (p : PhaseId) (k : Fin 32) (seq w : Word) (m : Fin 6), i ≠ .m1 →
      let refused (a : Nat) : State := { s with mb := { s.mb with lastAnswer := a } }
      (∀ r ∈ [Instr.handover i, .arm i, .fwErase i, .fwVerify i, .fwRestart i, .cairnAck i seq, .cairnErase i,
        .railP1 i c, .railP2 i c, .phaseGain i p, .shuntGain i c, .ledgerResolveAdd i k, .ledgerResolveDismiss i k, .ledgerMarkClr i c],
        exec r s = .next (refused ansAccess)) ∧
      exec (.tarnRelease i c) s = .next (refused (if s.dev.compatEn = true ∧ c.val = 0 then ansNoIndex else ansAccess)) ∧
      (∀ r ∈ [Instr.compat i w, .compatMap i m w],
        exec r s = .next (refused (if s.dev.compatEn = true ∧ s.dev.st ≠ .standby then ansState else ansAccess))))) ∧
  (∀ (s : State) (n : Nat) (v : Fin 8), s.commits = [⟨n, .glob .ftCfg v.val⟩, ⟨n, .ftArm true⟩] → n ≤ s.enables → Completes .commitTag s (fun t =>
    t.gp .ftCfg = v.val ∧ t.ft.armLoad = s.ftLoadInForce ∧
    (v.val % 4 ≠ 0 → t.ft.armBit = true ∧ t.ft.openArm = true ∧ t.ft.ft = s.ft.ft ∧ t.ft.valid = s.ft.valid ∧ t.ctx = s.ctx) ∧
    (v.val % 4 = 0 → t.ft.armBit = false ∧ t.ft.ft = s.ftLoadInForce * 2 ^ 40 % 2 ^ 88 ∧ t.ft.valid = true ∧ t.ft.stepped = true ∧
      t.ft.locked = false) ∧ t.dev = s.dev ∧ t.nv = s.nv)) ∧
  (∀ (s : State) (n : Nat) (v : Fin 8), s.commits = [⟨n, .glob .ftCfg v.val⟩, ⟨n, .ftArm false⟩] → n ≤ s.enables → Completes .commitTag s (fun t =>
    t.gp .ftCfg = v.val ∧ t.ft.armBit = false ∧ t.ft.ft = s.ft.ft ∧ t.ft.valid = s.ft.valid ∧ t.ctx = s.ctx ∧ t.dev = s.dev ∧ t.nv = s.nv)) ∧
  (∀ (s : State) (n : Nat) (h : HalfId), s.commits = [⟨n, .handover⟩] → n ≤ s.enables → s.holder = some h → (s.sum.half h).eligible = true →
    Completes .commitTag s (fun t => t.holder = some h ∧ t.commits = [] ∧
      ((s.sum.half h.other).eligible = true → t.sum.handoverAt = some s.enables ∧ (t.sum.half h).release = true) ∧
      ((s.sum.half h.other).eligible = false → t.sum.fRefused = true ∧ t.sum.handoverBit = false ∧ (t.sum.half h).release = false) ∧
      t.ctx = s.ctx ∧ t.ph = s.ph ∧ t.nv = s.nv)) ∧
  (∀ (s : State) (n : Nat) (c : CtxId), s.commits = [⟨n, .tarnRelease c⟩] → n ≤ s.enables → s.ctx[c].tarn.quarantined = true →
    Completes .commitTag s (fun t => t.ctx[c].tarn.quarantined = false ∧ t.ctx[c].tarn.released = true ∧ t.ctx[c].tarn.run = 0 ∧
      (∀ d : CtxId, d ≠ c → t.ctx[d] = s.ctx[d]) ∧ t.ph = s.ph ∧ t.nv = s.nv))

/-- SEL and VIEW act on acceptance: SEL keeps its writer's own copy, VIEW chooses the bank that reads show. SWAP marks the swap
pending and waits for the context's commit tag; a second SWAP before it is refused. At its commit tag the swap exchanges the
active bank in both halves (R101, R102, R105, R426). Context 0, which the compatibility view has no target for, answers NO_INDEX to a
write of an interface that shows the view (R478, R481). -/
def Obligations.SelSwapView : Prop :=
  (∀ (i : Iface) (c : CtxId) (s : State), s.carries i = true →
    (s.hides i c = true → ∀ w : Word, exec (.sel i c w) s = .next { s with mb := { s.mb with lastAnswer := ansNoIndex } }) ∧
    (∀ w : Word, s.hides i c = false → selOk w = true → exec (.sel i c w) s = .next { s with
      ctx := upd s.ctx c (fun x => x.setSel i (w &&& 0x00733777)), mb := { s.mb with lastAnswer := 0 } }) ∧
    (∀ w : Word, s.hides i c = false → selOk w = false → exec (.sel i c w) s = .next { s with mb := { s.mb with lastAnswer := ansRange } }) ∧
    (c.val ≠ 0 → ∀ v : Bool,
      exec (.view i c v) s = .next { s with
        ctx := upd s.ctx c (fun x => { x with view := v }), mb := { s.mb with lastAnswer := 0 } } ∧
      (s.ctx[c].swapPending = false → exec (.swap i c v) s = .next { s with
        ctx := upd s.ctx c (fun x => { x with view := v, swapPending := true })
        commits := s.commits ++ [⟨s.ctxTag c, .swap c⟩], mb := { s.mb with lastAnswer := 0 } }) ∧
      (s.ctx[c].swapPending = true → exec (.swap i c v) s = .next { s with mb := { s.mb with lastAnswer := ansState } }))) ∧
  (∀ (s : State) (n : Nat) (c : CtxId), s.commits = [⟨n, .swap c⟩] → n ≤ s.enables → (∀ h : HalfId, (s.sum.half h).stopped s.enables = false) →
    Completes .commitTag s (fun t => t.ctx[c].swapPending = false ∧ (∀ h : HalfId,
      (t.half h).cell[c].bankBActive = !(s.half h).cell[c].bankBActive ∧ (t.half h).cell[c].bankA = (s.half h).cell[c].bankA ∧
      (t.half h).cell[c].bankB = (s.half h).cell[c].bankB ∧ (∀ d : CtxId, d ≠ c → (t.half h).cell[d] = (s.half h).cell[d])) ∧
      (∀ d : CtxId, d ≠ c → t.ctx[d] = s.ctx[d]) ∧ t.nv = s.nv))

/-- DEV.COMPAT and the map words may be written only in STANDBY: the write shows in reads, and the view and the map in force stay
until the next entry to RUN takes them; a write in any other state is refused, and so is a map word that holds a byte from 96 to
0xFE or names a Spur twice; a refused write changes nothing (R42, R479). -/
def Obligations.CompatWrites : Prop :=
  (∀ (s : State) (w : Word), s.carries .m1 = true →
    let refused (a : Nat) : State := { s with mb := { s.mb with lastAnswer := a } }
    (s.dev.st = .standby → exec (.compat .m1 w) s = .next { s with
      gAcc := (s.setGlobNew .compat ((w.toNat % 2 : Nat) : Int)).gAcc, mb := { s.mb with lastAnswer := 0 } }) ∧
    (s.dev.st ≠ .standby → exec (.compat .m1 w) s = .next (refused ansState)) ∧
    (∀ k : Fin 6,
      (s.dev.st = .standby → s.mapOk k (w.toNat : Int) = true → exec (.compatMap .m1 k w) s = .next { s with
        gAcc := (s.setGlobNew (.compatMap k) (w.toNat : Int)).gAcc, mb := { s.mb with lastAnswer := 0 } }) ∧
      (s.dev.st = .standby → s.mapOk k (w.toNat : Int) = false → exec (.compatMap .m1 k w) s = .next (refused ansRange)) ∧
      (s.dev.st ≠ .standby → exec (.compatMap .m1 k w) s = .next (refused ansState)))) ∧
  (∀ (s : State) (n : Nat) (a : Int), n ≤ s.enables → s.commits = [⟨n, .glob .autoRun a⟩, ⟨n, .runReq true⟩] → s.dev.st = .standby →
    s.mayMove .run = true → Completes .commitTag s (fun t => t.dev.st = .run ∧ t.dev.compatEn = decide (s.gNew .compat = 1) ∧
      ∀ k : Fin 6, t.dev.compatMap[k] = s.gNew (.compatMap k))) ∧
  (∀ s : State, s.bootAt 5 = true → s.dev.st = .boot → s.mayMove .standby = true → s.gp .autoRun = 2 → Completes .ledgerRecovery s (fun t =>
    t.dev.st = .run ∧ t.dev.compatEn = decide (s.gNew .compat = 1) ∧ ∀ k : Fin 6, t.dev.compatMap[k] = s.gNew (.compatMap k)))

/-- A write of a W1C register through an interface that answers clears in that register, and nowhere else, what earlier fab cycles
set, where its bit is written 1; what hardware set in the present fab cycle stays, and each count goes with the flags that its rule names
(R7). Said for every W1C register: LAW_STATUS (R106), SENSE_STATUS (R169), SCH_STATUS (R198), MODE_STATUS (R224), PROBE_STATUS (R226),
FAULT_STATUS, whose DECL_COUNT goes to 0 where every flag then reads 0 (R283), TARN_STATUS (R421), SW_STATUS (R250), SAT_FLAGS (R51) and
PULSE_STATUS (R137) in both halves, and the globals SUMMIT_STATUS (R319), TOKEN_STATUS (R140), IMON_FAULT (R158), FT_STATUS (R177),
THERM_STATUS (R286), NVM_STATUS (R359) and LEDGER_STATUS (R360). -/
def Obligations.W1cWrites : Prop :=
  ∀ (i : Iface) (index : BitVec 16) (w : Word) (s : State), s.carries i = true →
    let names (x : Slot) : Prop := s.slotOf i index.toNat = some x
    let done (t : State) : Prop := exec (.w1cClear i index w) s = .next { t with mb := { s.mb with lastAnswer := 0 } }
    let ctx (c : CtxId) (x : Ctx) : State := { s with ctx := upd s.ctx c (fun _ => x) }
    (∀ c : CtxId,
      let x := s.ctx[c]
      (names (.creg c .faultStatus) → s.hides i c = false → ∃ o n, done (ctx c { x with prot := { x.prot with old := o, declCount := n } }) ∧
        let f := ({ x.prot with old := o, declCount := n } : Prot).sticky
        let kept := (x.prot.fresh ||| x.prot.old &&& ~~~w) &&& 0x7FFF
        (∀ j : Nat, j < 15 → f.getLsbD j = kept.getLsbD j) ∧
        fieldAt f 24 8 = if kept = 0 then 0 else min (fieldAt x.prot.old 24 8 + fieldAt x.prot.fresh 24 8) 255) ∧
      (names (.creg c .swStatus) → s.hides i c = false → ∃ o, done (ctx c { x with chan := { x.chan with old := o } }) ∧
        Cleared 0xFE [(16, 8, 0x4)] x.chan.old x.chan.fresh w ({ x.chan with old := o } : Chan).sticky) ∧
      (names (.creg c .senseStatus) → s.hides i c = false → ∃ o, done (ctx c { x with sense := { x.sense with old := o } }) ∧
        Cleared 0x107 [] x.sense.old x.sense.fresh w ({ x.sense with old := o } : Sense).sticky) ∧
      (names (.creg c .satFlags) → s.hides i c = false → Completes (.w1cClear i index w) s (fun t => t.ctx = s.ctx ∧ ∀ h : HalfId,
        let k := (s.half h).cell[c]
        let l := (t.half h).cell[c]
        (∀ d : CtxId, d ≠ c → (t.half h).cell[d] = (s.half h).cell[d]) ∧ { l with oldSat := k.oldSat, oldSatCounts := k.oldSatCounts } = k ∧
        ∀ j : Fin 16, l.satBits.getLsbD j.val = (k.satFlags.getLsbD j.val || (k.oldSat.getLsbD j.val && !w.getLsbD j.val)) ∧
          l.satCount j = if w.getLsbD j.val then min k.satCounts[j] 65535 else k.satCount j)) ∧
      (c.val ≠ 0 →
        (names (.creg c .lawStatus) → ∃ o, done (ctx c { x with oldLaw := o }) ∧
          Cleared 0xE [(16, 16, 0x4)] x.oldLaw x.lawFresh w ({ x with oldLaw := o } : Ctx).lawSticky) ∧
        (names (.creg c .schStatus) → ∃ o, done (ctx c { x with sched := { x.sched with old := o } }) ∧
          Cleared 0x3F [(16, 8, 0x2), (24, 8, 0x1)] x.sched.old x.sched.fresh w ({ x.sched with old := o } : Sched).sticky) ∧
        (names (.creg c .modeStatus) → ∃ o, done (ctx c { x with mode := { x.mode with old := o } }) ∧
          Cleared 0x7E [] x.mode.old x.mode.fresh w ({ x.mode with old := o } : ModeS).sticky) ∧
        (names (.creg c .probeStatus) → ∃ o, done (ctx c { x with probe := { x.probe with
            old := o, oldOverruns := if w.getLsbD 2 then 0 else x.probe.oldOverruns } }) ∧
          Cleared 0xF [] x.probe.old x.probe.fresh w ({ x.probe with old := o } : Probe).sticky) ∧
        (names (.creg c .tarnStatus) → ∃ o, done (ctx c { x with tarn := { x.tarn with old := o } }) ∧
          Cleared 0xF [(24, 8, 0x1)] x.tarn.old x.tarn.fresh w ({ x.tarn with old := o } : TarnS).sticky) ∧
        (names (.creg c .pulseStatus) → Completes (.w1cClear i index w) s (fun t => t.ctx = s.ctx ∧ ∀ h : HalfId,
          let k := (s.half h).cell[c]
          let l := (t.half h).cell[c]
          (∀ d : CtxId, d ≠ c → (t.half h).cell[d] = (s.half h).cell[d]) ∧ { l with oldPulse := k.oldPulse } = k ∧
          Cleared 0xF [(4, 12, 0x4), (16, 16, 0x3)] k.oldPulse k.pulseFresh w l.pulseSticky)))) ∧
    (names (.greg .summitStatus) → ∃ o, done { s with sum := { s.sum with old := o } } ∧
      Cleared 0xFE [(8, 8, 0x2), (16, 8, 0x40), (24, 8, 0x20)] s.sum.old s.sum.fresh w ({ s.sum with old := o } : Summit).sticky) ∧
    (names (.greg .tokenStatus) → ∃ o, done { s with tokOld := o } ∧
      Cleared 0x8000 [(16, 16, 0x8000)] s.tokOld s.tokenFresh w ({ s with tokOld := o } : State).tokenSticky) ∧
    (∀ k : Fin 3, names (.greg (.imonFault k)) → Completes (.w1cClear i index w) s (fun t => t.ctx = s.ctx ∧ ∀ p : PhaseId,
      { t.ph[p] with imonOld := s.ph[p].imonOld } = s.ph[p] ∧
      t.ph[p].imonOld = (s.ph[p].imonOld && (decide (p.val / 32 ≠ k.val) || !w.getLsbD (p.val % 32))))) ∧
    (names (.greg .ftStatus) → ∃ o, done { s with ft := { s.ft with old := o } } ∧
      Cleared 0x18 [(8, 8, 0x8)] s.ft.old s.ft.fresh w ({ s.ft with old := o } : FieldT).sticky) ∧
    (names (.greg .thermStatus) → ∃ o, done { s with th := { s.th with old := o } } ∧
      Cleared 0xFC [] s.th.old s.th.fresh w ({ s.th with old := o } : Therm).sticky) ∧
    (names (.greg .nvmStatus) → ∃ o, done { s with nv := { s.nv with old := o } } ∧
      Cleared 0x18 [] s.nv.old s.nv.fresh w ({ s.nv with old := o } : Store).sticky) ∧
    (names (.greg .ledgerStatus) → ∃ o, done { s with led := { s.led with old := o } } ∧
      Cleared 0x1E [(16, 8, 0x10)] s.led.old s.led.fresh w ({ s.led with old := o } : Ledger).sticky)

/-- A parameter write takes force at its commit tag, in both halves at once, and no other parameter changes with it; a write whose
tag has not come waits. A half whose cells stand still keeps what it holds, and is not eligible until it has resynchronized (R25,
R26). -/
def Obligations.CommitTagParameters : Prop :=
  (∀ (s : State) (n : Nat) (c : CtxId) (p : CP) (v : Int), s.commits = [⟨n, .ctxPar c p v⟩] → n ≤ s.enables →
    Completes .commitTag s (fun t => t.cp c p = v ∧ (∀ d q, d ≠ c ∨ q.ix ≠ p.ix → t.cp d q = s.cp d q) ∧ t.gInF = s.gInF ∧ t.commits = [])) ∧
  (∀ (s : State) (n : Nat) (p : PhaseId) (e : PP) (v : Int), s.commits = [⟨n, .phPar p e v⟩] → n ≤ s.enables →
    Completes .commitTag s (fun t => t.pp p e = v ∧ (∀ q f, q ≠ p ∨ f.ix ≠ e.ix → t.pp q f = s.pp q f) ∧ t.gInF = s.gInF ∧ t.commits = [])) ∧
  (∀ (s : State) (n : Nat) (g : GP) (v : Int), s.commits = [⟨n, .glob g v⟩] → n ≤ s.enables →
    Completes .commitTag s (fun t => t.gp g = v ∧ (∀ h, h.ix ≠ g.ix → t.gp h = s.gp h) ∧ (∀ c p, t.cp c p = s.cp c p) ∧
      ∀ p e, t.pp p e = s.pp p e)) ∧
  (∀ (s : State) (n : Nat) (c : CtxId) (k : Coef) (v : Int), s.commits = [⟨n, .coef c k v⟩] → n ≤ s.enables →
    Completes .commitTag s (fun t => ∀ h : HalfId,
      let x := (s.half h).cell[c]
      let y := (t.half h).cell[c]
      ((s.sum.half h).stopped s.enables = false →
        (x.bankBActive = true → y.bankA[k] = tag v ∧ y.bankB = x.bankB) ∧ (x.bankBActive = false → y.bankB[k] = tag v ∧ y.bankA = x.bankA)) ∧
      ((s.sum.half h).stopped s.enables = true → t.half h = s.half h ∧
        ((if x.bankBActive then x.bankA[k] else x.bankB[k]) ≠ tag v → (t.sum.half h).writeMiss = true ∧ (t.sum.half h).eligible = false)))) ∧
  (∀ s : State, (∀ k ∈ s.commits, s.enables < k.tag) → exec .commitTag s = .next s)

/-- The block's own machinery (sample tags, boundaries, sensor words, checks of the halves, thermal evaluations) always completes,
and leaves the clock (but for the note of the last inner decision), every global parameter in force, the record store, the ledger's own
state (its run, queue, items and flags; the accounts stand with the contexts and the cells) and, where no PMBus write waits for its turn,
the PMBus side as they were, in every state. -/
def Obligations.RegulationFrame : Prop :=
  ∀ (s : State) (i : Instr),
    ((∃ codes iref errs, i = .innerDecision codes iref errs) ∨ (∃ c code err, i = .railWord c code err) ∨
     (∃ c code vs vgs err, i = .shuntWord c code vs vgs err) ∨ (∃ z l, i = .zoneEvaluation z l) ∨ (∃ c ft, i = .outerStep ⟨c, ft⟩) ∨
     (∃ c : CtxId, i = .cellScrub c ∨ i = .shuntAutoZero c) ∨ (∃ p : PhaseId, i = .pulseEnd p ∨ i = .peakMiss p ∨ i = .autoZero p) ∨
     (∃ h : HalfId, i = .bindingTableScrub h ∨ i = .tagMarkSilent h ∨ i = .resyncStart h ∨ i = .resyncComplete h ∨ i = .resyncFail h) ∨
     (∃ x, i = .heartbeatLost x) ∨ (∃ x, i = .watchdogExpiry x) ∨
     i = .tokenCheck ∨ i = .halfComparison ∨ i = .disagreementJudgement ∨ i = .failover ∨ i = .handoverDone) →
    Completes i s (fun t => { t.clk with lastInner := s.clk.lastInner } = s.clk ∧ t.gInF = s.gInF ∧ t.nv = s.nv ∧ t.led = s.led ∧
      (s.pmb.jobs = [] → t.pmb = s.pmb) ∧ t.pending = s.pending)

/-- A sample tag while no phase serves a context: each half's port takes the raw word of every phase and the tag of its conversion
(R15, R60, R125, R148). The sample tag acts once, when its words have come. The end of a pulse whose
instant has come frees its phase, and an OFFTIME pulse with no end decision by S + TON_MAX falls there (R115, R119, R133). The
short-pulse rule loses no edge step: what it does not put into the width stays in the deficit or is clipped (R122). In each half whose
cells run, the tag of a regulating context writes IPH, THR and TON of each of its phases as carried roundings (R93, R94, R95, R148); the
due phase, first in rotation after the pointer among those whose pause and, with OFFTIME, off-time have run, starts a pulse in OFFTIME
always and else if IPH ≤ THR, of the width of the short-pulse rule (R96, R99, R115, R118, R119, R122); no other phase starts; and an
OFFTIME phase in its on-time ends it when IPH ≥ THR (R96, R119). The off-time of a phase that has had no end decision is the model's
choice (log entry 152), and so is the n_act that a balance boundary presents with (log entry 150). -/
def Obligations.SampleTagsAndPulses : Prop :=
  (∀ (s : State) (codes : Vector (BitVec 10) 96) (iref : BitVec 12), s.innerTime = true → (∀ c : CtxId, s.ctx[c].regulating = false) →
    (∀ (h : HalfId) (p : PhaseId), (s.half h).ph[p].state = .unbound ∧ (s.half h).ph[p].bind = 0 ∧ (s.half h).ph[p].pulse = none) →
    (∀ h : HalfId, (s.sum.half h).stopped s.enables = false) →
    Completes (.innerDecision codes iref []) s (fun t =>
      (∀ (h : HalfId) (p : PhaseId), (t.half h).ph[p].raw = tag (codes[p].toInt * 16384) ∧ (t.half h).ph[p].rawTag = s.enables % 4294967296 ∧
        (t.half h).ph[p].gain = (s.half h).ph[p].gain.hold (s.gain p) ∧ (t.half h).ph[p].state = .unbound) ∧
      (∀ (h : HalfId) (c : CtxId), (t.half h).cell[c] = (s.half h).cell[c]) ∧ t.clk.lastInner = some s.enables ∧ t.dev = s.dev ∧
      t.commits = s.commits)) ∧
  (∀ (s : State) (codes : Vector (BitVec 10) 96) (iref : BitVec 12) (errs : List (PhaseId × BcastErr)), s.innerTime = false →
    exec (.innerDecision codes iref errs) s = .next s) ∧
  (∀ (s : State) (p : PhaseId) (q : Pulse) (f e : Nat),
    (∀ h : HalfId, (s.half h).ph[p].pulse = some q) → q.fall = some f → q.endAt = some e → e ≤ s.steps →
    Completes (.pulseEnd p) s (fun t => (∀ h : HalfId, (t.half h).ph[p].pulse = none ∧ (t.half h).ph[p].lastEnd = e ∧
        ((s.half h).ph[p].leaving = true → (t.half h).ph[p].state = .unbound ∧ (t.half h).ph[p].bind = 0) ∧
        ((s.half h).ph[p].leaving = false → (t.half h).ph[p].state = (if q.parks then .parked else .active)) ∧
        (t.half h).cell = (s.half h).cell ∧ ∀ r : PhaseId, r ≠ p → (t.half h).ph[r] = (s.half h).ph[r]) ∧
      t.ctx = s.ctx ∧ t.ph = s.ph ∧ t.mb = s.mb ∧ t.nv = s.nv)) ∧
  (∀ (s : State) (p : PhaseId) (q : Pulse), q.fall = none →
    (∀ h : HalfId, (s.half h).ph[p].pulse = some q ∧ (s.half h).ph[p].state = .on ∧ q.start + (s.half h).ph[p].act.tonMax ≤ s.steps ∧
      s.steps < endOf (s.half h).ph[p].act q.paired (q.start + (s.half h).ph[p].act.tonMax)) →
    Completes (.peakMiss p) s (fun t => (∀ h : HalfId,
        let x := q.start + (s.half h).ph[p].act.tonMax
        (t.half h).ph[p].pulse = some { q with fall := some x, endAt := some (endOf (s.half h).ph[p].act q.paired x) } ∧
        (t.half h).cell[(s.half h).ph[p].bind].peakMiss = true ∧ (t.half h).ph[p].offTime = (s.half h).ph[p].ton.v.toNat) ∧
      t.ctx = s.ctx ∧ t.ph = s.ph ∧ t.mb = s.mb)) ∧
  (∀ (s : State) (p : PhaseId), (∀ h : HalfId, (s.half h).ph[p].pulse = none) →
    exec (.pulseEnd p) s = .next s ∧ exec (.peakMiss p) s = .next s) ∧
  (∀ (w m : Nat) (d : Int), w + d = (shortRule w d m).width + (shortRule w d m).deficit + (shortRule w d m).clip.getD 0 ∧
    ((shortRule w d m).skipped = false → m ≤ 16777215 → m ≤ (shortRule w d m).width) ∧ (shortRule w d m).width ≤ max m 16777215) ∧
  (∀ (s : State) (codes : Vector (BitVec 10) 96) (iref : BitVec 12) (c : CtxId) (h : HalfId), s.decidesNow c h = true →
    let k := (s.half h).cell[c].hold (s.heldWordOf c)
    let off := s.ctx[c].inE modeOfftime
    (∀ p : PhaseId,
      let x := (s.half h).ph[p]
      let g := (x.gain.hold (s.gain p)).word
      x.serves c = true → x.wordsOk = true → k.icmd.ok = true → k.pos.ok = true → (k.w .kOn).ok = true → (k.w .toff).ok = true →
      Completes (.innerDecision codes iref []) s (fun t =>
        let y := (t.half h).ph[p]
        (y.iph.v, y.remIph.v) = rounds (g.v * (codes[p].toInt * 16384 - x.offset.v)) x.remIph.v 16777216 v24Lo v24Hi ∧
        (y.thr.v, y.remThr.v) = rounds (k.icmd.v + k.nAct * x.bal.v) x.remThr.v k.nAct v24Lo v24Hi ∧
        (let n := rounds (if off then (k.w .toff).v * 16777216 else (k.w .kOn).v * k.pos.v) x.remTonN.v 16777216 s48Lo s48Hi
         (y.ton.v, y.remTonD.v) = rounds n.1 x.remTonD.v (if off then 1 else vinD (s.half h).cell[(0 : CtxId)] s.enables) 0 16777215 ∧
         y.remTonN.v = n.2))) ∧
    (s.calm h = true → Completes (.innerDecision codes iref []) s (fun t =>
      (∀ d : PhaseId, s.isDue c h off d = true →
        let x := (s.half h).ph[d]
        let y := (t.half h).ph[d]
        let l := (t.half h).cell[c]
        let pf := s.presentTick c h d
        let m := ((x.reload s.clk.fast).pendAt d s.commits pf).minimum (s.joined d)
        let r := shortRule y.ton.v.toNat k.deficit m
        (off = true → l.pointer = d ∧ y.state = .on ∧
          y.pulse = some { start := 32 * (pf + 2), min := m, fall := none, endAt := none, paired := s.joined d }) ∧
        (off = false → y.iph.v ≤ y.thr.v → l.pointer = d ∧ l.deficit = r.deficit ∧
          (r.skipped = false → y.state = .on ∧
            y.pulse.map (fun q => (q.start, q.fall)) = some (32 * (pf + 2), some (32 * (pf + 2) + r.width))) ∧
          (r.skipped = true → y.state = .active ∧ y.pulse = none ∧ y.lastEnd = 32 * (pf + 2))) ∧
        (off = false → y.thr.v < y.iph.v → l.pointer = k.pointer ∧ l.deficit = k.deficit ∧ y.state = .active ∧ y.pulse = none)) ∧
      (∀ p : PhaseId, (s.half h).ph[p].serves c = true → s.isDue c h off p = false →
        let x := (s.half h).ph[p]
        let y := (t.half h).ph[p]
        let pf := s.presentTick c h p
        (off = false → y.pulse = x.pulse ∧ y.state = x.state) ∧
        (off = true → y.state = x.state ∧ ∀ q : Pulse, x.pulse = some q →
          (x.state = .on → q.fall = none → y.thr.v ≤ y.iph.v → 32 * pf ≤ q.start + x.act.tonMax →
            y.offTime = y.ton.v.toNat ∧ y.pulse = some { q with
              fall := some (max (32 * (pf + 2)) (q.start + q.min))
              endAt := some (endOf x.act q.paired (max (32 * (pf + 2)) (q.start + q.min))) }) ∧
          ((x.state ≠ .on ∨ q.fall.isSome = true ∨ y.iph.v < y.thr.v ∨ q.start + x.act.tonMax < 32 * pf) → y.pulse = some q))))))

/-- The short-pulse rule of a constant-on-time start request (R122): the deficit is clipped to 4 m on either side and added to the
width; a width of at least m starts a pulse of it, carrying what exceeds 16,777,215; one of at least half of m is stretched to
m; a smaller one is skipped, with no edge, and moves the pointer and starts the pause at S. -/
def Obligations.ShortPulseRule : Prop :=
  ∀ (i : InnerIn) (c : CtxId) (base : Nat) (x : Half) (p : PhaseId), i.offtime = false →
    let pf := presentAt base i.bound p
    let m : Int := (x.ph[p].pendAt p i.commits pf).minimum (i.paired p)
    let d0 := x.cell[c].deficit
    let d := if 4 * m < d0 then 4 * m else if d0 < -(4 * m) then -(4 * m) else d0
    let e := x.ph[p].ton.v.toNat + d
    let start := 32 * (pf + 2)
    let o := innerStart i c base x p
    o.half.cell[c].pointer = p ∧
    (m ≤ e → o.half.cell[c].deficit = max 0 (e - 16777215) ∧ o.half.ph[p].state = .on ∧
      o.half.ph[p].pulse.map (fun q => (q.start, q.fall)) = some (start, some (start + (min e 16777215).toNat))) ∧
    (e < m → m ≤ 2 * e → o.half.cell[c].deficit = e - m ∧ o.half.ph[p].state = .on ∧
      o.half.ph[p].pulse.map (fun q => (q.start, q.fall)) = some (start, some (start + m.toNat))) ∧
    (e < m → 2 * e < m → o.half.cell[c].deficit = e ∧ o.half.ph[p].pulse = x.ph[p].pulse ∧ o.half.ph[p].state = x.ph[p].state ∧
      o.half.edges = x.edges ∧ o.half.ph[p].lastEnd = start) ∧
    (o.clip = none ↔ d = d0) ∧ (∀ q : PhaseId, q ≠ p → o.half.ph[q] = x.ph[q])

/-- An outer step acts in the first fast tick of a boundary of its context, once, and at no other instant (R24, R72). There context 0
forms VMEAS; a context that regulates and may go on forms VMEAS and counts the boundary, or stops where none of its phases is available
(R129); one that may begin does (R23); one in which a condition of R23 has failed stops. Of a regulating context, in each half whose cells
run: REF slews to the target or follows its leader (R77, R92), POS, ERR, DER, INT, PID, the biquads and ICMD are formed in exact
arithmetic (R81 to R90), the balance step runs at each sixteenth boundary (R97), n_act is that of R131 with SHED and else every available
phase, the timers of classes 0 to 2 count and declare, with LATCH_OFF and SHED_PHASE acting (R258, R259, R261), and power-good follows
R270; under PASS the law holds its stores (R92). These clauses are said where no phase joins or leaves the context at the boundary, some
where FAULT_RESP0 ignores classes 0 to 2, and the stages where E keeps PASS out and CURRENT does not leave. That a context goes on in a
rundown is the model's reading (log entry 15), and so is what a frozen dwell does (log entry 164). A cell scrub acts once in an outer
sample: each half's error count takes the words that fail their check; a half with errors loses its eligibility with ATTRIB_ERR, and one
without keeps what it holds (R62, R63, R288). -/
def Obligations.OuterStepsAndScrubs : Prop :=
  ((∀ (s : State) (c : CtxId) (ft : BcastErr), s.converting = true → s.clk.fast % 16 = 0 → s.atBoundary c = true → s.ctx[c].lastDone ≠ some s.enables →
    Completes (.outerStep ⟨c, ft⟩) s (fun t => t.ctx[c].lastDone = some s.enables ∧ t.enables = s.enables ∧ t.gInF = s.gInF ∧ t.nv = s.nv ∧
      (c = 0 → t.ctx[c].outerCount = s.ctx[c].outerCount + 1 ∧ ∀ h : HalfId, (s.sum.half h).stopped s.enables = false →
        (t.half h).cell[c].vmeas = (((s.half h).cell[c].hold (s.heldWordOf c)).vmeasStage).vmeas))) ∧
  (∀ (s : State) (c : CtxId) (ft : BcastErr), s.converting = true → s.clk.fast % 16 = 0 → s.atBoundary c = true → s.ctx[c].lastDone ≠ some s.enables →
    c ≠ 0 → (s.resp c 0 = 0 ∧ s.resp c 1 = 0 ∧ s.resp c 2 = 0) →
    (∀ (h : HalfId) (p : PhaseId), ((s.half h).ph[p].bind = c → s.ownerOf p = c ∧ (s.half h).ph[p].state ≠ .unbound ∧ (s.half h).ph[p].leaving = false) ∧
      (s.ownerOf p = c → s.follower p = false → (s.half h).ph[p].bind = c)) →
    Completes (.outerStep ⟨c, ft⟩) s (fun t =>
      (s.ctx[c].regulating = true → s.mayGoOn c = true → s.dev.rundown = none → s.avail c ≠ [] → t.ctx[c].regulating = true ∧ t.ctx[c].outerCount = s.ctx[c].outerCount + 1 ∧
        ∀ h : HalfId, (s.sum.half h).stopped s.enables = false →
          (t.half h).cell[c].vmeas = (((s.half h).cell[c].hold (s.heldWordOf c)).vmeasStage).vmeas) ∧
      (s.ctx[c].regulating = true → s.mayGoOn c = true → s.avail c = [] → t.ctx[c].regulating = false ∧ t.ctx[c].prot.classFlags.getLsbD 4 = true) ∧
      (s.ctx[c].regulating = false → s.mayBegin c = true → s.avail c ≠ [] → t.ctx[c].regulating = true ∧ t.ctx[c].outerCount = 1) ∧
      (s.ctx[c].regulating = true → s.mayGoOn c = false → t.ctx[c].regulating = false) ∧
      (s.ctx[c].regulating = false → s.mayBegin c = false → t.ctx[c].regulating = false))) ∧
  (∀ (s : State) (c : CtxId) (ft : BcastErr), s.stepsOn c = true → (s.resp c 0 = 0 ∧ s.resp c 1 = 0 ∧ s.resp c 2 = 0) →
    Completes (.outerStep ⟨c, ft⟩) s (fun t =>
      let x := t.ctx[c]
      let cur := x.inE modeCurrent
      let lo := s.cp c .iMin
      let hi := s.cp c .iMax
      (x.mode.passInForce = false → s.ctx[c].inE modePass = false → (s.ctx[c].inE modeCurrent = true → cur = true) → ∀ h : HalfId,
        let k := (s.half h).cell[c]
        let b := k.bank
        let l := (t.half h).cell[c]
        let iph := ((s.half h).bound c).map (fun p => (s.half h).ph[p].iph)
        (s.sum.half h).stopped s.enables = false → k.lawOk = true → iph.all Tagged.ok = true → k.swapOld = none →
        (x.inE modeTrack = false →
          let gap := x.tgt * 16777216 - (k.ref.v * 16777216 + k.remRef.v)
          (l.ref.v, l.remRef.v) = rounds (k.ref.v * 16777216 + max (-t.stepLimit c) (min gap (t.stepLimit c))) k.remRef.v 16777216 0 v24Hi) ∧
        (x.inE modeTrack = true → cur = false → s.ctx[c].inE modeTrack = true → s.ctx[c].mode.rejoin = false →
            s.ctx[c].mode.leaderLost = false →
          (x.mode.leaderLost = true → l.ref = k.ref ∧ l.remRef = k.remRef) ∧
          (let r := ((s.half h).cell[s.leader c].lookBack s.enables).ref
           x.mode.leaderLost = false → r.ok = true → (l.ref.v, l.remRef.v) =
             rounds (s.cp c .trackRatio * r.v + s.cp c .trackOffset * 16777216) k.remRef.v 16777216 0 (s.cp c .voutMax))) ∧
        (l.pos.v, l.remPos.v) = rounds (l.ref.v * 16777216 + (l.w .injV).v * 16777216
          - (if cur then 0 else (l.w .loadline).v * (iph.map (·.v)).sum)) k.remPos.v 16777216 v24Lo v24Hi ∧
        l.err.v = clamp (l.pos.v - l.vmeas.v) v24Lo v24Hi ∧
        (l.der.v, l.remDer.v) = rounds (b[3].v * k.der.v + b[2].v * (l.err.v - k.err.v)) k.remDer.v 16777216 v24Lo v24Hi ∧
        l.int.v = clamp (k.int.v + b[1].v * l.err.v + b[4].v * (k.icmd.v - k.bq2.v - (if cur then 0 else k.iffPrev.v)))
          (lo * 16777216) (hi * 16777216) ∧
        (l.pid.v, l.remPid.v) = rounds (b[0].v * l.err.v + l.int.v + l.der.v * 16777216) k.remPid.v 16777216 v24Lo v24Hi ∧
        (l.bq1.v, l.remBq1.v) = rounds (b[5].v * l.pid.v + k.bq1s1.v) k.remBq1.v 16777216 v24Lo v24Hi ∧
        l.bq1s1.v = clamp (b[6].v * l.pid.v - b[8].v * l.bq1.v + k.bq1s2.v) s48Lo s48Hi ∧
        l.bq1s2.v = clamp (b[7].v * l.pid.v - b[9].v * l.bq1.v) s48Lo s48Hi ∧
        (l.bq2.v, l.remBq2.v) = rounds (b[10].v * l.bq1.v + k.bq2s1.v) k.remBq2.v 16777216 v24Lo v24Hi ∧
        l.bq2s1.v = clamp (b[11].v * l.bq1.v - b[13].v * l.bq2.v + k.bq2s2.v) s48Lo s48Hi ∧
        l.bq2s2.v = clamp (b[12].v * l.bq1.v - b[14].v * l.bq2.v) s48Lo s48Hi ∧
        (cur = false → l.icmd.v = clamp (l.bq2.v + l.iff.v) lo hi) ∧
        (cur = true → x.inE modeTrack = false → t.inForce c 2 = none →
          l.icmd.v = clamp (s.cp c .icmd + l.iff.v + (l.w .injI).v) lo (max lo (min l.bq2.v hi))) ∧
        (x.inE modeSchedule = false → l.iff.v = 0) ∧ l.iffPrev = l.iff ∧ l.errPrev = k.err ∧
        (x.inE modeShed = false → l.nAct = (s.avail c).length) ∧
        (x.inE modeShed = true → s.ctx[c].inE modeShed = true → s.ctx[c].sched.events = [] → h = s.serving →
          let act := (((s.half h).actives (s.bound c)).filter (fun p => (s.avail c).contains p)).length
          let r := shedRule (s.addThr c) (s.shedThr c) l.icmd.v (max 1 act) (s.avail c).length k.dwell x.sched.nFloor
            (decide (x.probe.st = .integrating))
          l.nAct = r.n ∧ l.dwell = r.dwell) ∧
        (∀ p ∈ s.avail c,
          let y := (s.half h).ph[p]
          let z := (t.half h).ph[p]
          (s.ctx[c].outerCount % 16 ≠ 0 → z.bal = y.bal) ∧
          (s.ctx[c].outerCount % 16 = 0 → x.inE modeShed = false → (∀ q ∈ s.avail c, (s.half h).ph[q].wordsOk = true) →
            (z.bal.v, z.remBal.v) = rounds (y.bal.v * 16777216 + (((s.avail c).filter (fun q => decide (q ≠ p))).map
              (fun q => (l.w .kbal).v * ((s.half h).ph[q].iph.v - y.iph.v))).sum) y.remBal.v 16777216 (-s.cp c .balLim) (s.cp c .balLim)))) ∧
      (x.mode.passInForce = true → (s.ctx[c].inE modeCurrent = true → cur = true) → ∀ h : HalfId, (s.sum.half h).stopped s.enables = false →
        let k := (s.half h).cell[c]
        let l := (t.half h).cell[c]
        l.ref = k.ref ∧ l.pos = k.pos ∧ l.err = k.err ∧ l.der = k.der ∧ l.int = k.int ∧ l.pid = k.pid ∧ l.bq2 = k.bq2 ∧ l.icmd = k.icmd) ∧
      (let v := (t.half s.serving).cell[c].vmeas.v
       let pos := (t.half s.serving).cell[c].pos.v
       let ov := decide (s.cp c .voutMax + s.cp c .ovMargin < v) || (s.ctx[c].prot.tripSeen && decide (s.tripClass c = 1))
       let uv := s.ctx[c].prot.pgEver && !x.mode.passInForce && !cur && decide (v < pos - s.cp c .uvMargin)
       let oc (p : PhaseId) : Bool := s.ph[p].ocSeen
         || (s.ctx[c].prot.tripSeen && decide (s.tripClass c = 2) && decide (bitsOf (s.cp c .tripCfg) 8 7 = p.val))
       (ov = false → x.prot.ovTimer = 0 ∧ x.prot.ovDeclared = false) ∧
       (ov = true → s.ctx[c].prot.ovDeclared = false → x.prot.ovTimer = s.ctx[c].prot.ovTimer + 1 ∧
         x.prot.ovDeclared = decide ((s.cp c .ovTime).toNat < s.ctx[c].prot.ovTimer + 1) ∧
         (x.prot.ovDeclared = true → x.prot.classFlags.getLsbD 0 = true)) ∧
       (uv = false → x.prot.uvTimer = 0 ∧ x.prot.uvDeclared = false) ∧
       (uv = true → s.ctx[c].prot.uvDeclared = false → x.prot.uvTimer = s.ctx[c].prot.uvTimer + 1 ∧
         x.prot.uvDeclared = decide ((s.cp c .uvTime).toNat < s.ctx[c].prot.uvTimer + 1) ∧
         (x.prot.uvDeclared = true → x.prot.classFlags.getLsbD 1 = true)) ∧
       (∀ p ∈ s.bound c, (oc p = false → t.ph[p].ocTimer = 0) ∧ (oc p = true → s.ph[p].ocTimer < ocDone →
         ((s.cp c .ocTime).toNat < s.ph[p].ocTimer + 1 → t.ph[p].ocTimer = ocDone ∧ x.prot.classFlags.getLsbD 2 = true) ∧
         (s.ph[p].ocTimer + 1 ≤ (s.cp c .ocTime).toNat → t.ph[p].ocTimer = s.ph[p].ocTimer + 1))) ∧
       (x.mode.passInForce = false →
         let win := if cur then decide (v ≤ s.cp c .voutMax + s.cp c .pgWin) else decide ((v - pos).natAbs ≤ s.cp c .pgWin)
         let seen := s.ctx[c].prot.atTargetSeen || t.atTarget c
         x.prot.pgRun = (if win then s.ctx[c].prot.pgRun + 1 else 0) ∧ x.prot.atTargetSeen = seen ∧
         (x.prot.ovTimer = 0 → x.prot.uvTimer = 0 → (∀ p ∈ s.bound c, t.ph[p].ocTimer = 0) →
           (s.ctx[c].prot.pg = true → x.prot.pg = win) ∧
           (s.ctx[c].prot.pg = false → x.prot.pg = (seen && decide (s.pgCount c ≤ x.prot.pgRun)))))))) ∧
  (∀ (s : State) (c : CtxId) (ft : BcastErr), s.stepsOn c = true → Completes (.outerStep ⟨c, ft⟩) s (fun t =>
    (decide (s.cp c .voutMax + s.cp c .ovMargin < (t.half s.serving).cell[c].vmeas.v) = true → s.ctx[c].prot.ovDeclared = false →
      (s.cp c .ovTime).toNat ≤ s.ctx[c].prot.ovTimer → t.ctx[c].prot.classFlags.getLsbD 0 = true ∧
      (s.resp c 0 = 3 → t.ctx[c].regulating = false ∧ t.ctx[c].prot.latched = true)) ∧
    (∀ p ∈ s.bound c, s.ph[p].ocSeen = true → s.ph[p].ocTimer < ocDone → (s.cp c .ocTime).toNat ≤ s.ph[p].ocTimer →
      t.ctx[c].prot.classFlags.getLsbD 2 = true ∧ (s.resp c 2 = 2 → t.ph[p].unavOc = true)))) ∧
  (∀ (add shed : Nat → Int) (icmd : Int) (n a dwell floor : Nat) (frozen : Bool), 1 ≤ n → n ≤ a →
    let r := shedRule add shed icmd n a dwell floor frozen
    let up := overAdd add n icmd
    let down := decide (1 < n) && underShed shed (n - 1) icmd
    1 ≤ r.n ∧ r.n ≤ a ∧ (floor ≤ a → floor ≤ r.n) ∧
    (up = true → r.dwell = 0 ∧ ∀ m : Nat, n < m → m < r.n → m < floor ∨ overAdd add m icmd = true) ∧
    (up = true → floor ≤ r.n → r.n < a → floor = r.n ∨ overAdd add r.n icmd = false) ∧
    (up = false → down = false → r.dwell = 0 ∧ r.n = min a (max n floor)) ∧
    (up = false → down = true → frozen = false → floor ≤ n - 1 → (dwell + 1 < 1024 → r = ⟨n, dwell + 1, false⟩) ∧
      (1024 ≤ dwell + 1 → r = ⟨n - 1, 0, false⟩)) ∧
    (up = false → down = true → frozen = false → n - 1 < floor → r.dwell = 0 ∧ r.n = min a (max n floor))) ∧
  (∀ (s : State) (c : CtxId) (ft : BcastErr), (s.converting = false ∨ s.clk.fast % 16 ≠ 0 ∨ s.atBoundary c = false ∨ s.ctx[c].lastDone = some s.enables) →
    exec (.outerStep ⟨c, ft⟩) s = .next s)) ∧
  (∀ (s : State) (c : CtxId), s.converting = true → s.ctx[c].lastDone.isSome = true → s.ctx[c].scrubbed ≠ s.ctx[c].lastDone →
    Completes (.cellScrub c) s (fun t => t.ctx[c].scrubbed = s.ctx[c].lastDone ∧ (∀ h : HalfId,
        ((s.sum.half h).stopped s.enables = false → (t.half h).cell[c].residueErrors = (s.half h).cell[c].residueErrors + s.scrubErrors c h) ∧
        (0 < s.scrubErrors c h → (t.sum.half h).eligible = false ∧ (t.sum.half h).attribErr = true) ∧
        (s.scrubErrors c h = 0 → t.half h = s.half h ∧ t.sum.half h = s.sum.half h) ∧
        (∀ d : CtxId, d ≠ c → (t.half h).cell[d] = (s.half h).cell[d]) ∧ (t.half h).ph = (s.half h).ph) ∧
      t.gInF = s.gInF ∧ t.nv = s.nv ∧ t.clk = s.clk)) ∧
  (∀ (s : State) (c : CtxId), (s.converting = false ∨ s.ctx[c].lastDone.isNone = true ∨ s.ctx[c].scrubbed = s.ctx[c].lastDone) →
    exec (.cellScrub c) s = .next s)

/-- With its reset coefficients each biquad is an identity: B0 is 2^24 and the other four words 0 in both banks of every cell after
reset, and a biquad with these words gives back its input exactly and keeps both its states at 0 (R88). -/
def Obligations.BiquadIdentity : Prop :=
  (∀ (h : HalfId) (c : CtxId) (v : Vector Tagged 15), v = (State.reset.half h).cell[c].bankA ∨ v = (State.reset.half h).cell[c].bankB →
    v[5] = tag 0x01000000 ∧ v[6] = tag 0 ∧ v[7] = tag 0 ∧ v[8] = tag 0 ∧ v[9] = tag 0 ∧
    v[10] = tag 0x01000000 ∧ v[11] = tag 0 ∧ v[12] = tag 0 ∧ v[13] = tag 0 ∧ v[14] = tag 0) ∧
  (∀ c : Cell, c.pid.ok = true → v24Lo ≤ c.pid.v → c.pid.v ≤ v24Hi → c.remBq1 = tag 0 → c.bq1s1 = tag 0 → c.bq1s2 = tag 0 →
    c.bank[5] = tag 0x01000000 → c.bank[6] = tag 0 → c.bank[7] = tag 0 → c.bank[8] = tag 0 → c.bank[9] = tag 0 →
    c.bq1Stages = { c with bq1 := c.pid }) ∧
  (∀ c : Cell, c.bq1.ok = true → v24Lo ≤ c.bq1.v → c.bq1.v ≤ v24Hi → c.remBq2 = tag 0 → c.bq2s1 = tag 0 → c.bq2s2 = tag 0 →
    c.bank[10] = tag 0x01000000 → c.bank[11] = tag 0 → c.bank[12] = tag 0 → c.bank[13] = tag 0 → c.bank[14] = tag 0 →
    c.bq2Stages = { c with bq2 := c.bq1 })

/-- Rail and shunt words act once at each of their instants (R143). The window takes the code; each receiving port takes the window
word with the tag of its conversion, unless the word holds a double-bit error for that half, where it keeps what it holds; a
double error of both halves is counted (R15, R16, R144). The count of full-scale codes runs, and the sixteenth in a row sets
SENSE_OPEN (R158). A shunt word forms ISW with its remainder and gives it, with the raw word, to the ports (R142, R151), and from STANDBY on each cell's
ledger takes it (R338). The end of an auto-zero window: a sum of 64 words within 43 codes gives each half its offset, one above it
is IMON_FAULT and leaves the offset; a window still open waits. A shunt's window gives SOFS, unless its mean is above 64 codes:
SENSE_OPEN then sets, and the class is declared at the next shunt word (R153 to R158, R245). -/
def Obligations.SensorWordsAndZeros : Prop :=
  ((∀ (s : State) (c : CtxId) (code : BitVec 12) (err : BcastErr), s.converting = true → railInstant s.clk.fast = true →
    s.ctx[c].sense.lastWord ≠ some s.clk.fast →
    Completes (.railWord c code err) s (fun t =>
      let w := windowWord (s.ratio c) ((code.toNat :: s.ctx[c].sense.codes).take 32)
      t.ctx[c].sense.codes = (code.toNat :: s.ctx[c].sense.codes).take 32 ∧ t.ctx[c].sense.lastWord = some s.clk.fast ∧
      t.ctx[c].sense.openRun = (if code.toNat = 4095 then s.ctx[c].sense.openRun + 1 else 0) ∧
      (code.toNat = 4095 → s.ctx[c].sense.openRun = 15 → t.ctx[c].sense.senseOpen = true ∧ t.ctx[c].prot.classFlags.getLsbD 5 = true) ∧
      (∀ h : HalfId, ((s.sum.half h).stopped s.enables = false → eccOf err h ≠ .double →
          (t.half h).cell[c].port = tag w ∧ (t.half h).cell[c].portTag = railTag s.clk.fast ∧ (t.half h).cell[c].portUnused = true ∧
          (t.half h).cell[c].discarded = (if (s.half h).cell[c].portUnused then (s.half h).cell[c].discarded + 1 else (s.half h).cell[c].discarded)) ∧
        (eccOf err h = .double → (t.half h).cell[c].port = (s.half h).cell[c].port ∧ (t.half h).cell[c].portUnused = (s.half h).cell[c].portUnused)) ∧
      t.sum.bcastDbl = (if err.east = .double ∧ err.west = .double then capInc s.sum.bcastDbl 0xFFFFFFFF else s.sum.bcastDbl) ∧
      t.nv = s.nv ∧ t.gInF = s.gInF)) ∧
  (∀ (s : State) (c : CtxId) (code vs : BitVec 12) (vgs : Fin 4) (err : BcastErr), s.converting = true → s.clk.fast % 400 = 168 →
    s.ctx[c].chan.lastWord ≠ some s.clk.fast →
    Completes (.shuntWord c code vs vgs err) s (fun t =>
      let r := roundCarry (s.sgain c * (code.toNat * 2048 - s.ctx[c].chan.sofs)) s.ctx[c].chan.remIsw.v F24 v24Lo v24Hi
      t.ctx[c].chan.isw = r.y ∧ t.ctx[c].chan.remIsw = tag r.r ∧ t.ctx[c].chan.vs = vs.toNat * 1024 ∧ t.ctx[c].chan.vgs = vgs ∧
      t.ctx[c].chan.lastWord = some s.clk.fast ∧ t.ctx[c].chan.isws = (r.y :: s.ctx[c].chan.isws).take 1000 ∧
      (∀ h : HalfId, (s.sum.half h).stopped s.enables = false →
        let k := if eccOf err h = .double then (s.half h).cell[c] else (s.half h).cell[c].iswPort r.y (code.toNat * 2048) s.tag32
        let k := if s.dev.st = .boot then k else k.ledger
        (t.half h).cell[c].portIsw = k.portIsw ∧ (t.half h).cell[c].portRaw = k.portRaw ∧ (t.half h).cell[c].iswTag = k.iswTag ∧ (t.half h).cell[c].iswUnused = k.iswUnused ∧
        (t.half h).cell[c].discarded = k.discarded ∧ (t.half h).cell[c].qRem = k.qRem ∧ (t.half h).cell[c].uCharge = k.uCharge ∧
        (t.half h).cell[c].eRem = k.eRem ∧ (t.half h).cell[c].uEnergy = k.uEnergy ∧ (t.half h).cell[c].residueErrors = k.residueErrors) ∧
      (∀ h : HalfId, eccOf err h = .double → (t.half h).cell[c].portIsw = (s.half h).cell[c].portIsw) ∧
      (s.ctx[c].chan.senseDue = true → t.ctx[c].prot.classFlags.getLsbD 12 = true ∧ t.ctx[c].chan.senseDue = false) ∧
      t.nv = s.nv ∧ t.gInF = s.gInF)) ∧
  (∀ (s : State) (c : CtxId) (code vs : BitVec 12) (vgs : Fin 4) (err : BcastErr),
    ((s.converting = false ∨ railInstant s.clk.fast = false ∨ s.ctx[c].sense.lastWord = some s.clk.fast) → exec (.railWord c code err) s = .next s) ∧
    ((s.converting = false ∨ s.clk.fast % 400 ≠ 168 ∨ s.ctx[c].chan.lastWord = some s.clk.fast) → exec (.shuntWord c code vs vgs err) s = .next s))) ∧
  ((∀ (s : State) (p : PhaseId), s.ph[p].azRun = some 64 → 64 ≤ s.tag32 % 250000 → (s.hph p).azSum.v.natAbs ≤ 43 * 64 * 16384 →
    Completes (.autoZero p) s (fun t => (t.ph[p].azRun = none ∧ t.ph[p].offsetValid = true ∧ t.ph[p].azMissed = 0 ∧ t.ph[p].azStale = false) ∧
      (∀ h : HalfId, ((s.half h).ph[p].azSum.ok = true → (t.half h).ph[p].offset = tag ((s.half h).ph[p].azSum.v / 64) ∧ (t.half h).cell = (s.half h).cell) ∧
        ((s.half h).ph[p].azSum.ok = false → (t.half h).ph[p].offset = (s.half h).ph[p].offset ∧
          ((s.half h).ph[p].bind = (s.hph p).bind → (t.sum.half h).attribErr = true))) ∧
      (s.ph[p].imonNow = false → t.ph[p].unavImon = false) ∧ t.clk = s.clk ∧ t.nv = s.nv)) ∧
  (∀ (s : State) (p : PhaseId), s.ph[p].azRun = some 64 → 64 ≤ s.tag32 % 250000 → 43 * 64 * 16384 < (s.hph p).azSum.v.natAbs →
    Completes (.autoZero p) s (fun t => t.ph[p].azRun = none ∧ t.ph[p].unavImon = true ∧ t.ph[p].imonBit = true ∧
      t.ph[p].offsetValid = s.ph[p].offsetValid ∧ t.ph[p].azMissed = (if s.ph[p].offsetValid then s.ph[p].azMissed + 1 else s.ph[p].azMissed) ∧
      (∀ h : HalfId, (t.half h).ph[p].offset = (s.half h).ph[p].offset) ∧
      ((s.hph p).bind ≠ 0 → t.ctx[(s.hph p).bind].prot.classFlags.getLsbD 6 = true) ∧ t.clk = s.clk ∧ t.nv = s.nv)) ∧
  (∀ (s : State) (p : PhaseId), (s.ph[p].azRun ≠ some 64 ∨ s.tag32 % 250000 < 64) → exec (.autoZero p) s = .next s)) ∧
  ((∀ (s : State) (c : CtxId) (v : Int), s.ctx[c].chan.zeroRun = some (64, v) → v ≤ 64 * 64 * 2048 →
    exec (.shuntAutoZero c) s = .next (s.modChan c (fun x => { x with zeroRun := none, sofs := v / 64, zeroed := true, zeroMissed := 0, zeroFault := false }))) ∧
  (∀ (s : State) (c : CtxId) (v : Int), s.ctx[c].chan.zeroRun = some (64, v) → 64 * 64 * 2048 < v →
    Completes (.shuntAutoZero c) s (fun t => t.ctx[c].chan.zeroRun = none ∧ t.ctx[c].chan.zeroFault = true ∧ t.ctx[c].chan.sofs = s.ctx[c].chan.sofs ∧
      t.ctx[c].chan.zeroMissed = s.ctx[c].chan.zeroMissed + 1 ∧ t.ctx[c].sense.senseOpen = true ∧ t.ctx[c].chan.senseDue = true ∧
      t.ctx[c].chan.st = s.ctx[c].chan.st ∧ t.ctx[c].prot = s.ctx[c].prot ∧ (∀ d : CtxId, d ≠ c → t.ctx[d].chan.sofs = s.ctx[d].chan.sofs) ∧ t.clk = s.clk ∧ t.nv = s.nv)) ∧
  (∀ (s : State) (c : CtxId), (∀ v : Int, s.ctx[c].chan.zeroRun ≠ some (64, v)) → exec (.shuntAutoZero c) s = .next s))

/-- Binding tables and tokens: a scrub of words without double-bit errors that agree corrects them and costs nothing, one of a pair
with double-bit errors costs the half its tables (R19, R288); a pair whose first copy alone
holds a double-bit error takes its second (R19); the other half keeps what it holds. At a sample tag that is a multiple of 25,000 a token
check that finds every binding right writes only the free count; one that finds both halves bound alike against OWNER sets TOKEN_ERR and
unbinds the phase; one that finds one half alone bound otherwise takes that half's eligibility (R134, R288). A check that finds a mismatch
counts 1, and what a change of OWNER under way is compared with: the model's choices (log entries 161 and 30). -/
def Obligations.BindingChecks : Prop :=
  (∀ (s : State) (h : HalfId), (∀ p : PhaseId, (s.sum.half h).bindA[p].2 ≠ .double ∧ (s.sum.half h).bindB[p].2 ≠ .double ∧
      (s.sum.half h).bindA[p].1 = (s.sum.half h).bindB[p].1) →
    Completes (.bindingTableScrub h) s (fun t => (∀ p : PhaseId, (t.sum.half h).bindA[p] = ((s.sum.half h).bindA[p].1, .ok) ∧
        (t.sum.half h).bindB[p] = ((s.sum.half h).bindA[p].1, .ok)) ∧ (t.sum.half h).eligible = (s.sum.half h).eligible ∧
      t.sum.half h.other = s.sum.half h.other ∧ t.mb = s.mb ∧ t.cairn = s.cairn ∧ t.east = s.east ∧ t.west = s.west ∧ t.ctx = s.ctx ∧ t.ph = s.ph)) ∧
  (∀ (s : State) (h : HalfId) (p : PhaseId), (s.sum.half h).bindA[p].2 = .double → (s.sum.half h).bindB[p].2 = .double →
    Completes (.bindingTableScrub h) s (fun t => (t.sum.half h).eligible = false ∧ (t.sum.half h).attribErr = true ∧
      t.sum.half h.other = s.sum.half h.other ∧ t.ctx = s.ctx ∧ t.ph = s.ph ∧ t.nv = s.nv)) ∧
  (∀ (s : State) (h : HalfId) (p : PhaseId), (s.sum.half h).bindA[p].2 = .double → (s.sum.half h).bindB[p].2 ≠ .double →
    Completes (.bindingTableScrub h) s (fun t => (t.sum.half h).bindA[p] = ((s.sum.half h).bindB[p].1, .ok) ∧
      (t.sum.half h).bindB[p] = ((s.sum.half h).bindB[p].1, .ok) ∧ t.sum.half h.other = s.sum.half h.other)) ∧
  (∀ s : State, s.clk.synced = true → s.tag32 % 25000 = 0 →
    (∀ (h : HalfId) (p : PhaseId), (s.half h).ph[p].pulse = none ∧ s.ph[p].moving = false ∧ s.misbound h p = false) →
    Completes .tokenCheck s (fun t => t.tokFree = s.freeTokens ∧ t.tokErr = s.tokErr ∧ t.tokCount = s.tokCount ∧ t.east = s.east ∧ t.west = s.west ∧
      t.sum = s.sum ∧ t.mb = s.mb ∧ t.ctx = s.ctx)) ∧
  (∀ (s : State) (p : PhaseId), s.clk.synced = true → s.tag32 % 25000 = 0 → (∀ (h : HalfId) (q : PhaseId), (s.half h).ph[q].pulse = none ∧ s.ph[q].moving = false ∧
      s.misbound h q = decide (q = p)) → s.east.ph[p].bind = s.west.ph[p].bind →
    Completes .tokenCheck s (fun t => t.tokErr = true ∧ t.tokCount = capInc s.tokCount 0xFFFF ∧ t.ph[p].forced = true ∧
      (∀ h : HalfId, (t.half h).ph[p].state = .unbound ∧ (t.half h).ph[p].bind = 0 ∧ ∀ q : PhaseId, q ≠ p → (t.half h).ph[q] = (s.half h).ph[q]) ∧
      t.sum = s.sum ∧ t.ctx = s.ctx ∧ t.nv = s.nv)) ∧
  (∀ (s : State) (h : HalfId) (p : PhaseId), s.clk.synced = true → s.tag32 % 25000 = 0 →
    (∀ (g : HalfId) (q : PhaseId), (s.half g).ph[q].pulse = none ∧ s.ph[q].moving = false ∧ s.misbound g q = decide (g = h ∧ q = p)) →
    Completes .tokenCheck s (fun t => t.tokErr = s.tokErr ∧ t.tokCount = capInc s.tokCount 0xFFFF ∧ (t.sum.half h).eligible = false ∧
      (t.sum.half h).attribErr = true ∧ t.sum.half h.other = s.sum.half h.other ∧ t.east = s.east ∧ t.west = s.west ∧ t.ctx = s.ctx ∧
      t.mb.events = s.mb.events)) ∧
  (∀ s : State, (s.clk.synced = false ∨ s.tag32 % 25000 ≠ 0) → exec .tokenCheck s = .next s)

/-- What the checks of the halves do. A loss of marks, or of three heartbeats in a row, costs the half its eligibility; 16
attributing errors in one second retire it (R288, R290, R291, R296). A running supervisor whose watchdog has counted WDOG_MS
restarts, counted (R297). A difference between
the streams of two eligible halves opens a judgement; two tags later, without an attributing error, the half that does not hold
the summit loses its eligibility with DISAGREE, UNATTRIB sets and counts, and the holder keeps the summit (R287, R289). -/
def Obligations.HalfConditionsAndDisagreements : Prop :=
  ((∀ (s : State) (h : HalfId), Completes (.tagMarkSilent h) s (fun t =>
    (t.sum.half h).silent = true ∧ (t.sum.half h).eligible = false ∧ (t.sum.half h).resyncing = false ∧ (t.sum.half h).resyncTag = none ∧
    ((t.sum.half h).retired = ((s.sum.half h).retired ||
      decide (16 ≤ ((s.clk.time :: (s.sum.half h).errTimes).filter (fun u => s.clk.time < u + 400000000)).length))) ∧
    t.sum.half h.other = s.sum.half h.other ∧ t.holder = s.holder ∧ t.ctx = s.ctx ∧ t.ph = s.ph ∧ t.east = s.east ∧ t.west = s.west ∧ t.nv = s.nv)) ∧
  (∀ (s : State) (h : HalfId) (beat : Option Byte), s.clk.synced = true → s.clk.fast % 16 = 0 → 0 < s.enables → (s.enables - 1) % 4294967296 % 25 = 0 →
    (s.sum.half h).hbTag ≠ some (s.enables - 1) →
    (beat = some (BitVec.ofNat 8 (s.enables - 1)) → exec (.heartbeatLost ⟨h, beat⟩) s = .next (s.modHs h (fun x =>
      { x with hbTag := some (s.enables - 1), hbMisses := 0 }))) ∧
    (beat ≠ some (BitVec.ofNat 8 (s.enables - 1)) → (s.sum.half h).hbMisses < 2 → exec (.heartbeatLost ⟨h, beat⟩) s = .next (s.modHs h (fun x =>
      { x with hbTag := some (s.enables - 1), hbMisses := x.hbMisses + 1, hbAt := s.clk.time }))) ∧
    (beat ≠ some (BitVec.ofNat 8 (s.enables - 1)) → 2 ≤ (s.sum.half h).hbMisses → exec (.heartbeatLost ⟨h, beat⟩) s = .next (s.modHs h (fun x =>
      { x with hbTag := some (s.enables - 1), hbMisses := x.hbMisses + 1, hbAt := s.clk.time, hbLost := true, eligible := false,
               resyncing := false, resyncTag := none, resyncCopied := false, resyncBad := false })))) ∧
  (∀ (s : State) (h : HalfId) (beat : Option Byte), (s.clk.synced = false ∨ s.clk.fast % 16 ≠ 0 ∨ s.enables = 0 ∨ (s.enables - 1) % 4294967296 % 25 ≠ 0 ∨
      (s.sum.half h).hbTag = some (s.enables - 1)) → exec (.heartbeatLost ⟨h, beat⟩) s = .next s) ∧
  (∀ (s : State) (h : HalfId) (n : Nat), s.watchdogDue h n = true →
    Completes (.watchdogExpiry ⟨h, n⟩) s (fun t => (t.sum.half h).supRunning = false ∧ (t.sum.half h).supBoot = some s.clk.time ∧
      t.sum.fSupRestart = true ∧ t.sum.supRestarts = capInc s.sum.supRestarts 255 ∧ t.holder = s.holder ∧
      (t.sum.half h).eligible = (s.sum.half h).eligible ∧ (s.holder = some h → (s.sum.half h.other).eligible = true →
        (t.sum.half h).release = true ∧ t.sum.handoverAt = some s.enables) ∧
      (s.holder ≠ some h → t.sum.handoverAt = s.sum.handoverAt) ∧ t.ctx = s.ctx ∧ t.ph = s.ph ∧ t.nv = s.nv)) ∧
  (∀ (s : State) (h : HalfId) (n : Nat), s.watchdogDue h n = false → exec (.watchdogExpiry ⟨h, n⟩) s = .next s)) ∧
  ((∀ s : State, exec .halfComparison s = .next (if s.sum.east.eligible = true ∧ s.sum.west.eligible = true ∧ s.streamsDiffer = true ∧
      0 < s.enables ∧ s.sum.disagreeTag = none
    then { s with sum := { s.sum with disagreeTag := some (s.enables - 1) } } else s)) ∧
  (∀ (s : State) (t : Nat) (h : HalfId), s.sum.disagreeTag = some t → t + 3 ≤ s.enables → s.attributed t = false → s.holder = some h →
    Completes .disagreementJudgement s (fun u => u.sum.disagreeTag = none ∧ (u.sum.half h.other).eligible = false ∧
      (u.sum.half h.other).disagreed = true ∧ u.sum.fUnattrib = true ∧ u.sum.unattribs = capInc s.sum.unattribs 255 ∧ u.holder = some h ∧
      u.sum.half h = s.sum.half h ∧ u.ctx = s.ctx ∧ u.ph = s.ph ∧ u.nv = s.nv ∧
      (∀ v : Nat, s.sum.lastDisagree = some v → s.tagTime t < v + 400000000 → u.sum.fAlert = true))) ∧
  (∀ (s : State) (t : Nat), s.sum.disagreeTag = some t → t + 3 ≤ s.enables → s.attributed t = true →
    exec .disagreementJudgement s = .next { s with sum := { s.sum with disagreeTag := none } }) ∧
  (∀ (s : State) (t : Nat), s.sum.disagreeTag = some t → s.enables < t + 3 → exec .disagreementJudgement s = .next s))

/-- The summit moves: an ineligible holder loses it to the other half where that is eligible, with FAILOVER counted; with none
eligible it is vacant, the halves run their self-test, and RUN and STANDBY enter SAFE with NO_HALF, unless another transition is
taken in that fab cycle. A release that was taken moves it at the next tag, with
HANDOVER; with no eligible half to take it, it is refused (R33, R34, R292, R293, R294, R295). -/
def Obligations.SummitMoves : Prop :=
  (∀ (s : State) (h : HalfId), s.holder = some h → (s.sum.half h).eligible = false →
    Completes .failover s (fun t => ((s.sum.half h.other).eligible = true →
        t.holder = some h.other ∧ t.sum.fFailover = true ∧ t.sum.failovers = capInc s.sum.failovers 255 ∧ t.dev.st = s.dev.st ∧
        (∀ g : HalfId, (t.sum.half g).release = false ∧ (t.sum.half g).eligible = (s.sum.half g).eligible) ∧ t.ctx = s.ctx ∧ t.ph = s.ph) ∧
      ((s.sum.half h.other).eligible = false → t.holder = none ∧ t.dev.causeNoHalf = true ∧
        t.sum.testing = true ∧ ((s.dev.st = .run ∨ s.dev.st = .standby) → s.mayMove .safe = true →
          t.dev.st = .safe ∧ t.dev.runReq = false ∧ ∀ p : PhaseId, t.ph[p].forced = true) ∧
        ((s.dev.st = .run ∨ s.dev.st = .standby) → s.mayMove .safe = false → t.dev.st = s.dev.st ∧ .safe ∈ t.dev.lost)) ∧
      t.mb.queue = (if (s.sum.half h.other).eligible then [] else s.mb.queue) ∧ t.nv = s.nv)) ∧
  (∀ (s : State) (h : HalfId), s.holder = some h → (s.sum.half h).eligible = true →
    Completes .failover s (fun t => t.holder = some h ∧ t.dev = s.dev ∧ t.sum.failovers = s.sum.failovers ∧ t.ctx = s.ctx ∧ t.ph = s.ph)) ∧
  (∀ (s : State) (h : HalfId) (n : Nat), s.holder = some h → s.sum.handoverAt = some n → n < s.enables → (s.sum.half h).eligible = true →
    Completes .handoverDone s (fun t => t.sum.handoverAt = none ∧ t.sum.handoverBit = s.commits.any (fun k => decide (k.act = .handover)) ∧ (t.sum.half h).release = false ∧
      ((s.sum.half h.other).eligible = true → t.holder = some h.other ∧ t.sum.fHandover = true) ∧
      ((s.sum.half h.other).eligible = false → t.holder = some h ∧ t.sum.fRefused = true ∧ t.sum.fHandover = s.sum.fHandover) ∧
      t.dev = s.dev ∧ t.ctx = s.ctx ∧ t.ph = s.ph ∧ t.nv = s.nv)) ∧
  (∀ (s : State) (h : HalfId), s.holder = none ∨ s.sum.handoverAt = none → Completes .handoverDone s (fun t => t.holder = s.holder ∧ t.dev = s.dev ∧
    t.sum.half h = s.sum.half h)) ∧
  (∀ (s : State) (h : HalfId) (n : Nat), s.holder = some h → s.sum.handoverAt = some n → s.enables ≤ n →
    Completes .handoverDone s (fun t => t.holder = some h ∧ t.sum.handoverAt = some n ∧ t.dev = s.dev ∧ t.ctx = s.ctx ∧ t.ph = s.ph))

/-- In SAFE with no holder, the window of a requalification gives the summit to a half that passed and has no condition against it,
East first; the device stays in SAFE (R294, R311). Resynchronization: a half that may start does; with the tick that begins the 48th
tag after it, the holder's state, phase by phase, and its binding words stand in the half; once eight tags have compared alike,
within 64 tags and with the summit still at the other half, the half is eligible; an uncorrectable word, a tag that differs or the
time starts it again at the next tag, and the third failure in a row retires the half (R64, R290, R291, R302, R303). -/
def Obligations.ReturnOfHalves : Prop :=
  (∀ (east west : Bool) (s : State), s.dev.st = .safe → s.holder = none → s.clk.ok = true → s.clk.synced = true →
    Completes (.requalification east west) s (fun t =>
      t.dev.st = .safe ∧
      t.sum.testing = false ∧ (east = true → s.sum.east.blocked = false → t.holder = some .east) ∧
      (east = false → west = true → s.sum.west.blocked = false → t.holder = some .west) ∧
      (east = false → west = false → t.holder = none ∧ t.dev.causeNoHalf = true) ∧
      t.nv.mem = s.nv.mem ∧ t.gInF = s.gInF ∧ t.commits = s.commits)) ∧
  ((∀ (s : State) (h : HalfId), (s.mayResync h = true → exec (.resyncStart h) s = .next (s.modHs h (fun x =>
      { x with resyncing := true, resyncTag := some s.enables, resyncCopied := false, resyncBad := false }))) ∧
    (s.mayResync h = false → exec (.resyncStart h) s = .next s)) ∧
  (∀ (s : State) (h : HalfId) (n : Nat), (s.sum.half h).resyncTag = some n →
    (n + 57 ≤ s.enables → s.enables ≤ n + 64 → s.holder = some h.other → (s.sum.half h).resyncCopied = true → (s.sum.half h).resyncBad = false →
      exec (.resyncComplete h) s = .next (s.modHs h HalfS.regain)) ∧
    ((s.enables < n + 57 ∨ n + 64 < s.enables ∨ s.holder ≠ some h.other ∨ (s.sum.half h).resyncCopied = false ∨ (s.sum.half h).resyncBad = true) →
      exec (.resyncComplete h) s = .next s)) ∧
  (∀ (s : State) (h : HalfId), (s.sum.half h).resyncTag = none → exec (.resyncComplete h) s = .next s) ∧
  (∀ (s : State) (h : HalfId) (n : Nat), s.clocked = true → (s.sum.half h).resyncTag = some n → s.clk.fast + 1 = 16 * (n + 48) → s.holder = some h.other →
    (s.pass.sum.half h).resyncCopied = true ∧
    (∀ p : PhaseId, (s.pass.half h).ph[p] = (s.pass.half h.other).ph[p] ∧
      (s.pass.sum.half h).bindA[p] = bindRead (s.sum.half h.other).bindA[p] (s.sum.half h.other).bindB[p]) ∧
    (∀ c : CtxId, (s.pass.half h).cell[c] = { (s.pass.half h.other).cell[c] with
      residueErrors := (s.pass.half h).cell[c].residueErrors, capture := (s.pass.half h).cell[c].capture })) ∧
  (∀ (s : State) (h : HalfId) (n : Nat), (s.sum.half h).resyncTag = some n → s.holder = some h.other →
    (s.sum.half h).resyncFailed n s.enables = true →
    Completes (.resyncFail h) s (fun t => (t.sum.half h).resyncFails = (s.sum.half h).resyncFails + 1 ∧ t.sum.fResyncFail = true ∧
      ((s.sum.half h).resyncFails < 2 → (t.sum.half h).resyncTag = some (s.enables + 1) ∧ (t.sum.half h).retired = (s.sum.half h).retired) ∧
      (2 ≤ (s.sum.half h).resyncFails → (t.sum.half h).retired = true) ∧ t.sum.half h.other = s.sum.half h.other ∧ t.east = s.east ∧ t.west = s.west ∧
      t.ctx = s.ctx ∧ t.ph = s.ph ∧ t.nv = s.nv)) ∧
  (∀ (s : State) (h : HalfId) (n : Nat), (s.sum.half h).resyncTag = some n →
    ((s.sum.half h).resyncFailed n s.enables = false ∨ s.holder ≠ some h.other) →
    exec (.resyncFail h) s = .next s) ∧
  (∀ (s : State) (h : HalfId), (s.sum.half h).resyncTag = none → exec (.resyncFail h) s = .next s))

/-- The calibration requests, over a session of M1: a CAL_CMD whose conditions hold waits for its commit tag; one whose conditions do
not hold ends at once with code 5 and a CAL_DONE event; while one runs the write is refused, and nothing changes; outside a session it has no access. At the commit
tag the capture of its target starts, with CAL_TRUE as it is in force there and the words counted from 0 (R25, R159, R160, R170). The model's readings: which registers act at their commit tag (log entry 59), CAL_TRUE
taken at that of CAL_CMD (60), and CAL_DONE for an operation that ends with an error code (55). -/
def Obligations.CalibrationStarts : Prop :=
  (∀ s : State, s.carries .m1 = true →
    let go (c : Instr) (t : CalTarget) : Prop :=
      (s.calBusy = false → s.calCond t = true → Completes c s (fun u =>
        u.cal.waiting = some t ∧ u.cal.running = none ∧ u.cal.code = 1 ∧ u.cal.op = t.op ∧ u.mb.lastAnswer = 0 ∧
        u.commits = s.commits ++ [⟨s.globTag, .calStart⟩] ∧ u.ctx = s.ctx ∧ u.ph = s.ph ∧ u.nv = s.nv ∧ u.gInF = s.gInF)) ∧
      (s.calBusy = false → s.calCond t = false → Completes c s (fun u =>
        u.cal.waiting = none ∧ u.cal.running = none ∧ u.cal.code = 5 ∧ u.cal.op = t.op ∧ u.mb.lastAnswer = 0 ∧
        (s.mb.events.length < 63 → ∃ e : EvEntry, u.mb.events = s.mb.events ++ [e] ∧ e.code = evCalDone) ∧
        u.commits = s.commits ∧ u.ctx = s.ctx ∧ u.ph = s.ph ∧ u.nv = s.nv ∧ u.gInF = s.gInF)) ∧
      (s.calBusy = true → exec c s = .next { s with mb := { s.mb with lastAnswer := ansBusy } })
    (∀ c : CtxId, go (.railP1 .m1 c) (.railP1 c) ∧ go (.railP2 .m1 c) (.railP2 c) ∧ go (.shuntGain .m1 c) (.shuntGain c)) ∧
    (∀ p : PhaseId, go (.phaseGain .m1 p) (.phaseGain p))) ∧
  (∀ (s : State) (i : Iface), i ≠ .m1 → s.carries i = true →
    let no : Host.Outcome State Fault Refusal := .next { s with mb := { s.mb with lastAnswer := ansAccess } }
    (∀ c : CtxId, exec (.railP1 i c) s = no ∧ exec (.railP2 i c) s = no ∧ exec (.shuntGain i c) s = no) ∧ ∀ p : PhaseId, exec (.phaseGain i p) s = no) ∧
  (∀ (s : State) (n : Nat) (t : CalTarget), s.commits = [⟨n, .calStart⟩] → n ≤ s.enables → s.cal.waiting = some t →
    Completes .commitTag s (fun u => u.cal.running = some t ∧ u.cal.waiting = none ∧ u.cal.count = 0 ∧ u.cal.sum = 0 ∧
      u.cal.trueV = s.gp .calTrue ∧ u.commits = [] ∧ u.ctx = s.ctx ∧ u.nv = s.nv))

/-- A calibration's capture ends when its words are complete, and not before: an outcome that ends the operation gives its code (9
under a stated fault); a point P1 is held for its P2 with the die temperature; a record waits to be written, unless NVM_BP
protects Q3 or the die is outside its window. The record's completion stores it, makes its words wait for their commit tag, and
ends the operation as final or provisional (R159 to R163, R334). That SENSE_FAULT is judged at the end of the capture, and that RAIL_P2
uses up the point, is the model's reading (log entry 130). -/
def Obligations.CalibrationEnds : Prop :=
  (∀ (s : State) (x : CalTarget), s.cal.running = some x → x.words ≤ s.cal.count →
    (∀ k : Nat, s.calCompute x = .ends k → Completes .calCaptureDone s (fun t =>
      t.cal.running = none ∧ t.cal.code = k ∧ t.cal.writing = s.cal.writing ∧ t.nv = s.nv ∧ t.ctx = s.ctx ∧ t.commits = s.commits)) ∧
    (s.calFault x = true → s.calCompute x = .ends 9) ∧
    (∀ (c : CtxId) (v k : Int), s.calCompute x = .held c v k → Completes .calCaptureDone s (fun t =>
      t.cal.point = some (c, v, k, s.dieTemp) ∧ t.cal.running = none ∧ t.cal.code = 4 ∧ t.nv = s.nv ∧ t.ctx = s.ctx ∧
      t.ph = s.ph ∧ t.commits = s.commits ∧ t.mb.m0 = s.mb.m0)) ∧
    (∀ (typ k : Nat) (g o : Int) (prov : Bool) (f : Option Nat) (b : List Byte), s.calCompute x = .record typ k g o prov f b →
      Completes .calCaptureDone s (fun t => t.cal.running = none ∧ t.nv = s.nv ∧ t.ctx = s.ctx ∧ t.ph = s.ph ∧ t.commits = s.commits ∧
        t.cal.point = none ∧ t.cal.loadFrac = f.getD s.cal.loadFrac ∧
        (s.protects 3 = true → t.cal.code = 0xA ∧ t.cal.writing = s.cal.writing) ∧
        (s.protects 3 = false → s.inWindow = false → t.cal.code = 0xB ∧ t.cal.writing = s.cal.writing) ∧
        (s.protects 3 = false → s.inWindow = true → t.cal.writing = some (x, k, b, g, o, prov))))) ∧
  (∀ s : State, (s.cal.running = none ∨ ∃ x : CalTarget, s.cal.running = some x ∧ s.cal.count < x.words) → exec .calCaptureDone s = .next s) ∧
  (∀ (s : State) (x : CalTarget) (k : Nat) (b : List Byte) (g o : Int) (prov : Bool), s.nv.work = .cal → s.cal.writing = some (x, k, b, g, o, prov) →
    s.pmb.jobs = [] → Completes .calRecordWritten s (fun t => t.cal.writing = none ∧ t.nv.work = .idle ∧ t.cal.code = (if prov then 3 else 2) ∧
      t.commits = s.commits ++ [match x with
        | .railP1 c | .railP2 c => ⟨s.ctxTag c, .railCal c g o⟩
        | .phaseGain p => ⟨s.globTag, .phaseCal p g prov⟩
        | .shuntGain c => ⟨s.ctxTag c, .shuntCal c g prov⟩] ∧
      t.nv.mem = (Store.append .q3 s.keepRec Area.q3.blocks (s.workDone.makeRoom .q3).nv
        ((s.workDone.makeRoom .q3).nv.nextRec .q3 x.typ k 52 b)).mem ∧ t.ctx = s.ctx ∧ t.ph = s.ph ∧ t.gInF = s.gInF)) ∧
  (∀ s : State, (s.nv.work ≠ .cal ∨ s.cal.writing = none) → exec .calRecordWritten s = .next s)

/-- A read of FT_NOW_HI returns bits 47 to 32 of field time and latches bits 31 to 0 for its own interface alone; FT_NOW_LO returns
what its interface latched and empties the latch, or the live low word where nothing is latched; every latch is empty after
BOOT, and the M1 latch empties when a session opens (R178). -/
def Obligations.FieldTimeReads : Prop :=
  (∀ (i : Iface) (s : State), s.carries i = true →
    let own : FieldT → Option Word := match i with
      | .m0 => FieldT.latchM0
      | .m1 => FieldT.latchM1
      | .pmb => FieldT.latchPmb
    exec (.ftNowHi i) s = .next { s with
      ft := s.ft.latch i (some (word s.ftUs)), mb := { s.mb with lastRead := word (s.ftUs / 4294967296 % 65536), lastAnswer := 0 } } ∧
    own (s.ft.latch i (some (word s.ftUs))) = some (word s.ftUs) ∧
    exec (.ftNowLo i) s = .next { s with
      ft := s.ft.latch i none, mb := { s.mb with lastRead := (own s.ft).getD (word s.ftUs), lastAnswer := 0 } } ∧
    own (s.ft.latch i none) = none) ∧
  (∀ (f : FieldT) (w : Option Word), (f.latch .m0 w).latchM1 = f.latchM1 ∧ (f.latch .m0 w).latchPmb = f.latchPmb ∧
    (f.latch .m1 w).latchM0 = f.latchM0 ∧ (f.latch .m1 w).latchPmb = f.latchPmb ∧ (f.latch .pmb w).latchM0 = f.latchM0 ∧
    (f.latch .pmb w).latchM1 = f.latchM1) ∧
  (let empty (t : State) : Prop := t.dev.st = .boot ∧ t.ft.latchM0 = none ∧ t.ft.latchM1 = none ∧ t.ft.latchPmb = none
   empty State.reset ∧ (∀ s : State, s.dev.st = .cold → Completes .vinUvloRise s empty) ∧
    (∀ (ns : Nat) (s : State), 800 ≤ ns → (s.dev.st = .boot ∨ s.dev.st = .standby ∨ s.dev.st = .run ∨ s.dev.st = .safe) → s.mayMove .reset = true →
      Completes (.resetNLow ns) s empty) ∧
    (∀ s : State, s.dev.st = .holdup → s.gaspOver = true → s.dev.vinOn = true → Completes .lastGaspComplete s empty)) ∧
  (∀ s : State, s.openSession.ft.latchM1 = none ∧ s.openSession.mb.session = true)

/-- An edge of TSYNC: on another edge, or with no source selected, nothing happens; on the selected source and edge, one that R173 does
not accept is ignored and sets GLITCH; an accepted one ends holdover and is remembered. With ARM set, field time becomes exactly
the value to load and ARM clears (R174); the first after a change of the source only starts the measurement; a phase error above
100 µs steps field time by that error and leaves the rate word as it was (R175); a smaller one disciplines the frequency and rate
words, outside holdover, and LOCKED follows the run of small errors (R175, R176, R483). No accepted edge for three periods:
HOLDOVER sets, LOCKED clears and the rate word becomes the frequency word (R176). -/
def Obligations.TsyncAndHoldover : Prop :=
  (∀ (f : Bool) (s : State), (s.ftSrc = 0 ∨ f ≠ s.ftFalling ∨ s.clocked = false) → exec (.tsyncEdge f) s = .next s) ∧
  (∀ (f : Bool) (s : State), s.ftSrc ≠ 0 → f = s.ftFalling → s.clocked = true →
    let e := phaseError s.ft.ft (pulseUs s.ftSrc)
    (s.edgeAccepted = false → exec (.tsyncEdge f) s = .next { s with ft := { s.ft with glitch := true } }) ∧
    (s.edgeAccepted = true → s.ft.armBit = true → Completes (.tsyncEdge f) s (fun t =>
      t.ft.ft = s.ft.armLoad * 2 ^ 40 % 2 ^ 88 ∧ t.ft.armBit = false ∧ t.ft.valid = true ∧ t.ft.holdover = false ∧ t.ft.lastEdge = some t.ft.ft ∧
      t.ft.lastAt = s.clk.time ∧ t.ft.rate = s.ft.rate ∧ t.nv = s.nv ∧ t.gInF = s.gInF)) ∧
    (s.edgeAccepted = true → s.ft.armBit = false → (s.ft.openSrc = true ∨ s.ft.openArm = true) →
      exec (.tsyncEdge f) s = .next { s with ft := { s.ft with good := 0, openSrc := false, openArm := false, holdover := false,
                                                                lastEdge := some s.ft.ft, lastAt := s.clk.time } }) ∧
    (s.edgeAccepted = true → s.ft.armBit = false → s.ft.openSrc = false → s.ft.openArm = false → 100 * 2 ^ 40 < e.natAbs →
      Completes (.tsyncEdge f) s (fun t =>
        t.ft.stepped = true ∧ t.ft.rate = s.ft.rate ∧ t.ft.freq = s.ft.freq ∧ t.ft.locked = false ∧ t.ft.good = 0 ∧ t.ft.holdover = false ∧
        t.ft.stepCount = capInc s.ft.stepCount 255 ∧ t.ft.phaseErr = errorNs e ∧
        t.ft.ft = (((s.ft.ft : Int) - e).toNat) % 2 ^ 88 ∧ t.nv = s.nv ∧ t.gInF = s.gInF)) ∧
    (s.edgeAccepted = true → s.ft.armBit = false → s.ft.openSrc = false → s.ft.openArm = false → e.natAbs ≤ 100 * 2 ^ 40 →
      let good := if 10 * e.natAbs ≤ 2 ^ 40 ∧ s.ft.holdover = false then s.ft.good + 1 else 0
      let freq := if s.ft.holdover then s.ft.freq else rateLim (s.ft.freq + roundAway (-e) (6400 * pulseUs s.ftSrc))
      let rate := if s.ft.holdover then s.ft.rate else rateLim (freq + roundAway (-e) (1600 * pulseUs s.ftSrc))
      exec (.tsyncEdge f) s = .next { s with ft := { s.ft with
        phaseErr := errorNs e, good := good, locked := (s.ft.locked && decide (2 * e.natAbs ≤ 2 ^ 40)) || decide (4 ≤ good), freq := freq,
        rate := rate, holdover := false, lastEdge := some s.ft.ft, lastAt := s.clk.time } })) ∧
  (∀ s : State,
    (s.ftSrc ≠ 0 → s.ft.holdover = false → s.ft.lastAt + 1200 * pulseUs s.ftSrc ≤ s.clk.time →
      exec .holdover s = .next { s with ft := { s.ft with holdover := true, locked := false, good := 0, rate := s.ft.freq } }) ∧
    ((s.ftSrc = 0 ∨ s.ft.holdover = true ∨ s.clk.time < s.ft.lastAt + 1200 * pulseUs s.ftSrc) → exec .holdover s = .next s))

/-- The gate instant of the due event with the earliest t (R182), which is over with it: an ON of a channel that may start begins its gate ramp in the same tick, and
a channel of a section counts as the last one started; where thermal spacing asks for it, the start is deferred; an ON of a
STOPPING channel is held (the model's reading of R186 beside R233, log entry 72); one of a channel already on goes on as a STEP; one that may not start is not started, counted; an OFF
begins the pull-down (R185, R186, R190, R233, R234, R236). A deferred start in its turn begins, or fails where the channel may
not start (R186, R232, R234). A confirmation window that closes without a confirmation: the event is MISSED, its profile is
withdrawn and MISS_COUNT rises (R190). The conduction comparator: the channel's conduction follows it, and the first edge of a
start ends the measurement of the on-delay that was waiting for it, which the channel learns up to 200 µs (R192). -/
def Obligations.ScheduleInstants : Prop :=
  ((∀ (s : State) (c : CtxId), (∀ e ∈ s.ctx[c].sched.events, e.due s.ft.ft = false) → exec (.gateStart c) s = .next s) ∧
  (∀ (s : State) (c : CtxId) (e : Event), earliest (s.ctx[c].sched.events.filter (fun e => e.due s.ft.ft)) = some e →
    Completes (.gateStart c) s (fun t =>
      let x := s.ctx[c].chan
      let y := t.ctx[c].chan
      let mine (P : Event → Prop) : Prop := ∀ f ∈ t.ctx[c].sched.events, f.serial = e.serial → P f
      mine (fun f => f.gateDone = true ∧ f.armed = none) ∧ (e.kind = .step → y = x) ∧
      (e.kind = .on → (x.st = .starting ∨ x.st = .on) → y = x ∧ mine (fun f => f.asStep = true)) ∧
      (e.kind = .on → x.st = .stopping → x.offNow s.clk.time = false → x.heldEv = none →
        y.heldOn = true ∧ y.heldEv = some e.serial ∧ y.st = .stopping) ∧
      (e.kind = .on → s.mayStart c = true → x.offNow s.clk.time = false → x.deferred = none → s.spacing c = none →
        y.st = .starting ∧ y.on = true ∧ y.gateAt = some s.clk.time ∧ y.startEv = some e.serial ∧ (c ≠ 0 → t.lastOn = some s.clk.time)) ∧
      (e.kind = .on → s.mayStart c = true → x.offNow s.clk.time = false → x.deferred = none → (s.spacing c).isSome = true →
        y.st = .off ∧ y.on = true ∧ y.deferred.map (fun d => (d.original, d.event)) = some (s.clk.time, some e.serial)) ∧
      (e.kind = .on → x.st ≠ .starting → x.st ≠ .on → x.st ≠ .stopping → s.mayStart c = false → x.deferred = none →
        y = x ∧ t.ctx[c].sched.notStarted = true ∧ t.ctx[c].sched.missCount = capInc s.ctx[c].sched.missCount 255 ∧
        mine (fun f => f.outcome = some .notStarted ∧ f.withdrawing = true)) ∧
      (e.kind = .off → (x.st = .starting ∨ x.st = .on) → x.startedNow s.clk.time = false → y.st = .stopping ∧ y.on = false ∧
        y.offEv = some e.serial ∧ y.gateAt = some s.clk.time) ∧
      (e.kind = .off → x.startedNow s.clk.time = true → y.st = .off ∧ y.on = false ∧ y.gateAt = none) ∧
      (e.kind = .off → x.st = .off → y.st = .off ∧ y.on = false ∧ mine (fun f => f.asStep = true)) ∧ t.nv = s.nv ∧ t.gInF = s.gInF)) ∧
  (∀ (s : State) (c : CtxId) (d : Deferred), s.ctx[c].chan.deferred = some d → d.due ≤ s.clk.time → s.deferredFirst c d = true →
    Completes (.deferredGateStart c) s (fun t => t.ctx[c].chan.deferred = none ∧
      (s.mayStart c = true → t.ctx[c].chan.st = .starting ∧ t.ctx[c].chan.gateStart = s.clk.time ∧ t.ctx[c].chan.startEv = d.event ∧
        (c ≠ 0 → t.lastOn = some s.clk.time)) ∧
      (s.mayStart c = false → t.ctx[c].chan.st = s.ctx[c].chan.st ∧ t.ctx[c].chan.on = false ∧ t.lastOn = s.lastOn ∧
        (d.event = none → t.ctx[c].chan.startBlocked = true)) ∧
      (∀ d : CtxId, d ≠ c → t.ctx[d] = s.ctx[d]) ∧ t.ph = s.ph ∧ t.nv = s.nv ∧ t.gInF = s.gInF)) ∧
  (∀ (s : State) (c : CtxId), (∀ d : Deferred, s.ctx[c].chan.deferred = some d → s.clk.time < d.due ∨ s.deferredFirst c d = false) →
    exec (.deferredGateStart c) s = .next s)) ∧
  (∀ (s : State) (c : CtxId), (∀ e : Event, s.ctx[c].sched.events.find? Event.timedOut = some e →
    Completes (.confirmationTimeout c) s (fun t =>
      t.ctx[c].sched.missed = true ∧ t.ctx[c].sched.missCount = capInc s.ctx[c].sched.missCount 255 ∧
      t.ctx[c].sched.events = s.ctx[c].sched.events.map (fun f => if f.serial = e.serial then
        { f with withdrawing := true, outcome := some .missed, closed := true, floor := 0, armed := none, gateDone := true } else f) ∧
      t.ctx[c].chan = s.ctx[c].chan ∧ (∀ d : CtxId, d ≠ c → t.ctx[d] = s.ctx[d]) ∧ t.nv = s.nv ∧ t.gInF = s.gInF ∧ t.mb = s.mb)) ∧
    ((∀ e ∈ s.ctx[c].sched.events, e.timedOut = false) → exec (.confirmationTimeout c) s = .next s)) ∧
  (∀ (s : State) (c : CtxId) (ago : Nat),
    Completes (.conductionEdge c true ago) s (fun t => t.ctx[c].chan.conducting = true ∧ t.ctx[c].chan.measOn = none ∧
      t.ctx[c].chan.proven = (s.ctx[c].chan.proven || decide (s.ctx[c].chan.st = .starting)) ∧
      (∀ n : Nat, s.ctx[c].chan.measOn = some n → t.ctx[c].chan.d8On = (if s.clk.time - ago - n ≤ 80000
        then s.ctx[c].chan.d8On + (s.clk.time - ago - n : Nat) - s.ctx[c].chan.d8On / 8 else s.ctx[c].chan.d8On)) ∧
      t.ctx[c].chan.st = s.ctx[c].chan.st ∧ (∀ d : CtxId, d ≠ c → t.ctx[d] = s.ctx[d]) ∧ t.ph = s.ph ∧ t.nv = s.nv) ∧
    Completes (.conductionEdge c false ago) s (fun t => t.ctx[c].chan.conducting = false ∧ t.ctx[c].chan.d8On = s.ctx[c].chan.d8On ∧
      (4000 ≤ ago → t.ctx[c].chan.measOff = none) ∧ (ago < 4000 → t.ctx[c].chan.measOff = s.ctx[c].chan.measOff) ∧
      (∀ d : CtxId, d ≠ c → t.ctx[d] = s.ctx[d]) ∧ t.ph = s.ph ∧ t.nv = s.nv))

/-- SWITCH_ON in a state that allows it, SWITCH_OFF, SWITCH_CLEAR, FAULT_CLEAR and RETRY_RESET: each waits for the context's commit
tag and changes nothing else (R25, R232, R233, R246, R262, R264). An ON that the state forbids is refused, and one of a context that the
compatibility view hides answers NO_INDEX (R481). SWITCH_CLEAR writes ON as it reads, so that it is refused where the
state forbids ON: the model's reading (log entries 74, 77). At their commit tag: an ON command begins the gate ramp of a channel that may
start, or is deferred where thermal spacing asks for it, or held by a STOPPING channel, or sets START_BLOCKED with ON cleared where the
channel may not start, and is lost to an OFF command of the same fast tick (R232 to R234);
an OFF command clears ON, a cleared fault releases the context's latch and leaves the others as they were, and RETRY_RESET sets
RETRY_USED to 0. -/
def Obligations.SwitchAndFaultWrites : Prop :=
  (∀ (i : Iface) (c : CtxId) (s : State), s.carries i = true →
    let after (a : Act) : State :=
      { s with commits := s.commits ++ [⟨s.ctxTag c, a⟩], mb := { s.mb with lastAnswer := 0 } }
    let refused : State := { s with mb := { s.mb with lastAnswer := ansState } }
    (s.hides i c = true → ∀ a ∈ [Instr.switchOn i c, .switchOff i c, .switchClear i c, .faultClear i c, .retryReset i c],
      exec a s = .next { s with mb := { s.mb with lastAnswer := ansNoIndex } }) ∧
    (s.hides i c = false →
      (s.stateAllowsOn c = true → exec (.switchOn i c) s = .next (after (.swCtl c true false))) ∧
      (s.stateAllowsOn c = false → exec (.switchOn i c) s = .next refused) ∧
      exec (.switchOff i c) s = .next (after (.swCtl c false false)) ∧
      ((s.ctx[c].chan.on = true → s.stateAllowsOn c = true) →
        exec (.switchClear i c) s = .next (after (.swCtl c s.ctx[c].chan.on true))) ∧
      (s.ctx[c].chan.on = true → s.stateAllowsOn c = false → exec (.switchClear i c) s = .next refused) ∧
      exec (.faultClear i c) s = .next (after (.faultCtl c true false)) ∧
      exec (.retryReset i c) s = .next (after (.faultCtl c false true)))) ∧
  (∀ (s : State) (n : Nat) (c : CtxId), n ≤ s.enables → s.commits = [⟨n, .swCtl c true false⟩] →
    let x := s.ctx[c].chan
    let idle : Prop := x.st ≠ .starting ∧ x.st ≠ .on ∧ x.st ≠ .stopping
    Completes .commitTag s (fun t =>
      let y := t.ctx[c].chan
      (x.offNow s.clk.time = true → t.ctx = s.ctx) ∧
      (x.offNow s.clk.time = false →
        (x.st = .starting ∨ x.st = .on → y = { x with on := true }) ∧
        (x.st = .stopping → y = { x with on := true, heldOn := true }) ∧
        (idle → x.deferred = none → s.mayStart c = true → s.spacing c = none → y.st = .starting ∧ y.on = true ∧ y.gateStart = s.clk.time ∧
          y.gateAt = some s.clk.time ∧ y.measOn = some s.clk.time ∧ y.proven = false ∧ y.insTimer = 0 ∧ y.startEv = none ∧
          (c ≠ 0 → t.lastOn = some s.clk.time) ∧ (c = 0 → t.lastOn = s.lastOn)) ∧
        (idle → x.deferred = none → s.mayStart c = true → ∀ d : Nat, s.spacing c = some d → (∀ b : CtxId, s.runsAfter c b = false) →
          y = { x with on := true, deferred := some { original := s.clk.time, due := d, event := none } } ∧ t.lastOn = s.lastOn) ∧
        (idle → x.deferred = none → s.mayStart c = false → y.st = x.st ∧ y.on = false ∧ y.heldOn = false ∧ y.startBlocked = true ∧
          t.lastOn = s.lastOn) ∧
        (idle → x.deferred.isSome = true → y = { x with on := true })) ∧
      ((∀ b : CtxId, s.runsAfter c b = false) → ∀ d : CtxId, d ≠ c → t.ctx[d] = s.ctx[d]) ∧ t.ph = s.ph ∧ t.nv = s.nv ∧ t.gInF = s.gInF)) ∧
  (∀ (s : State) (n : Nat) (c : CtxId), n ≤ s.enables →
    (s.commits = [⟨n, .swCtl c false false⟩] → Completes .commitTag s (fun t => t.ctx[c].chan.on = false ∧
      (∀ d : CtxId, d ≠ c → t.ctx[d] = s.ctx[d]) ∧ t.ph = s.ph ∧ t.nv = s.nv)) ∧
    (s.commits = [⟨n, .faultCtl c true false⟩] → Completes .commitTag s (fun t => t.ctx[c].prot.latched = false ∧
      t.ctx[c].prot.retryDue = none ∧ t.ctx[c].chan = s.ctx[c].chan ∧ (∀ d : CtxId, d ≠ c → t.ctx[d] = s.ctx[d]) ∧ t.nv = s.nv)) ∧
    (s.commits = [⟨n, .faultCtl c false true⟩] → Completes .commitTag s (fun t => t.ctx[c].prot = { s.ctx[c].prot with retryUsed := 0 } ∧
      (∀ d : CtxId, d ≠ c → t.ctx[d] = s.ctx[d]) ∧ t.ph = s.ph ∧ t.nv = s.nv)))

/-- Seating: a low of SEAT_c starts its count, or starts it again as a glitch (the model's reading, log entry 20), and an unseated channel debounces; after SEAT_DEBOUNCE
milliseconds the channel is seated and OFF, where a comparator that reads tripped counts; a high during the debounce sets
SEAT_GLITCH and ends it; a high of a seated channel that is off unseats it (R230, R240, R244). Nothing outside the channel changes. A
gate still at or above 1.0 V 20 µs after its pull-down began is GATE_STUCK, also for a channel already in FAULT (R243). A gate
below 1.0 V ends a stop: the channel rests, OFF if it is seated, and a held ON acts or is blocked; it ends a granted FAULT too
(R233, R244, R246). A channel whose SEAT_c reads low rests in SEATING, the model's reading (log entry 129). A command before its instant
does nothing (log entry 3). -/
def Obligations.SeatingAndGateEnds : Prop :=
  (∀ (s : State) (c : CtxId),
    let x := s.ctx[c].chan
    let debounced (n : Nat) : Prop := n + (s.cp c .seatDebounce).toNat * 400000 ≤ s.clk.time
    (x.seated = true → exec (.seatLow c) s = .next s) ∧
    (x.seated = false → exec (.seatLow c) s = .next (s.modChan c (fun _ => { x with
      seatLowSince := some s.clk.time, seatGlitch := x.seatGlitch || x.seatLowSince.isSome, st := if x.st = .unseated then .seating else x.st }))) ∧
    (∀ n : Nat, x.seated = false → x.seatLowSince = some n → debounced n → Completes (.seated c) s (fun t =>
      t.ctx[c].chan.seated = true ∧ t.ctx[c].chan.st = (if x.st = .unseated ∨ x.st = .seating then .off else x.st) ∧
      t.ctx[c].chan.tripCount = (if x.tripped = true ∧ x.tripCounted = false then capInc x.tripCount 255 else x.tripCount) ∧
      (∀ d : CtxId, d ≠ c → t.ctx[d] = s.ctx[d]) ∧ t.ph = s.ph ∧ t.mb = s.mb ∧ t.nv = s.nv)) ∧
    ((x.seated = true ∨ x.seatLowSince = none ∨ ∃ n ∈ x.seatLowSince, ¬ debounced n) → exec (.seated c) s = .next s) ∧
    (x.seated = false → exec (.seatLost c) s = .next (s.modChan c (fun _ => { x with
      seatLowSince := none, seatGlitch := x.seatGlitch || x.seatLowSince.isSome, st := if x.st = .seating then .unseated else x.st }))) ∧
    (x.seated = true → (x.st = .off ∨ x.st = .stopping) → exec (.seatLost c) s = .next (s.modChan c (fun _ => { x with
      seated := false, seatLowSince := none, st := if x.st = .off then .unseated else x.st })))) ∧
  (∀ (s : State) (c : CtxId),
    let x := s.ctx[c].chan
    (x.vgs ≠ 0 → x.pullStart + 8000 ≤ s.clk.time → (x.st = .stopping ∨ (x.st = .fault ∧ x.cause ≠ .gateStuck)) →
      Completes (.gateStuck c) s (fun t => t.ctx[c].chan.st = .fault ∧ t.ctx[c].chan.cause = .gateStuck ∧
        t.ctx[c].chan.passDeviceFail = true ∧ t.ctx[c].chan.toDeclare = some .gateStuck ∧ t.ctx[c].chan.on = false ∧
        (∀ d : CtxId, d ≠ c → t.ctx[d] = s.ctx[d]) ∧ t.ph = s.ph ∧ t.nv = s.nv)) ∧
    ((x.vgs = 0 ∨ s.clk.time < x.pullStart + 8000 ∨ (x.st ≠ .stopping ∧ (x.st = .fault → x.cause = .gateStuck))) →
      exec (.gateStuck c) s = .next s)) ∧
  (∀ (s : State) (c : CtxId),
    let x := s.ctx[c].chan
    let rest : ChState := if x.seated then .off else if x.seatLowSince.isSome then .seating else .unseated
    (x.st = .stopping → x.heldOn = false →
      Completes (.vgsBelow1V c) s (fun t => t.ctx[c].chan.st = rest ∧ t.ctx[c].chan.vgs = 0 ∧ t.ctx[c].chan.offSince = s.clk.time ∧
        (∀ d : CtxId, d ≠ c → t.ctx[d] = s.ctx[d]) ∧ t.ph = s.ph ∧ t.nv = s.nv)) ∧
    (x.st = .stopping → x.heldOn = true →
      let u := s.modChan c (fun x => { ({ x with vgs := 0 } : Chan).rest s.clk.time with heldOn := false, heldEv := none })
      Completes (.vgsBelow1V c) s (fun t => t.ctx[c].chan.heldOn = false ∧ t.ctx[c].chan.heldEv = none ∧
        (u.mayStart c = true → u.spacing c = none → t.ctx[c].chan.st = .starting ∧ t.ctx[c].chan.startEv = x.heldEv) ∧
        (u.mayStart c = false → t.ctx[c].chan.st = rest ∧ t.ctx[c].chan.on = false ∧ t.ctx[c].chan.startBlocked = true) ∧ t.ph = s.ph ∧ t.nv = s.nv)) ∧
    (x.st = .fault → x.retryOn = false → Completes (.vgsBelow1V c) s (fun t => t.ctx[c].chan.vgs = 0 ∧ t.ctx[c].chan.offSince = s.clk.time ∧
      t.ctx[c].chan.st = (if x.granted then rest else .fault) ∧ (∀ d : CtxId, d ≠ c → t.ctx[d] = s.ctx[d]) ∧ t.ph = s.ph ∧ t.nv = s.nv)) ∧
    (x.st ≠ .stopping → x.st ≠ .fault → exec (.vgsBelow1V c) s = .next (s.modChan c (fun x => { x with vgs := 0 }))))

/-- Faults of a channel that conducts or starts: the channel enters FAULT with its cause, its flag and its pull-down, ON clears, and
only that channel's context changes (R238, R241, R242, R245). The fast-trip comparator follows TRIP; a crossing is FAST_TRIP there,
and is flagged and counted in OFF, STOPPING and FAULT too (R239, R240). Of causes of one fast tick the first in the order is recorded and
is to be declared, whichever came first; each sets its flag, and the flags already set stand (R245). Before its condition holds, no
timeout does anything (log entry 3). -/
def Obligations.ChannelFaults : Prop :=
  (∀ (s : State) (c : CtxId),
    let x := s.ctx[c].chan
    let live : Prop := x.st = .on ∨ x.st = .starting
    let faulted (t : State) (k : ChCause) : Prop :=
      t.ctx[c].chan.st = .fault ∧ t.ctx[c].chan.cause = k ∧ t.ctx[c].chan.toDeclare = some k ∧ t.ctx[c].chan.on = false ∧
      t.ctx[c].chan.pullStart = s.clk.time ∧ t.ctx[c].chan.granted = false ∧ (∀ d : CtxId, d ≠ c → t.ctx[d] = s.ctx[d]) ∧ t.ph = s.ph ∧
      t.nv = s.nv ∧ t.gInF = s.gInF ∧ t.mb = s.mb
    (∀ v : Int, tripLevel (s.cp c .trip) v = true → x.tripped = false → x.tripCounted = false → Completes (.fastTrip c v) s (fun t =>
      t.ctx[c].chan.tripped = true ∧ t.ctx[c].chan.shuntUv = some v ∧ (live → faulted t .fastTrip) ∧
      ((live ∨ x.st = .off ∨ x.st = .stopping ∨ x.st = .fault) → t.ctx[c].chan.fastTrip = true ∧ t.ctx[c].chan.tripCount = capInc x.tripCount 255) ∧
      ((x.st = .off ∨ x.st = .stopping ∨ x.st = .unseated ∨ x.st = .seating) → t.ctx[c].chan.st = x.st) ∧
      ((x.st = .unseated ∨ x.st = .seating) → t.ctx[c].chan.tripCount = x.tripCount))) ∧
    (∀ v : Int, tripLevel (s.cp c .trip) v = false →
      exec (.fastTrip c v) s = .next (s.modChan c (fun _ => { x with shuntUv := some v, tripped := false, tripCounted := false }))) ∧
    (x.seated = true → live → Completes (.seatLost c) s (fun t =>
      faulted t .seatLost ∧ t.ctx[c].chan.seatLost = true ∧ t.ctx[c].chan.seated = false)) ∧
    (x.st = .fault → x.faultAt = some s.clk.time →
      let also (k : ChCause) (t : State) : Prop :=
        let y := t.ctx[c].chan
        let first := decide (ChCause.order.idxOf k < ChCause.order.idxOf x.cause)
        y.st = .fault ∧ y.cause = (if first then k else x.cause) ∧ y.toDeclare = (if first then some k else x.toDeclare) ∧ y.flagOf k = true ∧
        (∀ q : ChCause, x.flagOf q = true → y.flagOf q = true) ∧ y.faultFrom = x.faultFrom ∧ (∀ d : CtxId, d ≠ c → t.ctx[d] = s.ctx[d]) ∧
        t.nv = s.nv ∧ t.mb = s.mb
      (x.faultFrom = .on ∨ x.faultFrom = .starting → (x.seated = true → Completes (.seatLost c) s (also .seatLost)) ∧
        ∀ v : Int, tripLevel (s.cp c .trip) v = true → x.tripped = false → Completes (.fastTrip c v) s (also .fastTrip)) ∧
      (x.faultFrom = .starting → x.proven = false → x.gateStart + ((s.cp c .gateTimeout).toNat + 1) * 400 ≤ s.clk.time →
        Completes (.gateNotRising c) s (also .gateNotRising)) ∧
      (x.faultFrom = .starting → (s.cp c .insTime).toNat ≤ x.insTimer →
        Completes (.insertionTimeout c) s (also (if x.faultLim then .startShort else .gateLow))) ∧
      (x.faultFrom = .on → (s.cp c .insTime).toNat ≤ x.foldTimer → Completes (.foldbackTimeout c) s (also .foldbackTimeout))) ∧
    (x.st = .starting → x.proven = false → x.gateStart + ((s.cp c .gateTimeout).toNat + 1) * 400 ≤ s.clk.time → Completes (.gateNotRising c) s (fun t =>
      faulted t .gateNotRising ∧ t.ctx[c].chan.passDeviceFail = true)) ∧
    (x.st = .starting → (s.cp c .insTime).toNat ≤ x.insTimer → Completes (.insertionTimeout c) s (fun t =>
      (x.limiting = true → faulted t .startShort ∧ t.ctx[c].chan.startShort = true) ∧
      (x.limiting = false → faulted t .gateLow ∧ t.ctx[c].chan.passDeviceFail = true))) ∧
    (x.st = .on → (s.cp c .insTime).toNat ≤ x.foldTimer → Completes (.foldbackTimeout c) s (fun t =>
      faulted t .foldbackTimeout ∧ t.ctx[c].chan.foldbackTimeout = true))) ∧
  (∀ (s : State) (c : CtxId),
    let x := s.ctx[c].chan
    ((x.stateOf s.clk.time ≠ .starting ∨ x.proven = true ∨ s.clk.time < x.gateStart + ((s.cp c .gateTimeout).toNat + 1) * 400) →
      exec (.gateNotRising c) s = .next s) ∧
    ((x.stateOf s.clk.time ≠ .starting ∨ x.insTimer < (s.cp c .insTime).toNat) → exec (.insertionTimeout c) s = .next s) ∧
    ((x.stateOf s.clk.time ≠ .on ∨ x.foldTimer < (s.cp c .insTime).toNat) → exec (.foldbackTimeout c) s = .next s))

/-- A Crag comparator follows its inputs with its hysteresis: it trips above zero, it clears below minus its hysteresis, between
them it keeps its output, and POL exchanges the inputs (R251, R252). A group with FILT = 0 is its input: it asserts in the same
event, adds 1 to TRIP_HITS and forces its stages (R254, R255, R257). A filtered group asserts once its input has been tripped
for FILT fast ticks in a row, with one more TRIP_HITS and its stages forced; it deasserts once its input is clear (R254, R257). That the
synchronizer adds no tick is the model's choice (log entry 19). An assertion before its instant does nothing (log entry 3). -/
def Obligations.CragAndTripGroups : Prop :=
  (∀ (s : State) (k : Fin 16) (v : Int),
    Completes (.cragCrossing k v) s (fun t => t.crag[k].diff = v ∧ (∀ j : Fin 16, j ≠ k → t.crag[j] = s.crag[j]) ∧
      (let f := s.cragField k
       let d := if f / 4 % 2 = 0 then v else -v
       (0 < d → t.crag[k].tripped = true) ∧ (d < -cragHys f → t.crag[k].tripped = false) ∧
       (-cragHys f ≤ d → d ≤ 0 → t.crag[k].tripped = s.crag[k].tripped)) ∧
      (∀ c : CtxId, t.ctx[c].prot.tripFilter.isSome = t.groupInput c) ∧
      (∀ c : CtxId, s.tripFilt c = 0 → t.ctx[c].prot.tripAsserted = t.groupInput c) ∧
      (∀ c : CtxId, s.tripFilt c ≠ 0 → t.ctx[c].prot.tripAsserted = s.ctx[c].prot.tripAsserted) ∧
      (let asserts (c : CtxId) : Prop := s.tripFilt c = 0 ∧ s.ctx[c].prot.tripAsserted = false ∧ t.groupInput c = true
       (∀ c : CtxId, (asserts c → t.ctx[c].prot.tripHits = (s.ctx[c].prot.tripHits + 1) % 2 ^ 32 ∧ t.ctx[c].prot.tripSeen = true ∧
         ∀ p : PhaseId, s.groupTargets c p = true → t.ph[p].forced = true) ∧
        (¬ asserts c → t.ctx[c].prot.tripHits = s.ctx[c].prot.tripHits)) ∧
       ∀ p : PhaseId, (∀ c : CtxId, asserts c → s.groupTargets c p = false) → t.ph[p] = s.ph[p]) ∧ t.nv = s.nv ∧ t.mb = s.mb ∧ t.gInF = s.gInF)) ∧
  ((∀ (s : State) (c : CtxId) (n : Nat), s.ctx[c].prot.tripFilter = some n → s.ctx[c].prot.tripAsserted = false →
    n + s.tripFilt c ≤ s.clk.time → Completes (.tripGroupAssert c) s (fun t =>
      t.ctx[c].prot.tripAsserted = true ∧ t.ctx[c].prot.tripHits = (s.ctx[c].prot.tripHits + 1) % 2 ^ 32 ∧
      (∀ p : PhaseId, s.groupTargets c p = true → t.ph[p].forced = true) ∧
      (∀ p : PhaseId, s.groupTargets c p = false → t.ph[p] = s.ph[p]) ∧ (∀ d : CtxId, d ≠ c → t.ctx[d] = s.ctx[d]) ∧ t.nv = s.nv ∧ t.mb = s.mb)) ∧
  (∀ (s : State) (c : CtxId), (s.ctx[c].prot.tripAsserted = true ∨ s.ctx[c].prot.tripFilter = none ∨
      ∃ n ∈ s.ctx[c].prot.tripFilter, s.clk.time < n + s.tripFilt c) → exec (.tripGroupAssert c) s = .next s) ∧
  (∀ (s : State) (c : CtxId), s.ctx[c].prot.tripAsserted = true → s.ctx[c].prot.tripFilter = none →
    exec (.tripGroupDeassert c) s = .next (s.modCtx c (fun x => { x with prot := { x.prot with tripAsserted := false } }))) ∧
  (∀ (s : State) (c : CtxId), (s.ctx[c].prot.tripAsserted = false ∨ s.ctx[c].prot.tripFilter.isSome = true) →
    exec (.tripGroupDeassert c) s = .next s))

/-- A retry: RETRY_DELAY after its declaration the context is released, the retry is counted and a release event is queued; a
channel's retry grants the release of its FAULT, which acts once the gate is off, with an ON command (R246, R264). Before its
instant it does nothing (log entry 3). RETRY_USED returns to 0 after 10 s of regulation since the last retry, and not before (R264). -/
def Obligations.Retries : Prop :=
  (∀ (s : State) (c : CtxId) (n : Nat), s.ctx[c].prot.retryDue = some n → n ≤ s.clk.time → s.ctx[c].chan.retryDue = none →
    Completes (.retryInterval c) s (fun t => t.ctx[c].prot.latched = false ∧ t.ctx[c].prot.retryDue = none ∧
      t.ctx[c].prot.retryUsed = s.ctx[c].prot.retryUsed + 1 ∧ t.ctx[c].prot.retryApplyOn = s.ctx[c].prot.retryChanOn ∧
      (s.mb.events.length < 63 → ∃ e : EvEntry, t.mb.events = s.mb.events ++ [e] ∧ e.code = evFaultReleased ∧ e.source = c.val) ∧
      (∀ d : CtxId, d ≠ c → t.ctx[d] = s.ctx[d]) ∧ t.ph = s.ph ∧ t.nv = s.nv ∧ t.gInF = s.gInF)) ∧
  (∀ (s : State) (c : CtxId) (n : Nat), s.ctx[c].prot.retryDue = none → s.ctx[c].chan.retryDue = some n → n ≤ s.clk.time → s.ctx[c].chan.st = .fault →
    Completes (.retryInterval c) s (fun t => t.ctx[c].chan.retryDue = none ∧ t.ctx[c].prot.retryUsed = s.ctx[c].prot.retryUsed + 1 ∧
      (s.ctx[c].chan.vgs ≠ 0 → t.ctx[c].chan.st = .fault ∧ t.ctx[c].chan.granted = true ∧ t.ctx[c].chan.retryOn = true) ∧
      (s.ctx[c].chan.vgs = 0 → t.ctx[c].chan.st ≠ .fault ∧ t.ctx[c].chan.granted = false ∧ t.ctx[c].chan.retryOn = false) ∧
      t.ph = s.ph ∧ t.nv = s.nv ∧ t.gInF = s.gInF)) ∧
  (∀ (s : State) (c : CtxId), (∀ n ∈ s.ctx[c].prot.retryDue, s.clk.time < n) → (∀ n ∈ s.ctx[c].chan.retryDue, s.clk.time < n) →
    exec (.retryInterval c) s = .next s) ∧
  (∀ (s : State) (c : CtxId), (s.ctx[c].regulating = true → s.ctx[c].prot.lastRetry + 4000000000 ≤ s.clk.time →
    exec (.retryUsedExpiry c) s = .next (s.modCtx c (fun x => { x with prot := { x.prot with retryUsed := 0 } }))) ∧
    ((s.ctx[c].regulating = false ∨ s.clk.time < s.ctx[c].prot.lastRetry + 4000000000) → exec (.retryUsedExpiry c) s = .next s))

/-- A zone's evaluation takes the samples whose instants have come, and where its own has come forms the zone's value and level (R273,
R275, R277); in BOOT sensors are sampled and no zone is evaluated, which is the model's reading (log entry 145). SHUT of a die
zone costs the half its eligibility and SHUT of the Heath's zone enters SAFE (R278, R279). A sample gives its sensor's reading, or
0x7FFF with SENSOR_BROKEN (R274); one that comes before its instant is none. -/
def Obligations.ZoneEvaluations : Prop :=
  (∀ (s : State) (z : Fin 19) (l : List TempSample),
    let u := l.foldl State.sampleAt s
    (s.dev.st ≠ .cold → s.dev.st ≠ .boot → thermDue s.th.evalAt[z] (u.zoneFast z) s.clk.time = true → Completes (.zoneEvaluation z l) s (fun t =>
      t.th.reading = u.th.reading ∧ t.th.broken = u.th.broken ∧ t.th.zone[z] = u.zoneNext z (u.zoneValue z) ∧ t.th.evalAt[z] = some s.clk.time ∧
      (∀ y : Fin 19, y ≠ z → t.th.zone[y] = s.th.zone[y]) ∧ t.gInF = s.gInF ∧ t.nv = s.nv ∧ t.clk = s.clk ∧
      (z.val = 0 → t.th.zone[z].level = .shut → s.th.zone[z].level ≠ .shut → t.sum.east.eligible = false ∧ t.sum.east.dieShut = true) ∧
      (z.val = 1 → t.th.zone[z].level = .shut → s.th.zone[z].level ≠ .shut → t.sum.west.eligible = false ∧ t.sum.west.dieShut = true) ∧
      (z.val = 2 → t.th.zone[z].level = .shut → s.th.zone[z].level ≠ .shut → t.dev.causeFault = true ∧
        ((s.dev.st = .run ∨ s.dev.st = .standby) → s.mayMove .safe = true → t.dev.st = .safe)))) ∧
    (s.dev.st ≠ .cold → (s.dev.st = .boot ∨ thermDue s.th.evalAt[z] (u.zoneFast z) s.clk.time = false) → exec (.zoneEvaluation z l) s = .next u) ∧
    (s.dev.st = .cold → exec (.zoneEvaluation z l) s = .next s)) ∧
  (∀ (s : State) (z : Fin 19) (k : Fin 8) (j : Fin 24), s.dev.st ≠ .cold → j.val = k.val →
    (thermDue s.th.sampledAt[j] (s.sensorFast j) s.clk.time = true →
      (∀ v : Int, -32767 ≤ v → v ≤ 32766 →
        Completes (.zoneEvaluation z [.die k (some v)]) s (fun t => t.th.reading[j] = v ∧ t.th.broken.getLsbD k.val = false ∧
          t.th.sampledAt[j] = some s.clk.time)) ∧
      Completes (.zoneEvaluation z [.die k none]) s (fun t => t.th.reading[j] = 32767 ∧ t.th.broken.getLsbD k.val = true ∧ t.th.fBroken = true)) ∧
    (thermDue s.th.sampledAt[j] (s.sensorFast j) s.clk.time = false → ∀ v : Option Int,
      Completes (.zoneEvaluation z [.die k v]) s (fun t => t.th.reading = s.th.reading ∧ t.th.sampledAt = s.th.sampledAt)))

/-- A ledger take is due at its interval in STANDBY, RUN and SAFE and waits for the global commit tag. The entry that the write
engine has in progress is programmed at the tally ring's pointer: its delta is what the account has staged, TSEQ counts, the
subtraction waits for its commit tag, the class-B flag goes with it, and no other byte of the store changes; nothing staged programs
nothing, so that nothing can fail; a block that fails the program of an entry is retired, and the entry waits for the next (R336, R339 to
R343). With no entry in
progress nothing happens. -/
def Obligations.LedgerEntries : Prop :=
  (∀ s : State, (s.dev.st = .standby ∨ s.dev.st = .run ∨ s.dev.st = .safe) →
    s.led.lastTake + bitsOf (s.gp .ledgerCfg) 0 16 * 400000000 ≤ s.clk.time →
    exec .ledgerTake s = .next { s with led := { s.led with lastTake := s.clk.time }, commits := s.commits ++ [⟨s.globTag, .take⟩] }) ∧
  (∀ s : State, (s.clk.time < s.led.lastTake + bitsOf (s.gp .ledgerCfg) 0 16 * 400000000 ∨ s.dev.st = .boot ∨ s.dev.st = .cold ∨ s.dev.st = .holdup) →
    exec .ledgerTake s = .next s) ∧
  (∀ (s : State) (n : Nat), s.commits = [⟨n, .take⟩] → n ≤ s.enables → (∀ h : HalfId, (s.sum.half h).stopped s.enables = false) →
    Completes .commitTag s (fun t => ∀ (h : HalfId) (c : CtxId),
      (t.half h).cell[c].sCharge = tag ((s.half h).cell[c].sCharge.v + (s.half h).cell[c].uCharge.v) ∧
      (t.half h).cell[c].sEnergy = tag ((s.half h).cell[c].sEnergy.v + (s.half h).cell[c].uEnergy.v) ∧
      (t.half h).cell[c].uCharge = tag 0 ∧ (t.half h).cell[c].uEnergy = tag 0)) ∧
  (∀ (s : State) (a : Fin 128) (rest : List (Fin 128)), s.nv.work = .entry → s.led.queue = a :: rest → Memory.wf (0xFF : Byte) s.nv.mem = true →
    let v := clamp ((s.cell (accCtx a)).staged a - s.pendingSub a) (-deltaMax) deltaMax
    let at0 := tallyAddr s.nv.tallyAt
    Completes .tallyEntryCommitted s (fun t => t.nv.work = .idle ∧ t.gInF = s.gInF ∧ t.ph = s.ph ∧ t.east = s.east ∧ t.west = s.west ∧
      (v ≠ 0 → s.tallyFails = true → t.led = s.led ∧ t.nv.mem = s.nv.mem ∧ t.nv.retiredBlocks.getLsbD (12 + s.nv.tallyAt / 256) = true ∧ t.commits = s.commits) ∧
      (v = 0 → t.nv = { s.nv with work := .idle } ∧ t.led = { s.led with queue := rest } ∧ t.commits = s.commits ∧ t.ctx = s.ctx ∧
        t.cairn = s.cairn ∧ t.mb = s.mb) ∧
      (v ≠ 0 → s.tallyFails = false → t.led.queue = rest ∧ t.cairn = s.cairn ∧ t.mb = s.mb ∧ (t.led.nextSeq = (s.led.nextSeq + 1) % 65536 ∧ t.commits = s.commits ++ [⟨s.globTag, .tallySub a v⟩] ∧
          t.nv.ptrTally = (s.nv.tallyAt + 1) % 1024 ∧ (∀ d : CtxId, d ≠ accCtx a → t.ctx[d] = s.ctx[d]) ∧
          (s.ctx[accCtx a].stagedMark (accEnergy a) = true → t.mark a = true) ∧
          (∀ k : Nat, k < 16 → t.nv.byte (at0 + k) =
            (tallyBytes a.val (s.ctx[accCtx a].stagedMark (accEnergy a)) s.led.nextSeq v).getD k 0xFF) ∧
          (∀ x : Nat, (x < at0 ∨ at0 + 16 ≤ x) → t.nv.byte x = s.nv.byte x))))) ∧
  (∀ s : State, (s.nv.work ≠ .entry ∨ s.led.queue = []) → exec .tallyEntryCommitted s = .next s)

/-- LOSS is computed at each read, as the live energy of account 1 less those of accounts 3, 5 to 127, and the read stores nothing
(R340). -/
def Obligations.LossAccount : Prop :=
  ∀ (s : State) (r : Req), s.Asks 0x30 2 r → (s.mb.slot r).arg 1 = 128 → (s.mb.slot r).arg 2 = 1 →
    let v : Int := s.live 1 - ((List.finRange 63).map (fun k => s.live ⟨2 * (k.val + 1) + 1, by omega⟩)).sum
    Completes .ledgerRead s (fun t => t.mb = s.taken.mb.respond r 0 0 [BitVec.ofInt 32 (v / 4294967296), BitVec.ofInt 32 v, 0] ∧
      t.led = s.led ∧ t.nv = s.nv ∧ t.ctx = s.ctx ∧ t.east = s.east ∧ t.west = s.west)

/-- The record-store requests, over a session of M1, which alone has access: DISMISS and ADD of an open item are accepted and wait for
their commit tag, where ADD queues its two records and DISMISS the item's Cairn summary, with its payload, where the queue has room, the
record store has had fewer than 32 requests in this second and the die is in the last-gasp window; else the request is suppressed and
counted, and the item stays open (R335, R346, R348, R350; the model's reading, log entry 142). LEDGER_MARK_CLR queues its record for the
write engine, a new identity only where its context has no base record (R336); the Cairn is acknowledged only up to a sequence this session has read, and erased only when all is acknowledged,
both at the commit tag (R25, R339, R346, R351, R378). -/
def Obligations.StoreRequests : Prop :=
  (∀ s : State, s.carries .m1 = true →
    let refused (k : Nat) : Host.Outcome State Fault Refusal := .next { s with mb := { s.mb with lastAnswer := k } }
    let asked (op : Nat) (k : Fin 32) (n : Nat) : State := { s with
      led := { s.led with lastResolve := word (op * 268435456 + k.val) }, nv := { s.nv with hostWrite := some (n, none) }
      commits := s.commits ++ [⟨s.globTag, .resolve k (decide (op = 1))⟩], mb := { s.mb with lastAnswer := 0 } }
    (∀ (k : Fin 32) (b : List Byte), s.led.items[k] = some b → leAt b 1 1 = 1 → s.hostRefusal .q1 0 = 0 →
      (leAt b 0 1 = 1 → exec (.ledgerResolveAdd .m1 k) s = .next (asked 1 k 2)) ∧
      (leAt b 0 1 ≠ 1 → exec (.ledgerResolveAdd .m1 k) s = refused ansBadItem) ∧
      exec (.ledgerResolveDismiss .m1 k) s = .next (asked 2 k 1)) ∧
    (∀ k : Fin 32, (∀ b ∈ s.led.items[k], leAt b 1 1 ≠ 1) →
      exec (.ledgerResolveAdd .m1 k) s = refused ansNoItem ∧ exec (.ledgerResolveDismiss .m1 k) s = refused ansNoItem) ∧
    (∀ c : CtxId,
      let new := if (s.nv.inForce .q1 0x10 c.val).isNone then 1 else 0
      (s.hostRefusal .q1 new = 0 → exec (.ledgerMarkClr .m1 c) s = .next { s with
        led := { s.led with lastMarkClr := word c.val }
        nv := { s.nv with hostWrite := some (s.nv.hostQueue.length + 1, none)
                          hostQueue := s.nv.hostQueue ++ [(0x10, c.val, padTo 52 (s.basePayload c false false))] }
        mb := { s.mb with lastAnswer := 0 } }) ∧
      (s.hostRefusal .q1 new ≠ 0 → exec (.ledgerMarkClr .m1 c) s = refused (s.hostRefusal .q1 new))) ∧
    (∀ seq : Word, (s.cairn.returned.contains seq.toNat = true → exec (.cairnAck .m1 seq) s = .next { s with
        cairn := { s.cairn with ackNew := seq.toNat }, commits := s.commits ++ [⟨s.globTag, .cairnAck seq⟩], mb := { s.mb with lastAnswer := 0 } }) ∧
      (s.cairn.returned.contains seq.toNat = false → exec (.cairnAck .m1 seq) s = refused ansNotExported)) ∧
    (s.cairn.ackNew = s.cairn.newest → s.protects 0 = false → s.nv.erasing = false → exec (.cairnErase .m1) s = .next { s with
        commits := s.commits ++ [⟨s.globTag, .cairnErase⟩], mb := { s.mb with lastAnswer := 0 } }) ∧
    (s.cairn.ackNew ≠ s.cairn.newest → exec (.cairnErase .m1) s = refused ansNotExported)) ∧
  (∀ (s : State) (i : Iface) (k : Fin 32) (c : CtxId) (seq : Word), i ≠ .m1 → s.carries i = true →
    let no : Host.Outcome State Fault Refusal := .next { s with mb := { s.mb with lastAnswer := ansAccess } }
    exec (.ledgerResolveAdd i k) s = no ∧ exec (.ledgerResolveDismiss i k) s = no ∧ exec (.ledgerMarkClr i c) s = no ∧
    exec (.cairnAck i seq) s = no ∧ exec (.cairnErase i) s = no) ∧
  (∀ (s : State) (n : Nat), n ≤ s.enables →
    (∀ (k : Fin 32) (b : List Byte) (j : Nat) (q : Option Req), s.commits = [⟨n, .resolve k true⟩] → s.led.items[k] = some b → s.nv.hostWrite = some (j, q) →
      Completes .commitTag s (fun t => t.nv = { s.nv with
        hostQueue := s.nv.hostQueue ++ [(0x14, k.val, itemState b 2 s.led.nextSeq), (0x14, k.val, itemState b 0 s.led.nextSeq)] } ∧ t.led = s.led ∧ t.ctx = s.ctx)) ∧
    (∀ (k : Fin 32) (b : List Byte) (j : Nat) (q : Option Req), s.commits = [⟨n, .resolve k false⟩] → s.led.items[k] = some b → s.nv.hostWrite = some (j, q) →
      let sec := s.clk.time / 400000000
      let taken := if s.cairn.second = sec then s.cairn.thisSecond[(67 : Fin 69)] else 0
      let room : Prop := s.cairn.queue.length < 16 ∧ taken < 32 ∧ s.dieWithin (-5120) 16000 = true
      Completes .commitTag s (fun t => t.led = s.led ∧ t.ctx = s.ctx ∧
        (room → t.nv = s.nv ∧ ∃ r, t.cairn.queue = s.cairn.queue ++ [r] ∧ r.frees = some k ∧ r.source = 67 ∧ r.code = 0x17 ∧
          r.words = (List.range 8).map (fun j => word (leAt b (4 * j) 4)) ∧
          t.cairn.written[(67 : Fin 69)] = s.cairn.written[(67 : Fin 69)] + 1 ∧ t.cairn.suppressed = s.cairn.suppressed ∧
          t.cairn.second = sec ∧ t.cairn.thisSecond[(67 : Fin 69)] = taken + 1) ∧
        (¬ room → t.nv = { s.nv with hostWrite := none } ∧ t.cairn.queue = s.cairn.queue ∧
          t.cairn.suppressed[(67 : Fin 69)] = s.cairn.suppressed[(67 : Fin 69)] + 1 ∧ t.cairn.written = s.cairn.written))) ∧
    (∀ w : Word, s.commits = [⟨n, .cairnAck w⟩] → Completes .commitTag s (fun t => t.cairn = { s.cairn with ack := w.toNat } ∧ t.nv = s.nv ∧ t.ctx = s.ctx)) ∧
    (s.commits = [⟨n, .cairnErase⟩] → Completes .commitTag s (fun t => t.nv = { s.nv with erasing := true } ∧ t.cairn = s.cairn ∧ t.ctx = s.ctx)))

/-- What the write engine has in progress ends: a consolidation touches quarter 1 alone; a reclaim touches its area
alone, and leaves the next block erased where its copies fit before it and no program fails. With something else in progress
these events do nothing. Deferred writes resume once the temperature allows (R281, R329, R331, R343). -/
def Obligations.StoreMaintenance : Prop :=
  (∀ s : State, s.nv.work = .consolidate → Memory.wf (0xFF : Byte) s.nv.mem = true →
    Completes .consolidation s (fun t => t.nv.work = .idle ∧ (∀ x : Nat, (x < 0x8000 ∨ 0x10000 ≤ x) → t.nv.byte x = s.nv.byte x) ∧ t.ctx = s.ctx ∧
      t.led = s.led ∧ t.commits = s.commits ∧ t.east = s.east ∧ t.west = s.west)) ∧
  (∀ s : State, s.nv.work ≠ .consolidate → exec .consolidation s = .next s) ∧
  (∀ (s : State) (k : Fin 3), s.nv.work = .reclaim k → Memory.wf (0xFF : Byte) s.nv.mem = true →
    s.nv.nextBlock (Area.ofFin k) ≠ s.nv.at (Area.ofFin k) / 64 →
    Completes (.reclaim k) s (fun t =>
      let a := Area.ofFin k
      t.nv.work = .idle ∧ (∀ x : Nat, (x < a.base ∨ a.base + 4096 * a.blocks ≤ x) → t.nv.byte x = s.nv.byte x) ∧ t.ctx = s.ctx ∧ t.led = s.led ∧
      (s.nv.nextErased a = true → t.nv.mem = s.nv.mem) ∧
      ((∀ x : Nat, s.nv.fails x = false) → (s.nv.inBlock a (s.nv.nextBlock a) s.keepRec).length ≤ 64 - s.nv.at a % 64 →
        t.nv.erasedRange (a.addr (64 * s.nv.nextBlock a)) 4096 = true))) ∧
  (∀ (s : State) (k : Fin 3), s.nv.work ≠ .reclaim k → exec (.reclaim k) s = .next s) ∧
  (∀ s : State, (s.routineDeferred = false → exec .deferredWritesResume s = .next { s with nv := { s.nv with held := false } }) ∧
    (s.routineDeferred = true → exec .deferredWritesResume s = .next s))

/-- A record that the write engine has in progress ends. Of a host-initiated write: the queue is shorter by it, and with the last the
request is answered; a base record takes the context's marks, a FREE one frees its item, and an ADDING one programs its entry and
joins the committed count (R332, R339, R346, R440). Of the Cairn: the sequence counts, a block that fails is retired, a dismissed
item is freed, and a snapshot is taken (R336, R346, R347, R349). The hold test every 10 s, the Cairn's erase and the fresh save
end with what they measured or wrote (R351, R352, R439). The other quarters stay as they were, and with nothing in progress these
events do nothing. -/
def Obligations.RecordWrites : Prop :=
  ((∀ (s : State) (typ ident n : Nat) (b : List Byte) (rest : List (Nat × Nat × List Byte)) (reply : Option Req),
    s.nv.work = .host → s.nv.hostQueue = (typ, ident, b) :: rest → s.nv.hostWrite = some (n, reply) → s.pmb.jobs = [] →
    Memory.wf (0xFF : Byte) s.nv.mem = true →
    Completes .hostRecordWriteDone s (fun t => t.nv.work = .idle ∧ t.nv.hostQueue = rest ∧ t.gInF = s.gInF ∧ t.clk = s.clk ∧
      (rest = [] → t.nv.hostWrite = none ∧ t.mb.m0 = (s.mb.release reply).m0 ∧ t.mb.m1 = (s.mb.release reply).m1) ∧
      (rest ≠ [] → t.nv.hostWrite = some (n - 1, reply) ∧ t.mb.m0 = s.mb.m0 ∧ t.mb.m1 = s.mb.m1) ∧
      (∀ x : Nat, (x < 0x8000 * (typeArea typ).quarter ∨ 0x8000 * ((typeArea typ).quarter + 1) ≤ x) → t.nv.byte x = s.nv.byte x) ∧
      (∀ c : CtxId, typ = 0x10 → ident = c.val → t.ctx[c].markQ = bitOf (leAt b 1 1) 0 ∧ t.ctx[c].markE = bitOf (leAt b 1 1) 1 ∧
        ∀ d : CtxId, d ≠ c → t.ctx[d] = s.ctx[d]) ∧
      (∀ k : Fin 32, typ = 0x14 → ident = k.val → (leAt b 1 1 ≠ 2 → t.led.items[k] = none ∧ t.ctx = s.ctx) ∧
        (leAt b 1 1 = 2 → s.nv.tallyFull = false → t.led.items[k] = some b ∧ t.led.nextSeq = (leAt b 2 2 + 1) % 65536 ∧
          ∀ a : Fin 128, a.val = leAt b 8 1 % 128 → t.committed a = s.committed a + signedOf 40 (leAt b 11 5))))) ∧
  (∀ s : State, (s.nv.work ≠ .host ∨ s.nv.hostQueue = [] ∨ s.nv.hostWrite = none) → exec .hostRecordWriteDone s = .next s)) ∧
  ((∀ (s : State) (r : CairnReq) (rest : List CairnReq), s.nv.work = .cairn → s.cairn.queue = r :: rest → Memory.wf (0xFF : Byte) s.nv.mem = true →
    Completes .cairnRecordWrite s (fun t => t.nv.work = .idle ∧ t.led = s.led ∧ (∀ x : Nat, 0x8000 ≤ x → t.nv.byte x = s.nv.byte x) ∧
      (s.cairnFails = true → (∃ l, t.cairn.queue = s.cairn.queue ++ l) ∧ t.cairn.newest = s.cairn.newest ∧ t.nv.mem = s.nv.mem ∧
        t.nv.retiredBlocks.getLsbD (s.nv.cairnAt / 64) = true) ∧
      (s.cairnFails = false → (r.signal = none ∨ r.source.val < 64) → (∃ l, t.cairn.queue = rest ++ l) ∧
        t.cairn.newest = (s.cairn.newest + 1) % 4294967296 ∧ t.nv.ptrCairn = (s.nv.cairnAt + 1) % 512 ∧
        (r.signal = none → t.cairn.sinceSummary[r.source] = 0) ∧
        (∀ c : CtxId, r.signal.isSome = true → r.source.val = c.val → t.ctx[c].prot.snapshots = s.ctx[c].prot.snapshots - 1) ∧
        (r.frees = none → t.nv.hostQueue = s.nv.hostQueue) ∧
        (∀ (k : Fin 32) (b : List Byte), r.frees = some k → s.led.items[k] = some b → s.nv.hostWrite.isSome = true →
          t.nv.hostQueue = s.nv.hostQueue ++ [(0x14, k.val, itemState b 0 (leAt b 2 2))])))) ∧
  (∀ s : State, (s.nv.work = .cairn → s.cairn.queue = [] → exec .cairnRecordWrite s = .next { s with nv := { s.nv with work := .idle } }) ∧
    (s.nv.work ≠ .cairn → exec .cairnRecordWrite s = .next s)) ∧
  (∀ s : State, s.nv.work = .erase → Memory.wf (0xFF : Byte) s.nv.mem = true →
    Completes .cairnEraseDone s (fun t => t.nv.erasing = false ∧ t.nv.work = .idle ∧ t.cairn.newest = (s.cairn.newest + 1) % 4294967296 ∧
      (∀ x : Nat, 0x8000 ≤ x → t.nv.byte x = s.nv.byte x) ∧ t.ctx = s.ctx ∧ t.led = s.led ∧
      ((∀ b n, Config.eraseFails b n = false) → s.nv.retiredBlocks = 0 → t.nv.ptrCairn = 1 ∧ ∀ x : Nat, 64 ≤ x → x < 0x8000 → t.nv.byte x = 0xFF))) ∧
  (∀ s : State, s.nv.work ≠ .erase → exec .cairnEraseDone s = .next s)) ∧
  ((∀ (s : State) (v d : Nat), (s.dev.st = .standby ∨ s.dev.st = .run) → (∀ n ∈ s.cairn.testedAt, n + 4000000000 ≤ s.clk.time) →
    Completes (.holdTest v d) s (fun t => t.cairn.vhold = v % 65536 ∧ t.cairn.cap = holdCap d ∧ t.cairn.testedAt = some s.clk.time ∧
      (t.cairn.holdOk = true ↔ 1000 ≤ v % 65536 ∧ 47 ≤ holdCap d) ∧ (t.cairn.holdOk = true → t.mb = s.mb) ∧ t.nv = s.nv ∧ t.ctx = s.ctx ∧ t.dev = s.dev)) ∧
  (∀ (s : State) (v d : Nat), (s.dev.st ≠ .standby ∧ s.dev.st ≠ .run ∨ ∃ n ∈ s.cairn.testedAt, s.clk.time < n + 4000000000) →
    exec (.holdTest v d) s = .next s)) ∧
  (∀ s : State, s.nv.work = .own → s.dev.freshSave = true → Memory.wf (0xFF : Byte) s.nv.mem = true →
    Completes .freshSave s (fun t => t.dev.freshSave = false ∧ t.dev.freshPairs = [] ∧ t.dev.st = s.dev.st ∧ t.nv.work = .idle ∧
      t.nv.routine = s.nv.routine.drop 1 ∧ (∀ x : Nat, (x < 0x10000 ∨ 0x18000 ≤ x) → t.nv.byte x = s.nv.byte x) ∧ t.ctx = s.ctx ∧ t.led = s.led)) ∧
  (∀ s : State, (s.nv.work ≠ .own ∨ s.dev.freshSave = false) → exec .freshSave s = .next s)

/-- FW_ERASE and FW_VERIFY wait for the global commit tag; FW_RESTART needs a verified shadow image; a write while an operation runs
or waits is refused, and so is one through an interface without the privileged view (R305, R317). At the commit tag the operation
starts on the shadow's bank, with its code 1; RESTART costs the shadow its eligibility, and an absent shadow ends it with code 7: the model's
reading, log entry 21. A RESTART that finds a shadow which no VERIFY has passed starts nothing and reads ABORTED: the model's choice, log
entry 162. -/
def Obligations.FirmwareWrites : Prop :=
  (∀ s : State, s.carries .m1 = true →
    let after (op : Fin 16) (w : Word) : State := { s with
      sum := { s.sum with fwCtl := w }, commits := s.commits ++ [⟨s.globTag, .fwCtl op false⟩], mb := { s.mb with lastAnswer := 0 } }
    let refused : State := { s with mb := { s.mb with lastAnswer := ansState } }
    (s.sum.fwRunning = false → s.fwPending = false →
      exec (.fwErase .m1) s = .next (after 1 0x10000000) ∧ exec (.fwVerify .m1) s = .next (after 2 0x20000000) ∧
      ((s.shadow = none ∨ s.shadowVerified = true) → exec (.fwRestart .m1) s = .next (after 3 0x30000000)) ∧
      (s.shadow.isSome = true → s.shadowVerified = false → exec (.fwRestart .m1) s = .next refused)) ∧
    ((s.sum.fwRunning = true ∨ s.fwPending = true) →
      exec (.fwErase .m1) s = .next refused ∧ exec (.fwVerify .m1) s = .next refused ∧ exec (.fwRestart .m1) s = .next refused)) ∧
  (∀ (s : State) (i : Iface), i ≠ .m1 → s.carries i = true →
    let no : Host.Outcome State Fault Refusal := .next { s with mb := { s.mb with lastAnswer := ansAccess } }
    exec (.fwErase i) s = no ∧ exec (.fwVerify i) s = no ∧ exec (.fwRestart i) s = no) ∧
  (∀ (s : State) (n : Nat) (op : Fin 16) (b : Bool), s.commits = [⟨n, .fwCtl op b⟩] → n ≤ s.enables →
    Completes .commitTag s (fun t => t.sum.fwOp = op.val ∧ t.ctx = s.ctx ∧ t.nv = s.nv ∧
      (s.shadow = none → t.sum.fwCode = 7 ∧ t.sum.fwRunning = s.sum.fwRunning) ∧
      (op.val = 3 → s.shadow.isSome = true → s.shadowVerified = false → t.sum = { s.sum with fwOp := 3, fwCode := 8 }) ∧
      (∀ h : HalfId, s.shadow = some h → (op.val = 3 → s.shadowVerified = true) → t.sum.fwCode = 1 ∧ t.sum.fwRunning = true ∧ t.sum.fwBank = bankOf h ∧
        (op.val = 3 → (t.sum.half h).eligible = false ∧ (t.sum.half h).supRunning = false ∧ (t.sum.half h).supBoot = some s.clk.time) ∧
        (op.val ≠ 3 → t.sum.half h = s.sum.half h))))

/-- A firmware operation ends: FW_STATUS takes its code and RUN clears, an erase succeeds, and a verification says what the image
is; the floor rises to the release that both banks hold verified, where that lies above it and the supervisors run one release, and
at no other time (R306). The other bank as the fallback is the model's reading (log entry 91). A supervisor boots from the bank that its half may boot, or stands without an
image, and a RESTART of it ends with it (R305, R306, R317, R318). -/
def Obligations.FirmwareEnds : Prop :=
  let raised (s t : State) : Prop :=
    t.sum.mixed = (t.sum.east.supRunning && t.sum.west.supRunning && decide (t.sum.east.runsRelease ≠ t.sum.west.runsRelease)) ∧
    (let up : Prop := t.sum.bankAValid = true ∧ t.sum.bankBValid = true ∧ t.sum.releaseA = t.sum.releaseB ∧ t.sum.mixed = false ∧
      s.sum.floor.toNat < t.sum.releaseA.toNat
     (up → t.sum.floor = t.sum.releaseA) ∧ (¬ up → t.sum.floor = s.sum.floor))
  (∀ s : State, s.sum.fwRunning = true → s.sum.fwOp = 1 → Completes .fwOperationDone s (fun t => t.sum.fwRunning = false ∧ t.sum.fwCode = 2 ∧
    t.sum.flashA = s.sum.flashA ∧ t.sum.flashB = s.sum.flashB ∧ t.sum.east = s.sum.east ∧ t.sum.west = s.sum.west ∧ t.ctx = s.ctx ∧ t.nv = s.nv)) ∧
  (∀ s : State, s.sum.fwRunning = true → s.sum.fwOp = 2 → Completes .fwOperationDone s (fun t => t.sum.fwRunning = false ∧
    t.sum.fwCode = s.sum.verify s.sum.fwBank ∧ (s.sum.fwBank = false → t.sum.bankAValid = decide (s.sum.verify false = 2) ∧ t.sum.bankBValid = s.sum.bankBValid) ∧
    (s.sum.fwBank = true → t.sum.bankBValid = decide (s.sum.verify true = 2) ∧ t.sum.bankAValid = s.sum.bankAValid) ∧
    t.sum.flashA = s.sum.flashA ∧ t.sum.flashB = s.sum.flashB ∧ raised s t ∧
    (s.sum.fwBank = false → t.sum.releaseA = BitVec.ofNat 32 (s.sum.imageRelease false) ∧ t.sum.releaseB = s.sum.releaseB) ∧
    (s.sum.fwBank = true → t.sum.releaseB = BitVec.ofNat 32 (s.sum.imageRelease true) ∧ t.sum.releaseA = s.sum.releaseA) ∧
    t.ctx = s.ctx ∧ t.nv = s.nv)) ∧
  (∀ s : State, (s.sum.fwRunning = false ∨ (s.sum.fwOp ≠ 1 ∧ s.sum.fwOp ≠ 2)) → exec .fwOperationDone s = .next s) ∧
  (∀ (s : State) (h : HalfId), (s.sum.half h).supBoot.isSome = true → Completes (.supervisorBooted h) s (fun t =>
    (t.sum.half h).supBoot = none ∧ (t.sum.half h).eligible = (s.sum.half h).eligible ∧ t.sum.half h.other = s.sum.half h.other ∧
    (t.sum.half h).supRunning = (s.sum.bankFor h).isSome ∧ (t.sum.half h).noImage = (s.sum.bankFor h).isNone ∧
    (∀ b ∈ s.sum.bankFor h, (t.sum.half h).bootedB = b ∧ (t.sum.half h).runsRelease = BitVec.ofNat 32 (s.sum.imageRelease b)) ∧
    ((s.sum.bankFor h).isSome = true → (t.sum.half h).supSince = s.clk.time) ∧
    (s.sum.fwRunning = true → s.sum.fwOp = 3 → s.sum.fwBank = bankOf h →
      t.sum.fwRunning = false ∧ t.sum.fwCode = (if (s.sum.bankFor h).isSome then 2 else 8)) ∧
    t.sum.bankAValid = s.sum.bankAValid ∧ t.sum.bankBValid = s.sum.bankBValid ∧ raised s t ∧ t.holder = s.holder ∧ t.ctx = s.ctx ∧ t.ph = s.ph ∧ t.nv = s.nv)) ∧
  (∀ (s : State) (h : HalfId), (s.sum.half h).supBoot = none → exec (.supervisorBooted h) s = .next s)

/-- SPI frames that no violation discards: a WRITE_SLOT loads its slot with its words, a READ_SLOT and a READ_STATUS answer their words,
a DOORBELL takes its slot as a request behind the earlier ones and ahead of the PMBus writes of its own fab cycle, an EVENT_POP drops the
oldest event. Each echoes its sequence and clears FERR; one out of sequence is acted on too, and its gap is recorded. Nothing else changes
(R364, R367, R369, R370, R372, R380, R387). -/
def Obligations.SpiFramesAccepted : Prop :=
  ∀ (f : SpiFrame) (s : State), s.dev.st ≠ .cold → s.dev.st ≠ .holdup → (s.dev.st = .boot → s.dev.drivers = true) → s.silent = false →
    let n := 1 + f.rest.length
    let good (op : Nat) : Prop := s.violation (rowHeader op f) f = 0
    let gap (op : Nat) : Bool := s.mb.lastHseq.any (fun q => decide (hdrSeq (rowHeader op f) ≠ (q + 1) % 65536))
    let after (op : Nat) (m : Mbox) : State := { s with mb := { m with
      miso := s.misoWords (rowHeader op f) n, seqEcho := hdrSeq (rowHeader op f) % 256, lastHseq := some (hdrSeq (rowHeader op f))
      ferr := gap op, violCode := if gap op then 9 else m.violCode
      violHseq := if gap op then hdrSeq (rowHeader op f) % 256 else m.violHseq
      violCount := if gap op then (m.violCount + 1) % 65536 else m.violCount } }
    let r (op : Nat) : Req := hdrReq (rowHeader op f)
    let ahead : Nat := s.mb.queue.length - (s.pmb.jobs.filter (fun j => decide (j.fab = s.fab))).length
    (good 1 → exec (.writeSlot f) s = .next (after 1 (s.mb.modSlot (r 1) (fun _ =>
      { st := .loaded, words := words64 (f.rest.take (hdrLen (rowHeader 1 f))), written := hdrLen (rowHeader 1 f), unread := false })))) ∧
    (good 2 → exec (.readSlot f) s = .next (after 2 (s.mb.modSlot (r 2) (fun x => { x with unread := false })))) ∧
    (good 3 → exec (.readStatus f) s = .next (after 3 s.mb)) ∧
    (good 4 → hdrMb (rowHeader 4 f) ≠ 3 → exec (.doorbell f) s = .next (after 4 { s.mb.modSlot (r 4) (fun x => { x with st := .busy }) with
      queue := s.mb.queue.take ahead ++ r 4 :: s.mb.queue.drop ahead
      lastM1 := if hdrMb (rowHeader 4 f) = 1 then s.clk.time else s.mb.lastM1 })) ∧
    (good 4 → hdrMb (rowHeader 4 f) = 3 → exec (.eventPop f) s = .next (after 4 { s.mb with events := s.mb.events.drop 1 }))

/-- A frame that a violation discards changes no slot, no request and no event: the violation is recorded and counted, and FERR sets
(R387). In COLD, in BOOT before the drivers, in HOLDUP and while a host write is programmed, a frame is not taken, and MISO is
undriven or all ones (R362, R368, R385). -/
def Obligations.SpiFramesDiscarded : Prop :=
  ∀ (f : SpiFrame) (h : Word) (s : State),
    let n := 1 + f.rest.length
    (s.dev.st ≠ .cold → s.dev.st ≠ .holdup → (s.dev.st = .boot → s.dev.drivers = true) → s.silent = false → s.violation h f ≠ 0 →
      Completes (.framing h f) s (fun t => t.mb = { s.mb with
          miso := s.misoWords h n, ferr := true, violCode := s.violation h f, violHseq := hdrSeq h % 256, violCount := (s.mb.violCount + 1) % 65536 } ∧
        t.ctx = s.ctx ∧ t.ph = s.ph ∧ t.gInF = s.gInF ∧ t.gAcc = s.gAcc ∧ t.nv = s.nv ∧ t.commits = s.commits ∧ t.dev = s.dev)) ∧
    (s.dev.st = .cold → exec (.framing h f) s = .next { s with mb := { s.mb with miso := List.replicate n Config.undrivenMiso } }) ∧
    (s.dev.st = .boot → s.dev.drivers = false →
      exec (.framing h f) s = .next { s with mb := { s.mb with miso := List.replicate n Config.undrivenMiso } }) ∧
    (s.dev.st = .holdup → exec (.framing h f) s = .next { s with mb := { s.mb with miso := List.replicate n 0xFFFFFFFF } }) ∧
    ((s.dev.st = .standby ∨ s.dev.st = .run ∨ s.dev.st = .safe) → s.silent = true → exec (.framing h f) s = .next { s with mb := { s.mb with
      miso := List.replicate n 0xFFFFFFFF, ferr := true, violCode := 0xA, violHseq := hdrSeq h % 256, violCount := (s.mb.violCount + 1) % 65536 } })

/-- Mailbox commands that read: cell status, capture words (a word that a half cannot correct is the other half's, and 0, counted, where
neither can), ledger accounts, an open item, Cairn records, a board identity, parameters, flash words. Each takes its request from the
queue, places its response in the request's slot and changes nothing else but what a read of a register or of the Cairn itself does; an
argument out of range is refused, and so is a request cut short, with another NARG, or on a mailbox that does not carry the command (R65,
R70, R371, R374, R375, R378). The model's readings: DETAIL of an OK answer that the manual gives none (log entry 101), ITEM_READ of an item
that is not open (104), FLASH_READ at any byte offset (107), the last word of CELL_STATUS (140), and zeros for what the compatibility view
hides (R481; 174). -/
def Obligations.MailboxReads : Prop :=
  ∀ (s : State) (r : Req),
    (∀ c : CtxId, s.Asks 0x20 1 r → (s.mb.slot r).arg 1 = c.val →
      (s.hides r.box c = false → exec .cellStatus s = .next (s.taken.respond r 0 0 (s.cellStatusWords c))) ∧
      (s.hides r.box c = true → exec .cellStatus s = .next (s.taken.respond r 0 0 (List.replicate 12 0)))) ∧
    (s.Asks 0x20 1 r → 63 < (s.mb.slot r).arg 1 → exec .cellStatus s = .next (s.taken.respond r ansRange 0 [])) ∧
    (∀ (c : CtxId) (a n : Nat), s.Asks 0x21 3 r → (s.mb.slot r).arg 1 = c.val → (s.mb.slot r).arg 2 = a → (s.mb.slot r).arg 3 = n →
      let other (k : Nat) : CapWord := Memory.read {} ((s.half s.serving.other).cell[c]).capture k
      (s.hides r.box c = true → 1 ≤ n → n ≤ 60 → a + n ≤ 2048 → exec .captureRead s = .next (s.taken.respond r 0 0 (List.replicate n 0))) ∧
      (s.hides r.box c = false → 1 ≤ n → n ≤ 60 → a + n ≤ 2048 → (∀ k : Nat, k < n → (s.capWord c (a + k)).ecc ≠ .double ∨ (other (a + k)).ecc ≠ .double) →
        exec .captureRead s = .next (s.taken.respond r 0 0 ((List.range n).map (fun k =>
          if (s.capWord c (a + k)).ecc ≠ .double then (s.capWord c (a + k)).w else (other (a + k)).w)))) ∧
      (s.hides r.box c = false → n = 1 → a ≤ 2047 → (s.capWord c a).ecc = .double → (other a).ecc = .double → Completes .captureRead s (fun t =>
        t.mb = s.taken.mb.respond r 0 0 [0] ∧ t.ctx[c].corrE + t.ctx[c].corrW = s.ctx[c].corrE + s.ctx[c].corrW + 1 ∧
        (∀ d : CtxId, d ≠ c → t.ctx[d] = s.ctx[d]) ∧ t.ph = s.ph ∧ t.nv = s.nv ∧ t.cairn = s.cairn)) ∧
      (1 ≤ n → n ≤ 60 → a + n ≤ 2048 → Completes .captureRead s (fun t => (t.mb.slot r).st = .done ∧ (t.mb.slot r).written = n + 2 ∧
        t.mb.queue = s.mb.queue.tail ∧ t.ph = s.ph ∧ t.nv = s.nv)) ∧
      (n < 1 ∨ 60 < n ∨ 2048 < a + n → exec .captureRead s = .next (s.taken.respond r ansRange 0 []))) ∧
    (s.Asks 0x21 3 r → 63 < (s.mb.slot r).arg 1 → exec .captureRead s = .next (s.taken.respond r ansRange 0 [])) ∧
    (∀ (a n : Nat), s.Asks 0x30 2 r → (s.mb.slot r).arg 1 = a → (s.mb.slot r).arg 2 = n →
      (1 ≤ n → n ≤ 30 → a + n ≤ 129 → Completes .ledgerRead s (fun t => ∃ m : Word,
        let hid (k : Nat) : Bool := s.dev.compatEn && decide (r.box ≠ .m1) && decide (a + k < 2)
        t = s.taken.respond r 0 0 ((List.range n).flatMap (fun k => if hid k then [0, 0] else s.accountWords (a + k)) ++ [m]) ∧
        ∀ k : Nat, k < n → m.getLsbD k = (s.markBit (a + k) && !hid k))) ∧
      (n < 1 ∨ 30 < n ∨ 129 < a + n → exec .ledgerRead s = .next (s.taken.respond r ansRange 0 []))) ∧
    (s.Asks 0x31 1 r → r.box = .m1 →
      (∀ k : Fin 32, (s.mb.slot r).arg 1 = k.val →
        (∀ b : List Byte, s.led.items[k] = some b → exec .itemRead s = .next (s.taken.respond r 0 0 (leWords 13 b))) ∧
        (s.led.items[k] = none → exec .itemRead s = .next (s.taken.respond r ansNoItem 0 []))) ∧
      (31 < (s.mb.slot r).arg 1 → exec .itemRead s = .next (s.taken.respond r ansRange 0 []))) ∧
    (∀ n : Nat, s.Asks 0x32 2 r → r.box = .m1 → (s.mb.slot r).arg 2 = n →
      (∀ (q : Rec) (qs : List Rec), 1 ≤ n → n ≤ 3 → recordsFrom s.nv.cairnRecords n ((s.mb.slot r).arg 1) = q :: qs →
        exec .cairnRead s = .next (({ s.taken with cairn := { s.cairn with returned := (q :: qs).map (·.seq) ++ s.cairn.returned } } : State).respond
          r 0 (q.seq % 16777216) ((q :: qs).flatMap (fun e => leWords 16 e.bytes)))) ∧
      (1 ≤ n → n ≤ 3 → recordsFrom s.nv.cairnRecords n ((s.mb.slot r).arg 1) = [] → Completes .cairnRead s (fun t =>
        (t.mb.slot r).st = .done ∧ (t.mb.slot r).written = 2 ∧ t.mb.queue = s.mb.queue.tail ∧ t.cairn = s.cairn ∧ t.nv = s.nv ∧ t.ctx = s.ctx)) ∧
      (n < 1 ∨ 3 < n → exec .cairnRead s = .next (s.taken.respond r ansRange 0 []))) ∧
    (∀ k : Nat, s.Asks 0x35 1 r → (s.mb.slot r).arg 1 = k →
      (∀ q : Rec, k ≤ 15 → s.nv.inForce .q3 0x33 k = some q → exec .identRead s = .next (s.taken.respond r 0 0 (leWords 13 q.payload))) ∧
      (k ≤ 15 → s.nv.inForce .q3 0x33 k = none → Completes .identRead s (fun t => (t.mb.slot r).st = .done ∧ (t.mb.slot r).written = 15 ∧
        t.mb.queue = s.mb.queue.tail ∧ t.nv = s.nv ∧ t.ctx = s.ctx)) ∧
      (15 < k → exec .identRead s = .next (s.taken.respond r ansRange 0 []))) ∧
    (∀ (live : LivePins) (n : Nat), s.Asks 0x01 2 r → (s.mb.slot r).arg 2 = n →
      let x := (s.taken.latchLive live).readIndex r.box ((s.mb.slot r).arg 1)
      let y := (s.taken.latchLive live).readRun r.box n ((s.mb.slot r).arg 1) []
      (n = 1 → x.2.2 = 0 → exec (.paramRead live) s = .next (x.1.respond r 0 65536 [x.2.1])) ∧
      (n = 1 → x.2.2 ≠ 0 → exec (.paramRead live) s = .next (x.1.respond r x.2.2 ((s.mb.slot r).arg 1 % 65536) [0])) ∧
      (1 ≤ n → n ≤ 61 → y.2.2 = 0 → y.2.1.length = n ∧ exec (.paramRead live) s = .next (y.1.respond r 0 (65536 * n) y.2.1)) ∧
      (1 ≤ n → n ≤ 61 → y.2.2 ≠ 0 → exec (.paramRead live) s = .next (y.1.respond r y.2.2
        (65536 * (y.2.1.length - 1) + ((s.mb.slot r).arg 1 + (y.2.1.length - 1)) % 65536) y.2.1)) ∧
      (n < 1 ∨ 61 < n → exec (.paramRead live) s = .next (s.taken.respond r ansRange 0 []))) ∧
    (∀ (a n : Nat), s.Asks 0x51 3 r → r.box = .m1 → (s.mb.slot r).arg 2 = a → (s.mb.slot r).arg 3 = n →
      (∀ b : Bool, (s.mb.slot r).arg 1 = (if b then 1 else 0) → 1 ≤ n → n ≤ 60 → a + 4 * n ≤ flashBytes →
        exec .flashRead s = .next (s.taken.respond r 0 0 ((List.range n).map (fun k => word (leNat (s.sum.flashRead b (a + 4 * k) 4)))))) ∧
      (1 < (s.mb.slot r).arg 1 ∨ n < 1 ∨ 60 < n ∨ flashBytes < a + 4 * n → exec .flashRead s = .next (s.taken.respond r ansRange 0 []))) ∧
    (∀ e ∈ [((Instr.cellStatus, 0x20, Boxes.both, 1) : Instr × Nat × Boxes × Nat), (.captureRead, 0x21, .both, 3), (.ledgerRead, 0x30, .both, 2),
        (.itemRead, 0x31, .m1only, 1), (.cairnRead, 0x32, .m1only, 2), (.identRead, 0x35, .both, 1), (.flashRead, 0x51, .m1only, 3),
        (.schedPost, 0x10, .m0only, 4), (.schedCancel, 0x11, .m0only, 2), (.traceStart, 0x22, .both, 2), (.traceRelease, 0x23, .both, 1),
        (.configSave, 0x33, .both, 0), (.configErase, 0x34, .m1only, 0), (.identWrite, 0x36, .m1only, 14), (.authChallenge, 0x40, .m0only, 0),
        (.authResponse, 0x41, .m0only, 9), (.sessionEnd, 0x42, .m1only, 0)],
      s.takes = true → s.mb.queue.head? = some r → r.box ≠ .pmb → s.pmb.jobs = [] → (s.mb.slot r).cmd = e.2.1 →
      (s.mb.slot r).written < (s.mb.slot r).narg + 1 ∨ (s.mb.slot r).narg ≠ e.2.2.2 ∨ e.2.2.1.allow r.box = false →
      exec e.1 s = .next (s.taken.respond r ansBadCommand 0 []))

/-- Mailbox commands that act: parameter writes, a schedule post with each of its answers and its cancel, a trace, its release, saves of
the configuration and of an identity, and a write of the shadow's bank. Each answers its request, and what it changes waits for its commit
tag or for the write engine where the rules say so; a refused one changes nothing (R179 to R183, R194, R221, R374 to R379, R434 to R438). The model's readings: NARG and DATA of a write of
parameters (log entry 100), DETAIL (101), which event a cancel finds and what it leaves (102), which traces find the area BUSY and what a
release without one answers (103), that a write of flash finds a place out of range before one already programmed, which is not the order in
which R379 lists them (107), and NO_INDEX for a context that the compatibility view hides (R481; 174). -/
def Obligations.MailboxActions : Prop :=
  ∀ (s : State) (r : Req),
    (∀ n : Nat, (s.mb.slot r).arg 2 = n → s.Asks 0x02 (n + 2) r →
      let x := s.taken.writeIndex r.box ((s.mb.slot r).arg 1) ((s.mb.slot r).argW 3) (some r)
      let y := s.taken.writeRun' r ((s.mb.slot r).args 3 n) ((s.mb.slot r).arg 1) 0
      (n = 1 → x.2 = 0 → exec .paramWrite s = .next (x.1.answer r 0 65536 [word x.1.tag32])) ∧
      (n = 1 → x.2 ≠ 0 → exec .paramWrite s = .next (s.taken.respond r x.2 ((s.mb.slot r).arg 1 % 65536) [])) ∧
      (1 ≤ n → n ≤ 61 → y.2.2 = 0 → exec .paramWrite s = .next (y.1.answer r 0 (65536 * n) [word y.1.tag32])) ∧
      (1 ≤ n → n ≤ 61 → y.2.2 ≠ 0 → exec .paramWrite s = .next (y.1.answer r y.2.2 (65536 * y.2.1 + ((s.mb.slot r).arg 1 + y.2.1) % 65536)
        (if y.2.1 = 0 then [] else [word y.1.tag32]))) ∧
      (n < 1 ∨ 61 < n → exec .paramWrite s = .next (s.taken.respond r ansRange 0 []))) ∧
    (s.Asks 0x10 4 r → r.box ≠ .m1 →
      let w := (s.mb.slot r).argW
      let c : CtxId := ⟨(w 1).toNat / 16777216 % 64, by omega⟩
      (evKindOf ((w 1).toNat / 1048576 % 16) = none → exec .schedPost s = .next (s.taken.respond r ansSchedule 1 [])) ∧
      (∀ k : EvKind, evKindOf ((w 1).toNat / 1048576 % 16) = some k →
        let e := postedEvent (s.nextSerial c) (w 1) (w 2) (w 3) (w 4) k
        let a := s.postAnswer c e
        (e.badField = true → exec .schedPost s = .next (s.taken.respond r ansSchedule 1 [])) ∧
        (e.badField = false → (a = 0 ∨ a = 9) → Completes .schedPost s (fun t =>
          t.ctx[c].sched.events = s.ctx[c].sched.events ++ [{ e with late := decide (a = 9) }] ∧
          t.ctx[c].sched.late = (s.ctx[c].sched.late || decide (a = 9)) ∧
          t.ctx[c].sched.lateCount = (if a = 9 then capInc s.ctx[c].sched.lateCount 255 else s.ctx[c].sched.lateCount) ∧
          (∀ d : CtxId, d ≠ c → t.ctx[d] = s.ctx[d]) ∧ t.commits = s.commits ++ [⟨s.ctxTag c, .schedEnter c e.serial⟩] ∧
          t.mb = s.taken.mb.respond r ansSchedule a [] ∧ t.ph = s.ph ∧ t.gInF = s.gInF ∧ t.nv = s.nv)) ∧
        (∀ x : Event, e.badField = false → a = 4 → s.ctx[c].sched.events.find? (fun y => y.same e) = some x →
          exec .schedPost s = .next (s.taken.respond r ansSchedule 4 [word x.ident])) ∧
        (e.badField = false → a ≠ 0 → a ≠ 4 → a ≠ 9 → exec .schedPost s = .next (s.taken.respond r ansSchedule a [])))) ∧
    (s.Asks 0x11 2 r → r.box ≠ .m1 →
      (∀ c : CtxId, (s.mb.slot r).arg 1 = c.val →
        (∀ e : Event, s.ctx[c].sched.events.find? (fun x => decide (x.ident = (s.mb.slot r).arg 2)) = some e →
          (s.pastCancel c e = false → Completes .schedCancel s (fun t => t.ctx[c].sched.cancelled = true ∧
            t.ctx[c].sched.events = s.ctx[c].sched.events.map (fun x => if x.serial = e.serial then
              { x with entered := true, withdrawing := true, outcome := some .cancelled, closed := true, armed := none } else x) ∧
            (∀ d : CtxId, d ≠ c → t.ctx[d] = s.ctx[d]) ∧ t.mb = s.taken.mb.respond r ansSchedule 0 [] ∧ t.commits = s.commits ∧ t.nv = s.nv)) ∧
          (s.pastCancel c e = true → exec .schedCancel s = .next (s.taken.respond r ansSchedule 0x0A []))) ∧
        (s.ctx[c].sched.events.find? (fun x => decide (x.ident = (s.mb.slot r).arg 2)) = none →
          exec .schedCancel s = .next (s.taken.respond r ansSchedule 0x0B []))) ∧
      (63 < (s.mb.slot r).arg 1 → exec .schedCancel s = .next (s.taken.respond r ansSchedule 0x0B []))) ∧
    (s.Asks 0x22 2 r →
      let w := (s.mb.slot r).argW 2
      (∀ c : CtxId, (s.mb.slot r).arg 1 = c.val → w.toNat / 67108864 % 4 ≠ 3 → w.toNat / 256 % 256 ≠ 0 →
        (s.hides r.box c = true → exec .traceStart s = .next (s.taken.respond r ansNoIndex 0 [])) ∧
        (s.hides r.box c = false → s.ctx[c].owner = .none → s.tracePending c = false → s.ctx[c].probeComes = false → exec .traceStart s = .next (({ s.taken with
          commits := s.commits ++ [⟨s.ctxTag c, .traceStart c w⟩] } : State).respond r 0 0 [])) ∧
        (s.hides r.box c = false → s.ctx[c].owner ≠ .none ∨ s.tracePending c = true ∨ s.ctx[c].probeComes = true → exec .traceStart s = .next (s.taken.respond r ansBusy 0 []))) ∧
      (63 < (s.mb.slot r).arg 1 ∨ w.toNat / 67108864 % 4 = 3 ∨ w.toNat / 256 % 256 = 0 →
        exec .traceStart s = .next (s.taken.respond r ansRange 0 []))) ∧
    (s.Asks 0x23 1 r →
      (∀ c : CtxId, (s.mb.slot r).arg 1 = c.val →
        (s.hides r.box c = true → exec .traceRelease s = .next (s.taken.respond r ansNoIndex 0 [])) ∧
        (s.hides r.box c = false → s.ctx[c].owner = .trace → Completes .traceRelease s (fun t => t.ctx[c] = { s.ctx[c] with owner := .none, traceRunning := false } ∧
          (∀ d : CtxId, d ≠ c → t.ctx[d] = s.ctx[d]) ∧ t.mb = s.taken.mb.respond r 0 0 [] ∧ t.ph = s.ph ∧ t.nv = s.nv)) ∧
        (s.hides r.box c = false → s.ctx[c].owner ≠ .trace → exec .traceRelease s = .next (s.taken.respond r 0 0 []))) ∧
      (63 < (s.mb.slot r).arg 1 → exec .traceRelease s = .next (s.taken.respond r ansRange 0 []))) ∧
    (s.Asks 0x33 0 r →
      (s.saveRefusal s.savedPairs = 0 → Completes .configSave s (fun t =>
        t.nv.hostQueue = s.nv.hostQueue ++ s.saveRecords s.savedPairs ∧ t.nv.hostWrite.isSome = true ∧ (t.mb.slot r).st = .busy ∧ t.nv.mem = s.nv.mem ∧
        t.ctx = s.ctx ∧ t.gInF = s.gInF)) ∧
      (s.saveRefusal s.savedPairs ≠ 0 → exec .configSave s = .next (s.taken.respond r (s.saveRefusal s.savedPairs) 0 []))) ∧
    (s.Asks 0x34 0 r → r.box = .m1 →
      (s.saveRefusal [] = 0 → Completes .configErase s (fun t =>
        t.nv.hostQueue = s.nv.hostQueue ++ s.saveRecords [] ∧ t.nv.hostWrite.isSome = true ∧ (t.mb.slot r).st = .busy ∧ t.nv.mem = s.nv.mem ∧
        t.ctx = s.ctx ∧ t.gInF = s.gInF)) ∧
      (s.saveRefusal [] ≠ 0 → exec .configErase s = .next (s.taken.respond r (s.saveRefusal []) 0 []))) ∧
    (∀ k : Nat, s.Asks 0x36 14 r → r.box = .m1 → (s.mb.slot r).arg 1 = k →
      let e := s.hostRefusal .q3 (if (s.nv.inForce .q3 0x33 k).isNone then 1 else 0)
      (k ≤ 15 → e = 0 → Completes .identWrite s (fun t =>
        t.nv.hostQueue = s.nv.hostQueue ++ [(0x33, k, wordsBytes ((s.mb.slot r).args 2 13))] ∧ t.nv.hostWrite.isSome = true ∧
        (t.mb.slot r).st = .busy ∧ t.nv.mem = s.nv.mem ∧ t.ctx = s.ctx)) ∧
      (k ≤ 15 → e ≠ 0 → exec .identWrite s = .next (s.taken.respond r e 0 [])) ∧
      (15 < k → exec .identWrite s = .next (s.taken.respond r ansRange 0 []))) ∧
    (∀ (a n : Nat), (s.mb.slot r).arg 1 = a → (s.mb.slot r).arg 2 = n → s.Asks 0x50 (n + 2) r → r.box = .m1 →
      (n < 1 ∨ 60 < n ∨ a % 4 ≠ 0 → exec .flashWrite s = .next (s.taken.respond r ansRange 0 [])) ∧
      (1 ≤ n → n ≤ 60 → a % 4 = 0 → s.shadow = none → exec .flashWrite s = .next (s.taken.respond r ansState 7 [])) ∧
      (∀ h : HalfId, 1 ≤ n → n ≤ 60 → a % 4 = 0 → s.shadow = some h →
        (flashBytes < a + 4 * n → exec .flashWrite s = .next (s.taken.respond r ansRange 0 [])) ∧
        (∀ k : Nat, k < n → a + 4 * n ≤ flashBytes → s.sum.programmed (bankOf h) (a / 4 + k) = true →
          exec .flashWrite s = .next (s.taken.respond r ansState 0 [])) ∧
        (a + 4 * n ≤ flashBytes → (∀ k : Nat, k < n → s.sum.programmed (bankOf h) (a / 4 + k) = false) → Completes .flashWrite s (fun t =>
          (bankOf h = false → t.sum.bankAValid = false ∧ t.sum.flashB = s.sum.flashB ∧ t.sum.bankBValid = s.sum.bankBValid) ∧
          (bankOf h = true → t.sum.bankBValid = false ∧ t.sum.flashA = s.sum.flashA ∧ t.sum.bankAValid = s.sum.bankAValid) ∧
          (Memory.wf none (s.sum.flash (bankOf h)) = true → ∀ k : Nat, k < n →
            Memory.read none (t.sum.flash (bankOf h)) (a / 4 + k) = some ((s.mb.slot r).argW (3 + k))) ∧
          t.mb = s.taken.mb.respond r 0 0 [] ∧ t.ctx = s.ctx ∧ t.nv = s.nv)))) ∧
    (∀ e ∈ [((Instr.paramWrite, 0x02) : Instr × Nat), (.flashWrite, 0x50)],
      s.takes = true → s.mb.queue.head? = some r → r.box ≠ .pmb → (e.2 = 0x50 → r.box = .m1) → s.pmb.jobs = [] → (s.mb.slot r).cmd = e.2 →
      (s.mb.slot r).written < (s.mb.slot r).narg + 1 ∨ (s.mb.slot r).narg < 2 ∨ (s.mb.slot r).narg ≠ (s.mb.slot r).arg 2 + 2 →
      exec e.1 s = .next (s.taken.respond r ansBadCommand 0 []))

/-- Sessions: a challenge answers a nonce, its number and the serial, and lives until its response or for 10 s; a response that proves the
key opens a session with the M1 interface's own registers at their resets, any other counts, and every third failure in a row locks
challenges for 10 s; a session ends by its command or after 10 s without an M1 request (R383, R384). The model's readings: the lockout comes at every third failure (log
entry 105), and the sequences read are forgotten as a session opens or ends (106). -/
def Obligations.Sessions : Prop :=
  (∀ (s : State) (r : Req), s.Asks 0x40 0 r → r.box ≠ .m1 →
    (s.lockedOut = false → Completes .authChallenge s (fun t => t.mb.challenges = s.mb.challenges + 1 ∧
      (∃ n : Word, t.mb.challenge = some (n.toNat, s.clk.time) ∧
        (t.mb.slot r).words = words64 (responseWords (s.mb.slot r).words[0] 0 0 (nonceWords s.mb.challenges ++ [n, Config.serialHi, Config.serialLo]))) ∧
      (t.mb.slot r).st = .done ∧ (t.mb.slot r).written = 13 ∧ t.mb.session = s.mb.session ∧ t.mb.failures = s.mb.failures ∧
      t.mb.lockout = s.mb.lockout ∧ t.ctx = s.ctx ∧ t.nv = s.nv)) ∧
    (s.lockedOut = true → exec .authChallenge s = .next (s.taken.respond r ansState 0 []))) ∧
  (∀ (s : State) (r : Req), s.Asks 0x41 9 r → r.box ≠ .m1 →
    (s.authOk ((s.mb.slot r).arg 1) ((s.mb.slot r).args 2 8) = true → Completes .authResponse s (fun t => t.mb.session = true ∧
      t.mb.openedAt = s.clk.time ∧ t.mb.failures = 0 ∧ t.mb.challenge = none ∧ t.cairn.returned = [] ∧ t.ft.latchM1 = none ∧
      (∀ c : CtxId, t.ctx[c] = { s.ctx[c] with selM1 := 0 }) ∧ (t.mb.slot r).st = .done ∧ t.nv = s.nv)) ∧
    (s.authOk ((s.mb.slot r).arg 1) ((s.mb.slot r).args 2 8) = false → Completes .authResponse s (fun t => t.mb.session = s.mb.session ∧
      t.mb.failures = s.mb.failures + 1 ∧ t.mb.challenge = none ∧ (s.mb.failures % 3 = 2 → t.mb.lockout = some s.clk.time) ∧
      (s.mb.failures % 3 ≠ 2 → t.mb.lockout = s.mb.lockout) ∧
      (t.mb.slot r).words = words64 (responseWords (s.mb.slot r).words[0] ansAuth 0 []) ∧ t.ctx = s.ctx ∧ t.nv = s.nv)) ∧
    ((∀ m n : Nat, s.mb.challenge = some (m, n) → m ≠ (s.mb.slot r).arg 1 ∨ n + 4000000000 ≤ s.clk.time) →
      s.authOk ((s.mb.slot r).arg 1) ((s.mb.slot r).args 2 8) = false)) ∧
  (∀ s : State,
    (∀ n : Nat, s.mb.lockout = some n → n + 4000000000 ≤ s.clk.time → s.lockedOut = false ∧
      exec .authLockoutEnd s = .next { s with mb := { s.mb with lockout := none } }) ∧
    (∀ n : Nat, s.mb.lockout = some n → s.clk.time < n + 4000000000 → s.lockedOut = true ∧ exec .authLockoutEnd s = .next s) ∧
    (s.mb.lockout = none → s.lockedOut = false ∧ exec .authLockoutEnd s = .next s)) ∧
  (∀ (s : State) (r : Req), s.Asks 0x42 0 r → r.box = .m1 →
    (s.mb.session = true → Completes .sessionEnd s (fun t => t.mb.session = false ∧
      (t.mb.slot r).st = .done ∧ t.cairn.returned = [] ∧ t.ctx = s.ctx ∧ t.nv = s.nv ∧ t.gInF = s.gInF)) ∧
    (s.mb.session = false → exec .sessionEnd s = .next (s.taken.respond r 0 0 []))) ∧
  (∀ s : State, s.mb.session = true → max s.mb.openedAt s.mb.lastM1 + 4000000000 ≤ s.clk.time →
    Completes .sessionTimeout s (fun t => t.mb.session = false ∧ t.cairn.returned = [] ∧ t.ctx = s.ctx ∧ t.nv = s.nv ∧ t.mb.m0 = s.mb.m0 ∧
      t.mb.m1 = s.mb.m1)) ∧
  (∀ s : State, s.mb.session = false ∨ s.clk.time < max s.mb.openedAt s.mb.lastM1 + 4000000000 → exec .sessionTimeout s = .next s)

/-- PMBus reads: each answers its bytes, low byte first, with the PEC byte of address, code, address and bytes behind them, and
changes nothing else; a paged read answers for the page's context, has no reading at PAGE 0xFF, and reads 0 on a page without a context; a
command that has no read is not acknowledged, and neither is the address of a device whose interfaces do not answer (R389, R391 to R395). The model's readings: no read of a send-byte command (log entry 109), which
flags a status byte joins (110), READ_IOUT and READ_POUT (111), and a parameter that may not be read as four zero bytes (144). -/
def Obligations.PmbusReads : Prop :=
  ∀ (x : PmbXfer) (s : State), x.write = none →
    let paged : List (Instr × Nat × Nat) := [(.voutCommand x, 0x21, 2), (.voutMax x, 0x24, 2), (.voutTransitionRate x, 0x27, 2),
      (.voutMin x, 0x2B, 2), (.voutOvFaultLimit x, 0x40, 2), (.operation x, 0x01, 1), (.statusByte x, 0x78, 1), (.statusWord x, 0x79, 2),
      (.statusVout x, 0x7A, 1), (.statusIout x, 0x7B, 1), (.statusTemperature x, 0x7D, 1), (.readVout x, 0x8B, 2), (.readIout x, 0x8C, 2),
      (.readPout x, 0x96, 2), (.readTemperature1 x, 0x8D, 2)]
    (s.interfaces = true →
    (∀ (code : Nat) (bs : List Byte), s.reply code bs = { s with pmb := { s.pmb with answer := some (bs ++
      [crc8 (BitVec.ofNat 8 (2 * s.pmb.addr) :: BitVec.ofNat 8 code :: BitVec.ofNat 8 (2 * s.pmb.addr + 1) :: bs)]) } }) ∧
    exec (.page x) s = .next (s.reply 0x00 (leBytes 1 s.pmb.page)) ∧
    exec (.capability x) s = .next (s.reply 0x19 [0xC0]) ∧
    exec (.voutMode x) s = .next (s.reply 0x20 [0x16]) ∧
    exec (.pmbusRevision x) s = .next (s.reply 0x98 [0x44]) ∧
    exec (.mfrId x) s = .next (s.reply 0x99 [8, 0x44, 0x4F, 0x4C, 0x49, 0x52, 0x4F, 0x52, 0x49]) ∧
    exec (.mfrModel x) s = .next (s.reply 0x9A [8, 0x53, 0x4B, 0x4C, 0x43, 0x36, 0x33, 0x39, 0x36]) ∧
    exec (.statusCml x) s = .next (s.reply 0x7E [s.pmb.cml]) ∧
    exec (.readVin x) s = .next (s.reply 0x88 (leBytes 2 (linear11 (s.cell 0).vmeas.v 65536))) ∧
    exec (.readTemperature2 x) s = .next (s.reply 0x8E (leBytes 2 (s.hottest [0, 1, 2]))) ∧
    exec (.mfrParamIndex x) s = .next (s.reply 0xD0 (leBytes 2 s.pmb.index)) ∧
    (∀ live : LivePins, exec (.mfrParamValue x live) s = .next (((s.latchLive live).readIndex .pmb s.pmb.index).1.reply 0xD1
      (4 :: leBytes 4 ((s.latchLive live).readIndex .pmb s.pmb.index).2.1.toNat))) ∧
    (∀ c : CtxId, s.pmb.page ≠ 0xFF → s.pages = [c] →
      exec (.voutCommand x) s = .next (s.reply 0x21 (leBytes 2 (linear16 (s.readV c .vset)))) ∧
      exec (.voutMax x) s = .next (s.reply 0x24 (leBytes 2 (linear16 (s.readV c .voutMax)))) ∧
      exec (.voutTransitionRate x) s = .next (s.reply 0x27 (leBytes 2 (rateOf (s.readV c .vslew) (s.readV c .mRatio)))) ∧
      exec (.voutMin x) s = .next (s.reply 0x2B (leBytes 2 (linear16 (s.readV c .voutMin)))) ∧
      exec (.voutOvFaultLimit x) s = .next (s.reply 0x40 (leBytes 2 (linear16 (s.readV c .voutMax + s.readV c .ovMargin)))) ∧
      exec (.operation x) s = .next (s.reply 0x01 [if s.operationOn c then 0x80 else 0]) ∧
      exec (.statusByte x) s = .next (s.reply 0x78 (leBytes 1 (s.statusLow c))) ∧
      exec (.statusWord x) s = .next (s.reply 0x79 (leBytes 2 (s.statusLow c + 256 * s.statusHigh c : Nat))) ∧
      exec (.statusVout x) s = .next (s.reply 0x7A (leBytes 1 (flag (s.railFlag c 0) 7 + flag (s.railFlag c 1) 4 : Nat))) ∧
      exec (.statusIout x) s = .next (s.reply 0x7B (leBytes 1 (flag (s.classFlag c 2 || s.classFlag c 8) 7))) ∧
      exec (.statusTemperature x) s = .next (s.reply 0x7D (leBytes 1 (flag (s.zoneAt (s.pageZones c) 3) 7 + flag (s.zoneAt (s.pageZones c) 1) 6 : Nat))) ∧
      exec (.readVout x) s = .next (s.reply 0x8B (leBytes 2 (linear16 (s.cell c).vmeas.v))) ∧
      exec (.readIout x) s = .next (s.reply 0x8C (leBytes 2 (pack11 (s.iout c).1 (s.iout c).2))) ∧
      exec (.readPout x) s = .next (s.reply 0x96 (leBytes 2 (s.pout c))) ∧
      exec (.readTemperature1 x) s = .next (s.reply 0x8D (leBytes 2 (s.hottest (s.pageZones c))))) ∧
    (s.pmb.page = 0xFF → ∀ e ∈ paged, exec e.1 s = .next { s with pmb := { s.pmb with answer := none, cml := s.pmb.cml ||| 0x80 } }) ∧
    (s.pmb.page ≠ 0xFF → s.pages = [] → ∀ e ∈ paged, exec e.1 s = .next (s.reply e.2.1 (List.replicate e.2.2 0))) ∧
    (∀ i ∈ [Instr.clearFaults x, .storeUserAll x],
      exec i s = .next { s with pmb := { s.pmb with answer := none, cml := s.pmb.cml ||| 0x80 } })) ∧
    (s.interfaces = false →
      (∀ e ∈ paged, exec e.1 s = .next { s with pmb := { s.pmb with answer := none } }) ∧
      (∀ i ∈ [Instr.page x, .clearFaults x, .storeUserAll x, .capability x, .voutMode x, .pmbusRevision x, .mfrId x, .mfrModel x, .statusCml x,
        .readVin x, .readTemperature2 x, .mfrParamIndex x], exec i s = .next { s with pmb := { s.pmb with answer := none } }) ∧
      (∀ live : LivePins, exec (.mfrParamValue x live) s = .next { s with pmb := { s.pmb with answer := none } }))

/-- PMBus writes: with its PEC good, PAGE and MFR_PARAM_INDEX take their values at once. Where no request waits, OPERATION, VOUT_COMMAND,
VOUT_TRANSITION_RATE, CLEAR_FAULTS and MFR_PARAM_VALUE write the page's contexts, or their one parameter, and STORE_USER_ALL queues the
configuration's records; a refused one is acknowledged and logged, as is a write of a read-only command. A write that meets a waiting
request, or a DOORBELL of its fab cycle, joins the order of the requests, and acts when those before it have been executed. A bad PEC, or
none where one is required, discards the write and sets bit 5; one of another length and an unsupported code are not acknowledged; a device
whose interfaces do not answer acknowledges nothing (R372, R389, R391 to R396, R437). The model's readings: a read-only command written
answers REFUSED_ACCESS (log entry 109), the timeout between 25 and 35 ms (112), what a write carries that waits behind a request (128), and
log entries 26 and 131. -/
def Obligations.PmbusWrites : Prop :=
  ∀ (x : PmbXfer) (bs : List Byte) (s : State), x.write = some bs →
    let good (code : Nat) : Prop := s.pecGood code bs x.pec = true
    (s.interfaces = true →
      (good 0x00 → bs.length = 1 →
        (leNat bs = 0xFF ∨ leNat bs < 63 ∨ (leNat bs = 63 ∧ s.dev.compatEn = false) →
          exec (.page x) s = .next { s with pmb := { s.pmb with answer := some [], page := leNat bs } }) ∧
        (leNat bs ≠ 0xFF → 63 < leNat bs ∨ (leNat bs = 63 ∧ s.dev.compatEn = true) → exec (.page x) s = .next (s.ack.pmbRefuse 0x00 ansRange))) ∧
      (good 0xD0 → bs.length = 2 → exec (.mfrParamIndex x) s = .next { s with pmb := { s.pmb with answer := some [], index := leNat bs } }) ∧
      (s.mb.queue = [] → s.takes = true → s.pending.any Instr.doorbells = false →
        (good 0x21 → bs.length = 2 → s.pages ≠ [] → exec (.voutCommand x) s = .next
          (s.pages.foldl (fun t c => t.pmbPut 0x21 (.ctx c .vset) (word (64 * leNat bs))) s.ack)) ∧
        (∀ c : CtxId, s.pages = [c] → good 0x21 → bs.length = 2 →
          let k := s.ack.refuse .pmb (.ctx c .vset) (word (64 * leNat bs))
          (k = 0 → exec (.voutCommand x) s = .next (s.ack.accept .pmb (.ctx c .vset) (word (64 * leNat bs)) none)) ∧
          (k ≠ 0 → exec (.voutCommand x) s = .next { s with pmb := { s.pmb with
            answer := some [], cml := s.pmb.cml ||| 0x40, last := word (256 * 0x21 + k) } })) ∧
        (good 0x01 → bs.length = 1 →
          (leNat bs ≠ 0x80 → leNat bs ≠ 0 → exec (.operation x) s = .next (s.ack.pmbRefuse 0x01 ansRange)) ∧
          (leNat bs = 0x80 ∨ leNat bs = 0 → s.pages ≠ [] → exec (.operation x) s = .next (s.pages.foldl (fun t c =>
            if c.val = 0 then t.pmbPut 0x01 (.greg .runCtl) (word (leNat bs / 128 + t.autoBit))
            else t.pmbPut 0x01 (.creg c .swCtl) (word (leNat bs / 128))) s.ack)) ∧
          (∀ c : CtxId, s.pages = [c] → c.val ≠ 0 → bs = [0x80] → s.stateAllowsOn c = true → Completes (.operation x) s (fun t =>
            t.pmb.answer = some [] ∧ t.commits = s.commits ++ [⟨s.ctxTag c, .swCtl c true false⟩] ∧ t.ctx = s.ctx ∧ t.nv = s.nv))) ∧
        (∀ c : CtxId, s.pages = [c] → bs = [] → good 0x03 → Completes (.clearFaults x) s (fun t =>
          t.pmb.cml = 0 ∧ t.ctx[c].prot = s.ctx[c].prot.clear 0x3FFF ∧ (∀ d : CtxId, d ≠ c → t.ctx[d] = s.ctx[d]) ∧ t.ph = s.ph ∧ t.nv = s.nv)) ∧
        (s.pmb.page = 0xFF → bs = [] → good 0x03 → Completes (.clearFaults x) s (fun t =>
          t.pmb.cml = 0 ∧ (∀ c : CtxId, c ≠ 0 → t.ctx[c].prot = s.ctx[c].prot.clear 0x3FFF) ∧ t.ctx[(0 : CtxId)] = s.ctx[(0 : CtxId)] ∧
          t.ph = s.ph ∧ t.nv = s.nv)) ∧
        (bs = [] → good 0x15 → s.saveRefusal s.savedPairs = 0 → Completes (.storeUserAll x) s (fun t => t.pmb.answer = some [] ∧
          t.nv.hostQueue = s.nv.hostQueue ++ s.saveRecords s.savedPairs ∧ t.nv.hostWrite.isSome = true ∧ t.nv.mem = s.nv.mem ∧ t.ctx = s.ctx)) ∧
        (bs = [] → good 0x15 → s.saveRefusal s.savedPairs ≠ 0 →
          exec (.storeUserAll x) s = .next (s.ack.pmbRefuse 0x15 (s.saveRefusal s.savedPairs))) ∧
        (∀ (c : CtxId) (v : Int), s.pages = [c] → bs.length = 2 → good 0x27 →
          v = slewOf (unpack11 (leNat bs)).1 (unpack11 (leNat bs)).2 (s.ctx[c].newest .mRatio) →
          (-2147483648 ≤ v → v ≤ 2147483647 → exec (.voutTransitionRate x) s = .next (s.ack.pmbPut 0x27 (.ctx c .vslew) (BitVec.ofInt 32 v))) ∧
          (v < -2147483648 ∨ 2147483647 < v → exec (.voutTransitionRate x) s = .next (s.ack.pmbRefuse 0x27 ansRange))) ∧
        (∀ live : LivePins, bs.length = 5 → leAt bs 0 1 = 4 → good 0xD1 →
          let y := s.ack.writeIndex .pmb s.pmb.index (word (leAt bs 1 4)) none
          (y.2 = 0 → exec (.mfrParamValue x live) s = .next y.1) ∧
          (y.2 ≠ 0 → exec (.mfrParamValue x live) s = .next (s.ack.pmbRefuse 0xD1 y.2)))) ∧
      (s.takes = false ∨ (s.mb.queue = [] ∧ s.pending.any Instr.doorbells = true) ∨
        (∃ r : Req, s.mb.queue.head? = some r ∧ r.box ≠ .pmb ∧ knownCommands.contains (s.mb.slot r).cmd = true) →
        ∀ e ∈ [((Instr.operation x, 0x01, 1) : Instr × Nat × Nat), (.clearFaults x, 0x03, 0), (.storeUserAll x, 0x15, 0), (.voutCommand x, 0x21, 2),
          (.voutTransitionRate x, 0x27, 2)],
        good e.2.1 → bs.length = e.2.2 → exec e.1 s = .next { s with
          mb := { s.mb with queue := s.mb.queue ++ [⟨.pmb, 0⟩] }
          pmb := { s.pmb with answer := some [], jobs := s.pmb.jobs ++ [⟨e.2.1, s.pmb.page, s.pmb.index, bs, s.fab⟩] } }) ∧
      (∀ live : LivePins, bs.length = 5 → leAt bs 0 1 ≠ 4 → good 0xD1 →
        exec (.mfrParamValue x live) s = .next { s with pmb := { s.pmb with answer := none } }) ∧
      (∀ e ∈ [((Instr.voutMax x, 0x24, 2) : Instr × Nat × Nat), (.voutMin x, 0x2B, 2), (.voutOvFaultLimit x, 0x40,
        2), (.statusByte x, 0x78, 1), (.statusWord x, 0x79, 2), (.statusVout x, 0x7A, 1), (.statusIout x, 0x7B, 1), (.statusTemperature x,
        0x7D, 1), (.readVout x, 0x8B, 2), (.readIout x, 0x8C, 2), (.readPout x, 0x96, 2), (.readTemperature1 x, 0x8D, 2), (.capability x,
        0x19, 1), (.voutMode x, 0x20, 1), (.pmbusRevision x, 0x98, 1), (.mfrId x, 0x99, 9), (.mfrModel x, 0x9A, 9), (.statusCml x, 0x7E,
        1), (.readVin x, 0x88, 2), (.readTemperature2 x, 0x8E, 2)],
        good e.2.1 → bs.length = e.2.2 → exec e.1 s = .next { s with pmb := { s.pmb with
          answer := some [], cml := s.pmb.cml ||| 0x40, last := word (256 * e.2.1 + ansAccess) } }) ∧
      (∀ e ∈ [((Instr.page x, 0x00, 1) : Instr × Nat × Nat), (.operation x, 0x01, 1), (.clearFaults x, 0x03, 0), (.storeUserAll x, 0x15, 0),
        (.voutCommand x, 0x21, 2), (.voutTransitionRate x, 0x27, 2), (.mfrParamIndex x, 0xD0, 2), (.readVout x, 0x8B, 2)],
        (∀ p : Byte, x.pec = some p → s.pecGood e.2.1 bs x.pec = false →
          exec e.1 s = .next { s with pmb := { s.pmb with answer := none, cml := s.pmb.cml ||| 0x20 } }) ∧
        (x.pec = none → s.pecGood e.2.1 bs x.pec = false →
          exec e.1 s = .next { s with pmb := { s.pmb with answer := some [], cml := s.pmb.cml ||| 0x20 } }) ∧
        (good e.2.1 → bs.length ≠ e.2.2 → exec e.1 s = .next { s with pmb := { s.pmb with answer := none } }))) ∧
    (∀ (r : Req) (c : CtxId) (j : PmbJob), s.takes = true → s.mb.queue = [r, ⟨.pmb, 0⟩] → s.pmb.jobs = [j] → r.box ≠ .pmb →
      (s.mb.slot r).cmd = 0x20 → (s.mb.slot r).narg = 1 → 2 ≤ (s.mb.slot r).written → (s.mb.slot r).arg 1 = c.val →
      exec .cellStatus s = .next ((({ s with mb := { s.mb with queue := [] }, pmb := { s.pmb with jobs := [] } } : State).respond r 0 0
        (s.cellStatusWords c)).runJob j)) ∧
    (s.interfaces = false → ∀ i ∈ [Instr.page x, .operation x, .clearFaults x, .storeUserAll x, .voutCommand x, .mfrParamIndex x,
      .readVout x, .voutTransitionRate x],
      exec i s = .next { s with pmb := { s.pmb with answer := none } }) ∧
    (∀ code : Byte, (pmbCodes.contains code.toNat = false → s.interfaces = true →
        exec (.invalidCommand code) s = .next { s with pmb := { s.pmb with answer := none, cml := s.pmb.cml ||| 0x80 } }) ∧
      (pmbCodes.contains code.toNat = false → s.interfaces = false →
        exec (.invalidCommand code) s = .next { s with pmb := { s.pmb with answer := none } }) ∧
      (pmbCodes.contains code.toNat = true → exec (.invalidCommand code) s = .next s)) ∧
    (∀ ms : Nat, (35 ≤ ms → exec (.pmbusTimeoutReset ms) s = .next { s with pmb := { s.pmb with answer := none } }) ∧
      (ms < 25 → exec (.pmbusTimeoutReset ms) s = .next s) ∧
      (25 ≤ ms → ms < 35 → Completes (.pmbusTimeoutReset ms) s (fun t => (t.pmb = s.pmb ∨ t.pmb = { s.pmb with answer := none }) ∧
        t.mb = s.mb ∧ t.ctx = s.ctx ∧ t.ph = s.ph ∧ t.nv = s.nv)))

/-- Tarn slots: a beacon starts a cycle with the map in force and enrols its new addresses; a slot polls its address with the address's
sequence, which counts, and carries the answer once; an extended slot visits the next address; a clean reply is kept and answers a
violation run, and a request in it waits for its judgement unless the address is quarantined or both halves lost the word; a violation
counts, the run's limit or a duplicate quarantines the address, and clean replies may release it; a release wins over a violation of its fab cycle: the address is not quarantined, RUN reads 0 where the
release ended a quarantine, and the violation stays counted (R418); a character without an open reply window counts as a stray (R397, R400 to
R405, R408, R410, R415 to R418). The model's readings: a short serial payload is padded with 0 (log entry 114), idle slots and when a slot
acts (115), the run of clean replies counts with AUTO_RELEASE 0 too (116), and one request waits for both halves (159). A slot, a reply or a
silence that the port does not wait for does nothing (log entry 3). -/
def Obligations.TarnSlots : Prop :=
  ∀ (s : State) (p : Port),
    let x := s.port p
    let n := (enrolled x.map).length
    let alone (t : State) : Prop := (∀ o : Port, o ≠ p → t.port o = s.port o) ∧ t.gInF = s.gInF ∧ t.nv = s.nv
    let moved (t : State) (k m : Nat) : Prop := (k ≤ m ∨ (k = m + 1 ∧ x.cycle % 16 = 15) → (t.port p).pos = k ∧ (t.port p).cycle = x.cycle) ∧
      (m < k → k ≠ m + 1 ∨ x.cycle % 16 ≠ 15 → (t.port p).pos = 0 ∧ (t.port p).cycle = (x.cycle + 1) % 65536)
    (s.slotFree p = true → x.pos = 0 → Completes (.beaconSlot p) s (fun t =>
      (t.port p).sent = framed [0xA5, 0, BitVec.ofNat 8 x.cycle, BitVec.ofNat 8 s.dev.st.num, 0] ∧ (t.port p).map = s.tarnMapWord p ∧
      moved t 1 (enrolled (s.tarnMapWord p)).length ∧ (t.port p).driveEnd = s.clk.time + 2304 ∧ (t.port p).poll = none ∧
      (∀ a : CtxId, a.val ≠ 0 → (s.tarnMapWord p).getLsbD a.val = true → x.map.getLsbD a.val = false →
        t.ctx[a] = { s.ctx[a] with tarn := { s.ctx[a].tarn with seq := 0, learned := none, diagNext := false } }) ∧
      (∀ a : CtxId, a.val = 0 ∨ x.map.getLsbD a.val = true ∨ (s.tarnMapWord p).getLsbD a.val = false → t.ctx[a] = s.ctx[a]) ∧
      alone t ∧ t.ph = s.ph ∧ t.mb = s.mb)) ∧
    (∀ a : CtxId, s.slotFree p = true → 0 < x.pos → (enrolled x.map)[x.pos - 1]? = some a →
      Completes (.normalSlot p) s (fun t => (t.port p).poll = some { addr := a, kind := 1, seq := s.ctx[a].tarn.seq, budget := 4 } ∧
        (t.port p).sent = framed [0xA5, BitVec.ofNat 8 a.val, BitVec.ofNat 8 s.ctx[a].tarn.seq, BitVec.ofNat 8 (16 + s.ctx[a].tarn.pollAnswer), 4] ∧
        moved t (x.pos + 1) n ∧ (t.port p).driveEnd = s.clk.time + 2304 ∧
        t.ctx[a] = { s.ctx[a] with tarn := { s.ctx[a].tarn with seq := (s.ctx[a].tarn.seq + 1) % 256, answer := none } } ∧
        (∀ d : CtxId, d ≠ a → t.ctx[d] = s.ctx[d]) ∧ alone t ∧ t.ph = s.ph ∧ t.mb = s.mb)) ∧
    (s.slotFree p = true → x.pos = n + 1 → x.cycle % 16 = 15 →
      (∀ a : CtxId, (enrolled x.map).find? (fun b => decide (x.nextExt ≤ b.val)) = some a ∨
          ((∀ b ∈ enrolled x.map, b.val < x.nextExt) ∧ (enrolled x.map).head? = some a) → Completes (.extendedSlot p) s (fun t =>
        (t.port p).poll = some { addr := a, kind := if s.ctx[a].tarn.diagNext then 3 else 2, seq := s.ctx[a].tarn.seq, budget := 64 } ∧
        (t.port p).nextExt = a.val + 1 ∧ (t.port p).pos = 0 ∧ (t.port p).cycle = (x.cycle + 1) % 65536 ∧
        t.ctx[a].tarn.diagNext = !s.ctx[a].tarn.diagNext ∧ t.ctx[a].tarn.seq = (s.ctx[a].tarn.seq + 1) % 256 ∧ t.ctx[a].tarn.answer = none ∧
        (∀ d : CtxId, d ≠ a → t.ctx[d] = s.ctx[d]) ∧ alone t ∧ t.ph = s.ph ∧ t.mb = s.mb)) ∧
      (enrolled x.map = [] → Completes (.extendedSlot p) s (fun t => (t.port p).poll = none ∧ (t.port p).pos = 0 ∧
        (t.port p).cycle = (x.cycle + 1) % 65536 ∧ t.ctx = s.ctx ∧ alone t))) ∧
    (s.slotFree p = false → exec (.beaconSlot p) s = .next s ∧ exec (.normalSlot p) s = .next s ∧ exec (.extendedSlot p) s = .next s) ∧
    (∀ (q : Poll) (r : TarnChars), x.poll = some q → s.replyViolation q r = 0 →
      let y := s.ctx[q.addr].tarn
      (y.quarantined = false → Completes (.tarnReply p r) s (fun t => (t.port p).poll = none ∧ t.ctx[q.addr].tarn.run = 0 ∧
        t.ctx[q.addr].tarn.nodeBits = replyByte r 3 % 64 ∧
        (q.kind = 1 → replyKind r = 0 → t.ctx[q.addr].tarn.node = beWord (replyPayload r) 0) ∧
        (q.kind ≠ 1 → (t.port p).extAddr = q.addr.val ∧ (t.port p).extLen = replyLen r ∧
          ∀ j : Fin 16, (t.port p).ext[j] = beWord (replyPayload r) j.val) ∧
        (q.kind = 2 → t.ctx[q.addr].tarn.learned = some (y.learned.getD (replySerial r))) ∧
        (replyKind r = 1 ∨ replyKind r = 2 → r.err.east ≠ .double ∨ r.err.west ≠ .double →
          t.ctx[q.addr].tarn.waiting = some (tarnRequest (replyKind r) (replyPayload r), s.enables)) ∧
        (r.err.east = .double → r.err.west = .double → t.ctx[q.addr].tarn.waiting = y.waiting) ∧
        (r.err = {} ∨ replyKind r = 0 → (∀ d : CtxId, d ≠ q.addr → t.ctx[d] = s.ctx[d]) ∧ alone t ∧ t.ph = s.ph ∧ t.mb = s.mb ∧ t.cairn = s.cairn ∧
          t.sum = s.sum))) ∧
      (y.quarantined = true →
        let free : Bool := bitOf (s.cp q.addr .tarnCfg) 0 && !y.dupQuar && decide (bitsOf (s.cp q.addr .tarnCfg) 16 8 ≤ y.cleanRun + 1)
        Completes (.tarnReply p r) s (fun t => (t.port p).poll = none ∧ t.ctx[q.addr].tarn.run = 0 ∧ t.ctx[q.addr].tarn.waiting = y.waiting ∧
          t.ctx[q.addr].tarn.nodeBits = replyByte r 3 % 64 ∧ t.ctx[q.addr].tarn.quarantined = !free ∧
          (free = true → t.ctx[q.addr].tarn.released = true ∧ t.ctx[q.addr].tarn.learned = none) ∧
          (free = false → t.ctx[q.addr].tarn.cleanRun = y.cleanRun + 1) ∧ alone t))) ∧
    (∀ (q : Poll) (r : TarnChars) (v : Nat), x.poll = some q → s.replyViolation q r = v → v ≠ 0 → s.ctx[q.addr].tarn.tie = none →
      let y := s.ctx[q.addr].tarn
      let quar : Bool := y.quarantined || decide (v = 8) || decide (bitsOf (s.cp q.addr .tarnCfg) 8 8 ≤ capInc y.run 255)
      Completes (.tarnReply p r) s (fun t => (t.port p).poll = none ∧ t.ctx[q.addr].tarn.viol = true ∧ t.ctx[q.addr].tarn.lastViol = v ∧
        t.ctx[q.addr].tarn.violCount = capInc y.violCount 255 ∧ t.ctx[q.addr].tarn.run = capInc y.run 255 ∧ t.ctx[q.addr].tarn.cleanRun = 0 ∧
        t.ctx[q.addr].tarn.node = y.node ∧ t.ctx[q.addr].tarn.nodeBits = y.nodeBits ∧ t.ctx[q.addr].tarn.waiting = y.waiting ∧
        t.ctx[q.addr].tarn.quarantined = quar ∧ (quar = true → y.quarantined = false → t.ctx[q.addr].tarn.quarFlag = true) ∧
        (v = 8 → t.ctx[q.addr].tarn.dup = true) ∧
        (quar = y.quarantined → (∀ d : CtxId, d ≠ q.addr → t.ctx[d] = s.ctx[d]) ∧ alone t ∧ t.ph = s.ph ∧ t.mb = s.mb))) ∧
    (∀ (q : Poll) (r : TarnChars) (v : Nat) (i : Instr), x.poll = some q → s.ctx[q.addr].tarn.tie.isSome = true →
      (i = .tarnReply p r ∧ s.replyViolation q r = v ∧ v ≠ 0) ∨ (i = .noReply p ∧ v = 3) →
      let y := s.ctx[q.addr].tarn
      Completes i s (fun t => (t.port p).poll = none ∧ t.ctx[q.addr].tarn.viol = true ∧ t.ctx[q.addr].tarn.lastViol = v ∧
        t.ctx[q.addr].tarn.violCount = capInc y.violCount 255 ∧ t.ctx[q.addr].tarn.quarantined = false ∧
        ((y.quarantined = true ∨ y.endedNow = true) → t.ctx[q.addr].tarn.run = 0))) ∧
    (∀ q : Poll, x.poll = some q → s.ctx[q.addr].tarn.tie = none →
      let y := s.ctx[q.addr].tarn
      let quar : Bool := y.quarantined || decide (bitsOf (s.cp q.addr .tarnCfg) 8 8 ≤ capInc y.run 255)
      Completes (.noReply p) s (fun t => (t.port p).poll = none ∧ t.ctx[q.addr].tarn.viol = true ∧ t.ctx[q.addr].tarn.lastViol = 3 ∧
        t.ctx[q.addr].tarn.run = capInc y.run 255 ∧ t.ctx[q.addr].tarn.quarantined = quar ∧
        (quar = y.quarantined → (∀ d : CtxId, d ≠ q.addr → t.ctx[d] = s.ctx[d]) ∧ alone t ∧ t.ph = s.ph ∧ t.mb = s.mb))) ∧
    (x.poll = none → exec (.noReply p) s = .next s ∧ ∀ (r : TarnChars), exec (.tarnReply p r) s = .next s) ∧
    (s.dev.st = .standby ∨ s.dev.st = .run ∨ s.dev.st = .safe → x.poll = none →
      exec (.tarnStray p) s = .next (s.modPort p (fun x => { x with stray := (x.stray + 1) % 65536 }))) ∧
    (s.dev.st = .standby ∨ s.dev.st = .run ∨ s.dev.st = .safe → s.clk.time + 32 < x.driveEnd →
      exec (.tarnStray p) s = .next (s.modPort p (fun x => { x with stray := (x.stray + 1) % 65536 }))) ∧
    (x.poll.isSome = true → x.driveEnd ≤ s.clk.time + 32 → exec (.tarnStray p) s = .next s)

/-- The JTAG port: a boundary scan takes its bits and answers as many, and drives nothing (the model's choice, log entry 123); a scan of
BYPASS comes out one bit behind through the one-bit register, its first bit a free value (log entry 9); FLASH_LOAD takes its target, erases that half's bank, and
programs the words that follow and checks the image with its last (how it goes on and ends is log entry 117, and in which states log
entry 120), and is refused for an eligible half and in RUN; a debug request halts,
resumes, steps or freezes its half, one of no single request is refused, and one without the key is ignored (R308, R475 to R477). A
freeze keeps the tag from which the cells stand still, and UNFREEZE that at whose end they run again. STEP leaves the firmware's effect out (log
entries 27, 118). FLASH_LOAD_ERASE_DONE before its instant does nothing (log entry 3). -/
def Obligations.JtagRows : Prop :=
  (∀ (scan : List Bool) (s : State), Completes (.extest scan) s (fun t => t.jtag.ir = 0x00 ∧ t.jtag.scan = scan ∧ t.jtag.tdo.length = scan.length ∧
      t.dev = s.dev ∧ t.ctx = s.ctx ∧ t.ph = s.ph ∧ t.sum = s.sum ∧ t.nv = s.nv) ∧
    Completes (.samplePreload scan) s (fun t => t.jtag.ir = 0x02 ∧ t.jtag.scan = scan ∧ t.jtag.tdo.length = scan.length ∧
      t.dev = s.dev ∧ t.ctx = s.ctx ∧ t.ph = s.ph ∧ t.sum = s.sum ∧ t.nv = s.nv)) ∧
  (∀ (code : Byte) (scan : List Bool) (s : State),
    (jtagCodes.contains code = false → Completes (.bypass ⟨code, scan⟩) s (fun t => t.jtag.ir = code ∧ t.jtag.tdo.length = scan.length ∧
      (∀ j : Nat, j + 1 < scan.length → t.jtag.tdo[j + 1]? = scan[j]?) ∧ (scan ≠ [] → some t.jtag.bypass = scan.getLast?) ∧
      t.dev = s.dev ∧ t.ctx = s.ctx ∧ t.ph = s.ph ∧ t.sum = s.sum ∧ t.nv = s.nv)) ∧
    (jtagCodes.contains code = true → exec (.bypass ⟨code, scan⟩) s = .next s)) ∧
  (∀ s : State, exec .flashStatus s = .next { s with jtag := { s.jtag with
      ir := 0xA2, out := word (268435456 * s.jtag.loadCode + s.jtag.loadWords % 268435456) } } ∧
    exec .debugStatus s = .next { s with jtag := { s.jtag with ir := 0xB1, out := s.debugWord } }) ∧
  (∀ (s : State) (h : HalfId), s.dev.st ≠ .cold → s.jtag.loadPhase = 0 →
    let w : Word := match h with
      | .east => 0x4C440000
      | .west => 0x4C440001
    ((s.sum.half h).eligible = false → s.dev.st ≠ .run → Completes (.flashLoad w) s (fun t => t.jtag.loadCode = 1 ∧ t.jtag.loadPhase = 1 ∧
      t.jtag.loadTarget = some h ∧ t.jtag.loadWords = 1 ∧ t.sum.flash (bankOf h) = [] ∧ (∀ j : Nat, t.sum.programmed (bankOf h) j = false) ∧
      t.sum.flash (!bankOf h) = s.sum.flash (!bankOf h) ∧ t.sum.east = s.sum.east ∧ t.sum.west = s.sum.west ∧ t.ctx = s.ctx ∧ t.nv = s.nv)) ∧
    (((s.sum.half h).eligible = true ∨ s.dev.st = .run) → Completes (.flashLoad w) s (fun t => t.jtag.loadCode = 8 ∧ t.jtag.loadPhase = 0 ∧
      t.jtag.loadTarget = none ∧ t.sum = s.sum))) ∧
  (∀ (s : State) (w : Word), s.dev.st ≠ .cold → s.jtag.loadPhase = 0 → w.toNat ≠ 0x4C440000 → w.toNat ≠ 0x4C440001 →
    Completes (.flashLoad w) s (fun t => t.jtag.loadCode = 8 ∧ t.jtag.loadPhase = 0 ∧ t.jtag.loadTarget = none ∧ t.sum = s.sum)) ∧
  (∀ (s : State) (h : HalfId) (w : Word) (j : Nat), s.dev.st ≠ .cold → s.jtag.loadPhase = 2 → s.jtag.loadTarget = some h → s.jtag.loadWords = j + 1 →
    let b := bankOf h
    let x : Summit := if j < 131072 then s.sum.program b j w else s.sum
    (j < 3 ∨ 4 * (j + 1) < 256 + x.imageLen b → Completes (.flashLoad w) s (fun t => t.jtag.loadWords = j + 2 ∧ t.jtag.loadPhase = 2 ∧
      t.jtag.loadTarget = some h ∧ t.sum = x ∧ t.ctx = s.ctx ∧ t.nv = s.nv)) ∧
    (3 ≤ j → 256 + x.imageLen b ≤ 4 * (j + 1) → Completes (.flashLoad w) s (fun t => t.jtag.loadWords = j + 2 ∧ t.jtag.loadPhase = 0 ∧
      t.jtag.loadTarget = none ∧ t.jtag.loadCode = x.verify b ∧ t.sum = (x.loadCheck b).refresh ∧ t.ctx = s.ctx ∧ t.nv = s.nv))) ∧
  (∀ (s : State) (w : Word), s.dev.st ≠ .cold → s.jtag.loadPhase = 1 → Completes (.flashLoad w) s (fun t => t.jtag.loadCode = 8 ∧
    t.jtag.loadPhase = 0 ∧ t.jtag.loadTarget = none ∧ t.sum = s.sum ∧ t.ctx = s.ctx)) ∧
  (∀ (s : State) (w : Word), s.dev.st = .cold → exec (.flashLoad w) s = .next { s with jtag := { s.jtag with ir := 0xA1 } }) ∧
  (∀ s : State, (s.jtag.loadPhase = 1 → exec .flashLoadEraseDone s = .next { s with jtag := { s.jtag with loadPhase := 2, loadCode := 0 } }) ∧
    (s.jtag.loadPhase ≠ 1 → exec .flashLoadEraseDone s = .next s)) ∧
  (∀ (s : State) (w : Word), s.dev.st ≠ .cold → s.dev.st ≠ .holdup → w.toNat / 65536 = 0x4447 →
    let h := debugHalf w
    let u (n : Nat) : State := { s with jtag := { s.jtag with ir := 0xB0, result := n } }
    (w.toNat % 32 = 1 → exec (.debugHalt w) s = .next ((u 1).modHs h (fun x => if x.supHalted then x else { x with supHalted := true, supSince := s.clk.time - x.supSince }))) ∧
    (w.toNat % 32 = 2 →
      let y := (u 1).modHs h (fun x => if x.supHalted then { x with supHalted := false, supSince := s.clk.time - x.supSince } else x)
      exec (.debugResume w) s = .next y.turnOver ∧ (s.pmb.jobs = [] → exec (.debugResume w) s = .next y)) ∧
    (w.toNat % 32 = 16 → exec (.debugStep w) s = .next (u (if (s.sum.half h).supHalted then 1 else 4))) ∧
    (w.toNat % 32 = 8 → exec (.unfreeze w) s = .next ((u 1).modHs h (fun x => { x with
      frozen := false, freezeTag := none, freezeWait := false, thawTag := if x.froze s.enables then some s.enables else x.thawTag }))) ∧
    (w.toNat % 32 = 4 → Completes (.freeze w) s (fun t =>
      ((s.sum.half h.other).eligible = true → s.holder = some h → (t.sum.half h).freezeWait = true ∧ (t.sum.half h).eligible = false ∧ t.jtag.result = 2) ∧
      ((s.sum.half h.other).eligible = true → s.holder ≠ some h → (t.sum.half h).frozen = true ∧
        (t.sum.half h).freezeTag = (if (s.sum.half h).frozen then (s.sum.half h).freezeTag else some s.enables) ∧ (t.sum.half h).eligible = false ∧ t.jtag.result = 1) ∧
      ((s.sum.half h.other).eligible = false → t.sum = s.sum ∧ t.jtag.result = 3) ∧ t.sum.half h.other = s.sum.half h.other ∧
      t.ctx = s.ctx ∧ t.ph = s.ph ∧ t.nv = s.nv)) ∧
    (debugReqOf w = none → ∀ i ∈ [Instr.debugHalt w, .debugResume w, .debugStep w, .freeze w, .unfreeze w], exec i s = .next (u 4))) ∧
  (∀ (s : State) (w : Word), w.toNat / 65536 ≠ 0x4447 ∨ s.dev.st = .cold ∨ s.dev.st = .holdup → ∀ i ∈ [Instr.debugHalt w, .debugResume w, .debugStep w, .freeze w, .unfreeze w],
    exec i s = .next { s with jtag := { s.jtag with ir := 0xB0 } })
end

