-- ==== Sys2Proof/Laws/Memory.lean ====
section
/-!
SUPPORT. Laws of the addressed memories: a read after a write, and the canonical form that every operation keeps.
-/
namespace Sys2Proof.Machine

theorem Memory.wfFrom_le {β : Type} [DecidableEq β] (d : β) {lo hi : Nat} (m : List (Nat × β)) (h : lo ≤ hi)
    (w : Memory.wfFrom d hi m = true) : Memory.wfFrom d lo m = true := by
  cases m with
  | nil => rfl
  | cons e m =>
    simp only [Memory.wfFrom, Bool.and_eq_true, decide_eq_true_eq] at w ⊢
    exact ⟨⟨by omega, w.1.2⟩, w.2⟩

theorem Memory.write_wfFrom {β : Type} [DecidableEq β] (d : β) (x : Nat) (w : β) (lo : Nat) (m : List (Nat × β))
    (h : Memory.wfFrom d lo m = true) (hx : lo ≤ x) : Memory.wfFrom d lo (Memory.write d m x w) = true := by
  induction m generalizing lo with
  | nil =>
    unfold Memory.write
    split
    · rfl
    · rename_i hw; simp [Memory.wfFrom, hw, hx]
  | cons e m ih =>
    obtain ⟨a, v⟩ := e
    simp only [Memory.wfFrom, Bool.and_eq_true, decide_eq_true_eq] at h
    obtain ⟨⟨h1, h2⟩, h3⟩ := h
    unfold Memory.write
    split
    · split
      · simp [Memory.wfFrom, h1, h2, h3]
      · rename_i hw
        simp only [Memory.wfFrom, Bool.and_eq_true, decide_eq_true_eq]
        exact ⟨⟨hx, hw⟩, ⟨by omega, h2⟩, h3⟩
    · split
      · split
        · exact Memory.wfFrom_le d m (by omega) h3
        · rename_i hw; simp [Memory.wfFrom, hx, hw]; rename_i he; rw [he]; exact h3
      · simp only [Memory.wfFrom, Bool.and_eq_true, decide_eq_true_eq]
        exact ⟨⟨h1, h2⟩, ih (a + 1) h3 (by omega)⟩

/-- A write keeps the canonical form. -/
theorem Memory.write_wf {β : Type} [DecidableEq β] (d : β) (m : List (Nat × β)) (x : Nat) (w : β)
    (h : Memory.wf d m = true) : Memory.wf d (Memory.write d m x w) = true :=
  Memory.write_wfFrom d x w 0 m h (Nat.zero_le x)

theorem Memory.writeList_wf {β : Type} [DecidableEq β] (d : β) (m : List (Nat × β)) (x : Nat) (ws : List β)
    (h : Memory.wf d m = true) : Memory.wf d (Memory.writeList d m x ws) = true := by
  induction ws generalizing m x with
  | nil => exact h
  | cons w ws ih => exact ih _ _ (Memory.write_wf d m x w h)

theorem Memory.filter_wfFrom {β : Type} [DecidableEq β] (d : β) (p : Nat × β → Bool) (lo : Nat) (m : List (Nat × β))
    (h : Memory.wfFrom d lo m = true) : Memory.wfFrom d lo (m.filter p) = true := by
  induction m generalizing lo with
  | nil => rfl
  | cons e m ih =>
    obtain ⟨a, v⟩ := e
    simp only [Memory.wfFrom, Bool.and_eq_true, decide_eq_true_eq] at h
    rw [List.filter_cons]
    split
    · simp only [Memory.wfFrom, Bool.and_eq_true, decide_eq_true_eq]; exact ⟨h.1, ih _ h.2⟩
    · exact ih _ (Memory.wfFrom_le d m (by omega) h.2)

/-- An erase keeps the canonical form. -/
theorem Memory.clear_wf {β : Type} [DecidableEq β] (d : β) (m : List (Nat × β)) (x n : Nat) (h : Memory.wf d m = true) :
    Memory.wf d (Memory.clear m x n) = true := Memory.filter_wfFrom d _ 0 m h

theorem Memory.read_of_lt {β : Type} [DecidableEq β] (d : β) (lo : Nat) (m : List (Nat × β)) (x : Nat)
    (h : Memory.wfFrom d lo m = true) (hx : x < lo) : Memory.read d m x = d := by
  induction m generalizing lo with
  | nil => rfl
  | cons e m ih =>
    obtain ⟨a, v⟩ := e
    simp only [Memory.wfFrom, Bool.and_eq_true, decide_eq_true_eq] at h
    rw [Memory.read, if_neg (by omega)]
    exact ih (a + 1) h.2 (by omega)

theorem Memory.read_write_from {β : Type} [DecidableEq β] (d : β) (lo : Nat) (m : List (Nat × β)) (x y : Nat) (w : β)
    (h : Memory.wfFrom d lo m = true) :
    Memory.read d (Memory.write d m x w) y = if y = x then w else Memory.read d m y := by
  induction m generalizing lo with
  | nil =>
    unfold Memory.write
    split
    · rename_i hw; subst hw; split <;> rfl
    · simp only [Memory.read, eq_comm]
  | cons e m ih =>
    obtain ⟨a, v⟩ := e
    simp only [Memory.wfFrom, Bool.and_eq_true, decide_eq_true_eq] at h
    unfold Memory.write
    split
    · rename_i hlt
      split
      · rename_i hw; subst hw
        by_cases hy : y = x
        · subst hy
          rw [if_pos rfl, Memory.read, if_neg (by omega)]
          exact Memory.read_of_lt _ _ _ _ h.2 (by omega)
        · rw [if_neg hy]
      · rw [Memory.read]; simp only [eq_comm]
    · split
      · rename_i hx; subst hx
        split
        · rename_i hw; subst hw
          by_cases hy : y = x
          · subst hy; rw [if_pos rfl]; exact Memory.read_of_lt _ _ _ _ h.2 (by omega)
          · rw [if_neg hy, Memory.read, if_neg (fun e => hy e.symm)]
        · by_cases hy : y = x
          · subst hy; simp [Memory.read]
          · rw [if_neg hy, Memory.read, Memory.read, if_neg (fun e => hy e.symm), if_neg (fun e => hy e.symm)]
      · rename_i h1 h2
        rw [Memory.read, Memory.read]
        by_cases hy : a = y
        · rw [if_pos hy, if_pos hy, if_neg (by omega)]
        · rw [if_neg hy, if_neg hy]; exact ih (a + 1) h.2

/-- What a byte reads as after a write: the value written there, and what it read before everywhere else. -/
theorem Memory.read_write {β : Type} [DecidableEq β] (d : β) (m : List (Nat × β)) (x y : Nat) (w : β)
    (h : Memory.wf d m = true) : Memory.read d (Memory.write d m x w) y = if y = x then w else Memory.read d m y :=
  Memory.read_write_from d 0 m x y w h

theorem Memory.read_clear {β : Type} [DecidableEq β] (d : β) (lo : Nat) (m : List (Nat × β)) (x n y : Nat)
    (h : Memory.wfFrom d lo m = true) :
    Memory.read d (Memory.clear m x n) y = if x ≤ y ∧ y < x + n then d else Memory.read d m y := by
  induction m generalizing lo with
  | nil => simp [Memory.clear, Memory.read]
  | cons e m ih =>
    obtain ⟨a, v⟩ := e
    simp only [Memory.wfFrom, Bool.and_eq_true, decide_eq_true_eq] at h
    have ih' := ih (a + 1) h.2
    unfold Memory.clear at ih' ⊢
    rw [List.filter_cons]
    by_cases hy : a = y
    · subst hy
      have hr : Memory.read d m a = d := Memory.read_of_lt _ _ _ _ h.2 (by omega)
      split
      · rename_i hc
        rw [Bool.or_eq_true, decide_eq_true_eq, decide_eq_true_eq] at hc
        rw [Memory.read, if_pos rfl, if_neg (by omega), Memory.read, if_pos rfl]
      · rename_i hc
        rw [Bool.or_eq_true, decide_eq_true_eq, decide_eq_true_eq] at hc
        rw [ih', if_pos (by omega), if_pos (by omega)]
    · split
      · rw [Memory.read, if_neg hy, ih', Memory.read, if_neg hy]
      · rw [ih', Memory.read, if_neg hy]

/-- Reading a written run, inside it and outside it. -/
theorem Memory.read_writeList_outside {β : Type} [DecidableEq β] (d : β) (m : List (Nat × β)) (x y : Nat) (ws : List β)
    (h : Memory.wf d m = true) (hy : y < x ∨ x + ws.length ≤ y) :
    Memory.read d (Memory.writeList d m x ws) y = Memory.read d m y := by
  induction ws generalizing m x with
  | nil => rfl
  | cons w ws ih =>
    rw [List.length_cons] at hy
    rw [Memory.writeList, ih _ _ (Memory.write_wf d m x w h) (by omega), Memory.read_write d m x y w h, if_neg (by omega)]

theorem Memory.read_writeList_inside {β : Type} [DecidableEq β] (d : β) (m : List (Nat × β)) (x : Nat) (ws : List β) (k : Nat)
    (h : Memory.wf d m = true) (hk : k < ws.length) :
    Memory.read d (Memory.writeList d m x ws) (x + k) = ws[k] := by
  induction ws generalizing m x k with
  | nil => exact absurd hk (Nat.not_lt_zero _)
  | cons w ws ih =>
    cases k with
    | zero =>
      rw [show x + 0 = x from rfl, Memory.writeList, Memory.read_writeList_outside d _ _ _ _ (Memory.write_wf d m x w h) (by omega),
        Memory.read_write d m x x w h, if_pos rfl]
      rfl
    | succ k =>
      have e : x + (k + 1) = x + 1 + k := by omega
      rw [Memory.writeList, e, ih _ _ _ (Memory.write_wf d m x w h) (by simpa using hk)]
      rfl

end Sys2Proof.Machine
end

