-- ==== Sys2Proof/Laws/Store.lean ====
section
/-!
SUPPORT. What each operation over the record store does to the canonical form of its memory, and each operation over the
summit's firmware to the release floor.
-/
namespace Sys2Proof.Machine

theorem Store.program_wf (x : Store) (a : Nat) (bs : List Byte) (h : Memory.wf (0xFF : Byte) x.mem = true) :
    Memory.wf (0xFF : Byte) (x.program a bs).mem = true := Memory.writeList_wf _ _ _ _ h

theorem Store.setPtr_mem (x : Store) (a : Area) (n : Nat) : (x.setPtr a n).mem = x.mem := by cases a <;> rfl

theorem Store.retire_mem (x : Store) (b : Nat) : (x.retire b).mem = x.mem := rfl

theorem Store.eraseBlock_wf (x : Store) (b : Nat) (h : Memory.wf (0xFF : Byte) x.mem = true) :
    Memory.wf (0xFF : Byte) (x.eraseBlock b).mem = true := by
  unfold Store.eraseBlock
  split
  · dsimp only
    split
    · exact Memory.clear_wf _ _ _ _ h
    · exact Memory.clear_wf _ _ _ _ h
  · exact h

/-- Records that are programmed one after another keep the form of the store, if each of them does. -/
theorem Store.foldl_wf {α : Type} (f : Store → α → Store) (l : List α) (x : Store)
    (hf : ∀ y e, Memory.wf (0xFF : Byte) y.mem = true → Memory.wf (0xFF : Byte) (f y e).mem = true)
    (h : Memory.wf (0xFF : Byte) x.mem = true) : Memory.wf (0xFF : Byte) (l.foldl f x).mem = true := by
  induction l generalizing x with
  | nil => exact h
  | cons e l ih => exact ih _ (hf x e h)

theorem Store.append_wf (a : Area) (keep : Rec → Bool) (n : Nat) : ∀ (x : Store) (r : Rec), Memory.wf (0xFF : Byte) x.mem = true →
    Memory.wf (0xFF : Byte) (Store.append a keep n x r).mem = true := by
  induction n with
  | zero => intro x r h; rw [Store.append, Store.setPtr_mem]; exact Store.program_wf _ _ _ h
  | succ n ih =>
    intro x r h
    rw [Store.append]
    dsimp only
    split
    · exact ih _ _ (Store.foldl_wf _ _ _ (fun y e hy => ih y e.2 hy) (Store.eraseBlock_wf _ _ h))
    · split
      · exact ih _ _ (Store.foldl_wf _ _ _ (fun y e hy => ih y e.2 hy) h)
      · rw [Store.setPtr_mem]; exact Store.program_wf _ _ _ h

theorem Store.reclaimBlock_wf (x : Store) (a : Area) (keep : Rec → Bool) (b : Nat) (h : Memory.wf (0xFF : Byte) x.mem = true) :
    Memory.wf (0xFF : Byte) (x.reclaimBlock a keep b).mem = true :=
  Store.foldl_wf _ _ _ (fun y e hy => Store.append_wf _ _ _ y e.2 hy)
    (Store.eraseBlock_wf _ _ (Store.foldl_wf _ _ _ (fun y e hy => Store.append_wf _ _ _ y e.2 hy) h))

theorem Store.eraseAhead_wf (a : Area) (keep : Rec → Bool) (n f : Nat) : ∀ x : Store, Memory.wf (0xFF : Byte) x.mem = true →
    Memory.wf (0xFF : Byte) (Store.eraseAhead a keep n f x).mem = true := by
  induction f with
  | zero => intro x h; exact h
  | succ f ih =>
    intro x h
    rw [Store.eraseAhead]
    split
    · exact h
    · split
      · exact h
      · exact ih _ (Store.reclaimBlock_wf _ _ _ _ h)

theorem Store.reclaim_wf (x : Store) (a : Area) (keep : Rec → Bool) (h : Memory.wf (0xFF : Byte) x.mem = true) :
    Memory.wf (0xFF : Byte) (x.reclaim a keep).mem = true := by
  unfold Store.reclaim
  split
  · exact h
  · exact Store.reclaimBlock_wf _ _ _ _ h

theorem Store.makeRoom_wf (a : Area) (keep : Rec → Bool) (n : Nat) : ∀ x : Store, Memory.wf (0xFF : Byte) x.mem = true →
    Memory.wf (0xFF : Byte) (Store.makeRoom a keep n x).mem = true := by
  induction n with
  | zero => intro x h; exact h
  | succ n ih =>
    intro x h
    rw [Store.makeRoom]
    split
    · exact ih _ (Store.reclaim_wf _ _ _ h)
    · exact h

theorem Store.cutOff_wf (x : Store) (a : Area) (r : Rec) (n : Nat) (h : Memory.wf (0xFF : Byte) x.mem = true) :
    Memory.wf (0xFF : Byte) (x.cutOff a r n).mem = true := by
  unfold Store.cutOff
  rw [Store.setPtr_mem]
  exact Store.program_wf _ _ _ h

theorem Store.cairnAhead_wf (x : Store) (h : Memory.wf (0xFF : Byte) x.mem = true) : Memory.wf (0xFF : Byte) x.cairnAhead.mem = true := by
  unfold Store.cairnAhead
  dsimp only
  split
  · exact h
  · exact Store.eraseBlock_wf _ _ h

theorem Store.cairnReady_wf (x : Store) (h : Memory.wf (0xFF : Byte) x.mem = true) : Memory.wf (0xFF : Byte) x.cairnReady.mem = true := by
  unfold Store.cairnReady
  split
  · exact Store.eraseBlock_wf _ _ h
  · exact h

theorem Store.putCairn_wf (x : Store) (r : Rec) (h : Memory.wf (0xFF : Byte) x.mem = true) :
    Memory.wf (0xFF : Byte) (x.putCairn r).mem = true :=
  Store.cairnAhead_wf _ (Store.program_wf _ _ _ (Store.cairnReady_wf _ h))

theorem Store.putTally_wf (x : Store) (account : Nat) (classB : Bool) (tseq : Nat) (delta : Int)
    (h : Memory.wf (0xFF : Byte) x.mem = true) : Memory.wf (0xFF : Byte) (x.putTally account classB tseq delta).mem = true :=
  Store.program_wf _ _ _ h

theorem Summit.mod_floor (x : Summit) (h : HalfId) (f : HalfS → HalfS) : (x.mod h f).floor = x.floor := by cases h <;> rfl
theorem Summit.invalidate_floor (x : Summit) (b : Bool) : (x.invalidate b).floor = x.floor := by
  unfold Summit.invalidate; split <;> rfl
theorem Summit.eraseBank_floor (x : Summit) (b : Bool) : (x.eraseBank b).floor = x.floor := by
  unfold Summit.eraseBank; cases b <;> exact Summit.invalidate_floor _ _
theorem Summit.program_floor (x : Summit) (b : Bool) (j : Nat) (w : Word) : (x.program b j w).floor = x.floor := by
  unfold Summit.program; split <;> rfl
theorem Summit.check_floor (x : Summit) (b : Bool) : (x.check b).floor = x.floor := by
  unfold Summit.check; cases b <;> rfl
theorem Summit.verifyOp_floor (x : Summit) (b : Bool) : (x.verifyOp b).floor = x.floor := by
  unfold Summit.verifyOp; cases b <;> exact Summit.check_floor x _
theorem Summit.loadCheck_floor (x : Summit) (b : Bool) : (x.loadCheck b).floor = x.floor := by
  unfold Summit.loadCheck; cases b <;> exact Summit.check_floor x _
theorem Summit.load_floor (x : Summit) (h : HalfId) : (x.load h).floor = x.floor := by
  unfold Summit.load; split <;> exact Summit.mod_floor x h _

/-- The floor only rises (R306). -/
theorem Summit.raiseFloor_floor (x : Summit) : x.floor.toNat ≤ x.raiseFloor.floor.toNat := by
  unfold Summit.raiseFloor
  split
  · rename_i h
    simp only [Bool.and_eq_true, decide_eq_true_eq] at h
    exact Nat.le_of_lt h.2
  · exact Nat.le_refl _

theorem Summit.refresh_floor (x : Summit) : x.floor.toNat ≤ x.refresh.floor.toNat := Summit.raiseFloor_floor x.setMixed

end Sys2Proof.Machine
end

