-- ==== Sys2Proof/Laws/Keeps.lean ====
section
/-!
SUPPORT. What every operation keeps: the queue of waiting commands, the release floor, the form of the record store, and the
bounds of the event queue and the Cairn queue. One lemma an operation, cited in place of unfolding it.
-/
namespace Sys2Proof.Machine

/-- What every operation over the state keeps: the queue as it was, and the bounds. -/
structure Keeps (s t : State) : Prop where
  pending : t.pending = s.pending
  floor : s.sum.floor.toNat ≤ t.sum.floor.toNat
  store : Memory.wf (0xFF : Byte) s.nv.mem = true → Memory.wf (0xFF : Byte) t.nv.mem = true
  events : s.mb.events.length ≤ 64 → t.mb.events.length ≤ 64
  cairn : s.cairn.queue.length ≤ 16 → t.cairn.queue.length ≤ 16

theorem Keeps.refl (s : State) : Keeps s s := ⟨rfl, Nat.le_refl _, id, id, id⟩
theorem Keeps.trans {s t u : State} (h : Keeps s t) (k : Keeps t u) : Keeps s u :=
  ⟨k.pending.trans h.pending, Nat.le_trans h.floor k.floor, k.store ∘ h.store, k.events ∘ h.events, k.cairn ∘ h.cairn⟩
theorem Keeps.same {s t u : State} (h : Keeps s t) (h1 : u.pending = t.pending) (h2 : u.sum.floor = t.sum.floor)
    (h3 : u.nv.mem = t.nv.mem) (h4 : u.mb.events = t.mb.events) (h5 : u.cairn.queue = t.cairn.queue) : Keeps s u :=
  ⟨h1.trans h.pending, h2 ▸ h.floor, h3 ▸ h.store, h4 ▸ h.events, h5 ▸ h.cairn⟩
theorem Keeps.lit {s t : State} {dev clk gAcc gInF east west ctx ph sum ft cal th crag tokErr tokCount tokFree tokOld lastOn nv led cairn mb pmb tarnA tarnB jtag commits free pending} (h1 : pending = t.pending) (h2 : sum.floor = t.sum.floor)
    (h3 : nv.mem = t.nv.mem) (h4 : mb.events = t.mb.events) (h5 : cairn.queue = t.cairn.queue) (h : Keeps s t) :
    Keeps s ⟨dev, clk, gAcc, gInF, east, west, ctx, ph, sum, ft, cal, th, crag, tokErr, tokCount, tokFree, tokOld, lastOn, nv, led, cairn, mb, pmb, tarnA, tarnB, jtag, commits, free, pending⟩ := h.same h1 h2 h3 h4 h5
theorem Keeps.ite {s a b : State} {c : Prop} [Decidable c] (ha : Keeps s a) (hb : Keeps s b) :
    Keeps s (if c then a else b) := by split <;> assumption
theorem Keeps.foldl {α : Type} {f : State → α → State} {s : State} (h : Keeps s a)
   (hf : ∀ t x, Keeps s t → Keeps s (f t x)) (l : List α) : Keeps s (l.foldl f a) := by
  induction l generalizing a with
  | nil => exact h
  | cons x l ih => exact ih (hf _ _ h)

theorem Keeps.sum {s t : State} (h : Keeps s t) (x : Summit) (hx : t.sum.floor.toNat ≤ x.floor.toNat) : Keeps s { t with sum := x } :=
  ⟨h.pending, Nat.le_trans h.floor hx, h.store, h.events, h.cairn⟩
theorem Keeps.nv {s t : State} (h : Keeps s t) (x : Store)
    (hx : Memory.wf (0xFF : Byte) t.nv.mem = true → Memory.wf (0xFF : Byte) x.mem = true) : Keeps s { t with nv := x } :=
  ⟨h.pending, h.floor, hx ∘ h.store, h.events, h.cairn⟩
theorem Keeps.mb {s t : State} (h : Keeps s t) (x : Mbox) (hx : t.mb.events.length ≤ 64 → x.events.length ≤ 64) :
    Keeps s { t with mb := x } := ⟨h.pending, h.floor, h.store, hx ∘ h.events, h.cairn⟩
theorem Keeps.cairnSet {s t : State} (h : Keeps s t) (x : CairnS) (hx : t.cairn.queue.length ≤ 16 → x.queue.length ≤ 16) :
    Keeps s { t with cairn := x } := ⟨h.pending, h.floor, h.store, h.events, hx ∘ h.cairn⟩
theorem bumpLast_length (l : List EvEntry) : (bumpLast l).length = l.length := by
  induction l with
  | nil => rfl
  | cons e l ih => cases l with
    | nil => rfl
    | cons f l => simp [bumpLast] at ih ⊢; omega
theorem Mbox.modSlot_events_same (m : Mbox) (r : Req) (f : Slot64 → Slot64) : (m.modSlot r f).events = m.events := by
  unfold Mbox.modSlot; split <;> rfl

theorem State.modCtx_keeps {s₀ : State} (s : State) (c : CtxId) (f : Ctx → Ctx) (hk : Keeps s₀ s) : Keeps s₀ (State.modCtx s c f) := by
  unfold State.modCtx
  iterate 5 (
    all_goals (try ((with_reducible apply Keeps.lit); (case h1 => exact rfl); (case h2 => exact rfl); (case h3 => exact rfl); (case h4 => exact rfl); (case h5 => exact rfl)))
    repeat (first | with_reducible assumption | with_reducible apply Keeps.ite | with_reducible apply Keeps.foldl | intro _))

theorem State.modPh_keeps {s₀ : State} (s : State) (p : PhaseId) (f : PhaseS → PhaseS) (hk : Keeps s₀ s) : Keeps s₀ (State.modPh s p f) := by
  unfold State.modPh
  iterate 5 (
    all_goals (try ((with_reducible apply Keeps.lit); (case h1 => exact rfl); (case h2 => exact rfl); (case h3 => exact rfl); (case h4 => exact rfl); (case h5 => exact rfl)))
    repeat (first | with_reducible assumption | with_reducible apply Keeps.ite | with_reducible apply Keeps.foldl | intro _))

theorem State.modChan_keeps {s₀ : State} (s : State) (c : CtxId) (f : Chan → Chan) (hk : Keeps s₀ s) : Keeps s₀ (State.modChan s c f) := by
  unfold State.modChan
  iterate 5 (
    repeat (first | with_reducible assumption | with_reducible apply State.modCtx_keeps | with_reducible apply Keeps.ite | with_reducible apply Keeps.foldl | intro _))

theorem State.setHalf_keeps {s₀ : State} (s : State) (h : HalfId) (x : Half) (hk : Keeps s₀ s) : Keeps s₀ (s.setHalf h x) := by
  cases h <;> exact hk.same rfl rfl rfl rfl rfl

theorem State.halves_keeps {s₀ : State} (s : State) (f : Half → Half) (hk : Keeps s₀ s) : Keeps s₀ (State.halves s f) := by
  unfold State.halves
  iterate 5 (
    all_goals (try ((with_reducible apply Keeps.lit); (case h1 => exact rfl); (case h2 => exact rfl); (case h3 => exact rfl); (case h4 => exact rfl); (case h5 => exact rfl)))
    repeat (first | with_reducible assumption | with_reducible apply Keeps.ite | with_reducible apply Keeps.foldl | intro _))

theorem State.modHs_keeps {s₀ : State} (s : State) (h : HalfId) (f : HalfS → HalfS) (hk : Keeps s₀ s) :
    Keeps s₀ (s.modHs h f) := by
  cases h <;> exact hk.same rfl rfl rfl rfl rfl

theorem State.commit_keeps {s₀ : State} (s : State) (t : Nat) (a : Act) (hk : Keeps s₀ s) : Keeps s₀ (State.commit s t a) := by
  unfold State.commit
  iterate 5 (
    all_goals (try ((with_reducible apply Keeps.lit); (case h1 => exact rfl); (case h2 => exact rfl); (case h3 => exact rfl); (case h4 => exact rfl); (case h5 => exact rfl)))
    repeat (first | with_reducible assumption | with_reducible apply Keeps.ite | with_reducible apply Keeps.foldl | intro _))

theorem State.fresh_keeps {s₀ : State} (s : State) (hk : Keeps s₀ s) : Keeps s₀ (State.fresh s).2 := by
  unfold State.fresh
  iterate 5 (
    all_goals (try ((with_reducible apply Keeps.lit); (case h1 => exact rfl); (case h2 => exact rfl); (case h3 => exact rfl); (case h4 => exact rfl); (case h5 => exact rfl)))
    repeat (first | with_reducible assumption | with_reducible apply Keeps.ite | with_reducible apply Keeps.foldl | intro _))

theorem State.tempSample_keeps {s₀ : State} (s : State) (x : TempSample) (hk : Keeps s₀ s) : Keeps s₀ (State.tempSample s x) := by
  unfold State.tempSample
  iterate 5 (
    all_goals (try ((with_reducible apply Keeps.lit); (case h1 => exact rfl); (case h2 => exact rfl); (case h3 => exact rfl); (case h4 => exact rfl); (case h5 => exact rfl)))
    repeat (first | with_reducible assumption | with_reducible apply Keeps.ite | with_reducible apply Keeps.foldl | intro _)
    all_goals (try dsimp only)
    all_goals (try split))

theorem State.sampleAt_keeps {s₀ : State} (s : State) (x : TempSample) (hk : Keeps s₀ s) : Keeps s₀ (State.sampleAt s x) := by
  unfold State.sampleAt
  iterate 5 (
    repeat (first | with_reducible assumption | with_reducible apply State.tempSample_keeps | with_reducible apply Keeps.ite | with_reducible apply Keeps.foldl | intro _)
    all_goals (try ((with_reducible apply Keeps.lit); (case h1 => exact rfl); (case h2 => exact rfl); (case h3 => exact rfl); (case h4 => exact rfl); (case h5 => exact rfl)))
    repeat (first | with_reducible assumption | with_reducible apply State.tempSample_keeps | with_reducible apply Keeps.ite | with_reducible apply Keeps.foldl | intro _))

theorem State.lose_keeps {s₀ : State} (s : State) (t : Trig) (hk : Keeps s₀ s) : Keeps s₀ (State.lose s t) := by
  unfold State.lose
  iterate 5 (
    all_goals (try ((with_reducible apply Keeps.lit); (case h1 => exact rfl); (case h2 => exact rfl); (case h3 => exact rfl); (case h4 => exact rfl); (case h5 => exact rfl)))
    repeat (first | with_reducible assumption | with_reducible apply Keeps.ite | with_reducible apply Keeps.foldl | intro _))

theorem State.move_keeps {s₀ : State} (s : State) (t : Trig) (f : State → State) (hk : Keeps s₀ s)
    (hf : ∀ u, Keeps s₀ u → Keeps s₀ (f u)) : Keeps s₀ (s.move t f) := by
  unfold State.move
  split
  · exact hf _ hk
  · exact State.lose_keeps s t hk

theorem State.w1cCtx_keeps {s₀ : State} (s : State) (c : CtxId) (r : CReg) (w : Word) (hk : Keeps s₀ s) : Keeps s₀ (State.w1cCtx s c r w) := by
  unfold State.w1cCtx
  iterate 5 (
    repeat (first | with_reducible assumption | with_reducible apply State.halves_keeps | with_reducible apply State.modCtx_keeps | with_reducible apply Keeps.ite | with_reducible apply Keeps.foldl | intro _)
    all_goals (try ((with_reducible apply Keeps.lit); (case h1 => exact rfl); (case h2 => exact rfl); (case h3 => exact rfl); (case h4 => exact rfl); (case h5 => exact rfl)))
    all_goals (try split))

theorem State.w1cGlob_keeps {s₀ : State} (s : State) (r : GReg) (w : Word) (hk : Keeps s₀ s) : Keeps s₀ (State.w1cGlob s r w) := by
  unfold State.w1cGlob
  iterate 5 (
    all_goals (try ((with_reducible apply Keeps.lit); (case h1 => exact rfl); (case h2 => exact rfl); (case h3 => exact rfl); (case h4 => exact rfl); (case h5 => exact rfl)))
    repeat (first | with_reducible assumption | with_reducible apply State.imonFault_keeps | with_reducible apply Keeps.ite | with_reducible apply Keeps.foldl | intro _)
    all_goals (try dsimp only)
    all_goals (try split))

theorem State.newCycle_keeps {s₀ : State} (s : State) (hk : Keeps s₀ s) : Keeps s₀ (State.newCycle s) := by
  unfold State.newCycle
  iterate 5 (
    all_goals (try ((with_reducible apply Keeps.lit); (case h1 => exact rfl); (case h2 => exact rfl); (case h3 => exact rfl); (case h4 => exact rfl); (case h5 => exact rfl)))
    repeat (first | with_reducible assumption | with_reducible apply State.halves_keeps | with_reducible apply Keeps.ite | with_reducible apply Keeps.foldl | intro _))

theorem State.event_keeps {s₀ : State} (s : State) (src code : Nat) (a b : Word) (hk : Keeps s₀ s) :
    Keeps s₀ (s.event src code a b) := by
  unfold State.event
  dsimp only
  split
  · exact hk.mb _ (fun _ => by simp; omega)
  · split
    · exact hk.mb _ (fun _ => by simp; omega)
    · exact hk.mb _ (fun h => by simpa [bumpLast_length] using h)

theorem State.request_keeps {s₀ : State} (s : State) (r : CairnReq) (hk : Keeps s₀ s) : Keeps s₀ (s.request r) := by
  unfold State.request
  extract_lets y x
  have e : x.queue = s.cairn.queue := by unfold x; split <;> rfl
  clear_value x
  split
  · rename_i h; exact hk.cairnSet _ (fun _ => by simp only [List.length_append, List.length_singleton]; exact h.2.1)
  · exact hk.cairnSet _ (fun h => by simpa only [e] using h)

theorem State.summary_keeps {s₀ : State} (s : State) (src : Fin 69) (code fclass : Nat) (zone : Option Int) (value : Word) (hk : Keeps s₀ s) : Keeps s₀ (State.summary s src code fclass zone value) := by
  unfold State.summary
  iterate 5 (
    all_goals (try ((with_reducible apply Keeps.lit); (case h1 => exact rfl); (case h2 => exact rfl); (case h3 => exact rfl); (case h4 => exact rfl); (case h5 => exact rfl)))
    repeat (first | with_reducible assumption | with_reducible apply State.request_keeps | with_reducible apply Keeps.ite | with_reducible apply Keeps.foldl | intro _))

theorem State.summaryFree_keeps {s₀ : State} (s : State) (src : Fin 69) (value : Word) (hk : Keeps s₀ s) : Keeps s₀ (State.summaryFree s src value) := by
  unfold State.summaryFree
  iterate 5 (
    repeat (first | with_reducible assumption | with_reducible apply State.summary_keeps | with_reducible apply Keeps.ite | with_reducible apply Keeps.foldl | intro _)
    all_goals (try ((with_reducible apply Keeps.lit); (case h1 => exact rfl); (case h2 => exact rfl); (case h3 => exact rfl); (case h4 => exact rfl); (case h5 => exact rfl)))
    repeat (first | with_reducible assumption | with_reducible apply State.summary_keeps | with_reducible apply Keeps.ite | with_reducible apply Keeps.foldl | intro _))

theorem State.snapshotReq_keeps {s₀ : State} (s : State) (c : CtxId) (k : Fin 4) (hk : Keeps s₀ s) : Keeps s₀ (State.snapshotReq s c k) := by
  unfold State.snapshotReq
  iterate 5 (
    repeat (first | with_reducible assumption | with_reducible apply State.request_keeps | with_reducible apply State.modCtx_keeps | with_reducible apply Keeps.ite | with_reducible apply Keeps.foldl | intro _))

theorem State.snapshots_keeps {s₀ : State} (s : State) (c : CtxId) (hk : Keeps s₀ s) : Keeps s₀ (State.snapshots s c) := by
  unfold State.snapshots
  iterate 5 (
    repeat (first | with_reducible assumption | with_reducible apply State.snapshotReq_keeps | with_reducible apply State.modCtx_keeps | with_reducible apply Keeps.ite | with_reducible apply Keeps.foldl | intro _))

theorem State.modSched_keeps {s₀ : State} (s : State) (c : CtxId) (f : Sched → Sched) (hk : Keeps s₀ s) : Keeps s₀ (State.modSched s c f) := by
  unfold State.modSched
  iterate 5 (
    repeat (first | with_reducible assumption | with_reducible apply State.modCtx_keeps | with_reducible apply Keeps.ite | with_reducible apply Keeps.foldl | intro _))

theorem State.endEntry_keeps {s₀ : State} (s : State) (c : CtxId) (e : Event) (hk : Keeps s₀ s) : Keeps s₀ (State.endEntry s c e) := by
  unfold State.endEntry
  iterate 5 (
    repeat (first | with_reducible assumption | with_reducible apply State.event_keeps | with_reducible apply Keeps.ite | with_reducible apply Keeps.foldl | intro _))

theorem State.missEvent_keeps {s₀ : State} (s : State) (c : CtxId) (serial : Nat) (o : EvOutcome) (hk : Keeps s₀ s) : Keeps s₀ (State.missEvent s c serial o) := by
  unfold State.missEvent
  iterate 5 (
    repeat (first | with_reducible assumption | with_reducible apply State.modSched_keeps | with_reducible apply State.summary_keeps | with_reducible apply Keeps.ite | with_reducible apply Keeps.foldl | intro _)
    all_goals (try ((with_reducible apply Keeps.lit); (case h1 => exact rfl); (case h2 => exact rfl); (case h3 => exact rfl); (case h4 => exact rfl); (case h5 => exact rfl)))
    all_goals (try dsimp only)
    all_goals (try split))

theorem State.supersede_keeps {s₀ : State} (s : State) (c : CtxId) (serial : Nat) (hk : Keeps s₀ s) : Keeps s₀ (State.supersede s c serial) := by
  unfold State.supersede
  iterate 5 (
    repeat (first | with_reducible assumption | with_reducible apply State.modSched_keeps | with_reducible apply Keeps.ite | with_reducible apply Keeps.foldl | intro _))

theorem State.flush_keeps {s₀ : State} (s : State) (c : CtxId) (hk : Keeps s₀ s) : Keeps s₀ (State.flush s c) := by
  unfold State.flush
  iterate 5 (
    repeat (first | with_reducible assumption | with_reducible apply State.halves_keeps | with_reducible apply State.modCtx_keeps | with_reducible apply State.endEntry_keeps | with_reducible apply State.modSched_keeps | with_reducible apply Keeps.ite | with_reducible apply Keeps.foldl | intro _)
    all_goals (try ((with_reducible apply Keeps.lit); (case h1 => exact rfl); (case h2 => exact rfl); (case h3 => exact rfl); (case h4 => exact rfl); (case h5 => exact rfl)))
    all_goals (try dsimp only)
    all_goals (try split))

theorem State.traceTrigger_keeps {s₀ : State} (s : State) (c : CtxId) (trig : Nat) (hk : Keeps s₀ s) : Keeps s₀ (State.traceTrigger s c trig) := by
  unfold State.traceTrigger
  iterate 5 (
    repeat (first | with_reducible assumption | with_reducible apply State.modCtx_keeps | with_reducible apply Keeps.ite | with_reducible apply Keeps.foldl | intro _))

theorem State.gateRamp_keeps {s₀ : State} (s : State) (c : CtxId) (hk : Keeps s₀ s) : Keeps s₀ (State.gateRamp s c) := by
  unfold State.gateRamp
  iterate 5 (
    repeat (first | with_reducible assumption | with_reducible apply State.traceTrigger_keeps | with_reducible apply State.modChan_keeps | with_reducible apply Keeps.ite | with_reducible apply Keeps.foldl | intro _)
    all_goals (try ((with_reducible apply Keeps.lit); (case h1 => exact rfl); (case h2 => exact rfl); (case h3 => exact rfl); (case h4 => exact rfl); (case h5 => exact rfl)))
    repeat (first | with_reducible assumption | with_reducible apply State.traceTrigger_keeps | with_reducible apply State.modChan_keeps | with_reducible apply Keeps.ite | with_reducible apply Keeps.foldl | intro _))

theorem State.delayEvent_keeps {s₀ : State} (s : State) (c : CtxId) (n ticks : Nat) (hk : Keeps s₀ s) : Keeps s₀ (State.delayEvent s c n ticks) := by
  unfold State.delayEvent
  iterate 5 (
    repeat (first | with_reducible assumption | with_reducible apply State.modSched_keeps | with_reducible apply Keeps.ite | with_reducible apply Keeps.foldl | intro _))

theorem State.deferFurther_keeps {s₀ : State} (s : State) (c : CtxId) (hk : Keeps s₀ s) : Keeps s₀ (State.deferFurther s c) := by
  unfold State.deferFurther
  iterate 5 (
    repeat (first | with_reducible assumption | with_reducible apply State.gateRamp_keeps | with_reducible apply State.modSched_keeps | with_reducible apply State.event_keeps | with_reducible apply State.modChan_keeps | with_reducible apply Keeps.ite | with_reducible apply Keeps.foldl | intro _)
    all_goals (try ((with_reducible apply Keeps.lit); (case h1 => exact rfl); (case h2 => exact rfl); (case h3 => exact rfl); (case h4 => exact rfl); (case h5 => exact rfl)))
    all_goals (try dsimp only)
    all_goals (try split))

theorem State.deferTo_keeps {s₀ : State} (s : State) (c : CtxId) (ev : Option Nat) (last : Nat) (hk : Keeps s₀ s) : Keeps s₀ (State.deferTo s c ev last) := by
  unfold State.deferTo
  iterate 5 (
    repeat (first | with_reducible assumption | with_reducible apply State.deferFurther_keeps | with_reducible apply State.delayEvent_keeps | with_reducible apply State.event_keeps | with_reducible apply State.modChan_keeps | with_reducible apply Keeps.ite | with_reducible apply Keeps.foldl | intro _)
    all_goals (try ((with_reducible apply Keeps.lit); (case h1 => exact rfl); (case h2 => exact rfl); (case h3 => exact rfl); (case h4 => exact rfl); (case h5 => exact rfl)))
    all_goals (try split))

theorem State.startOrDefer_keeps {s₀ : State} (s : State) (c : CtxId) (ev : Option Nat) (hk : Keeps s₀ s) : Keeps s₀ (State.startOrDefer s c ev) := by
  unfold State.startOrDefer
  iterate 5 (
    repeat (first | with_reducible assumption | with_reducible apply State.gateRamp_keeps | with_reducible apply State.deferTo_keeps | with_reducible apply State.modSched_keeps | with_reducible apply State.event_keeps | with_reducible apply State.modChan_keeps | with_reducible apply Keeps.ite | with_reducible apply Keeps.foldl | intro _)
    all_goals (try ((with_reducible apply Keeps.lit); (case h1 => exact rfl); (case h2 => exact rfl); (case h3 => exact rfl); (case h4 => exact rfl); (case h5 => exact rfl)))
    all_goals (try split))

theorem State.heldStart_keeps {s₀ : State} (s : State) (c : CtxId) (ev : Option Nat) (hk : Keeps s₀ s) : Keeps s₀ (State.heldStart s c ev) := by
  unfold State.heldStart
  iterate 5 (
    repeat (first | with_reducible assumption | with_reducible apply State.startOrDefer_keeps | with_reducible apply State.supersede_keeps | with_reducible apply State.missEvent_keeps | with_reducible apply State.modChan_keeps | with_reducible apply Keeps.ite | with_reducible apply Keeps.foldl | intro _)
    all_goals (try ((with_reducible apply Keeps.lit); (case h1 => exact rfl); (case h2 => exact rfl); (case h3 => exact rfl); (case h4 => exact rfl); (case h5 => exact rfl)))
    all_goals (try split))

theorem State.onCmd_keeps {s₀ : State} (s : State) (c : CtxId) (hk : Keeps s₀ s) : Keeps s₀ (State.onCmd s c) := by
  unfold State.onCmd
  iterate 5 (
    repeat (first | with_reducible assumption | with_reducible apply State.startOrDefer_keeps | with_reducible apply State.modChan_keeps | with_reducible apply Keeps.ite | with_reducible apply Keeps.foldl | intro _)
    all_goals (try ((with_reducible apply Keeps.lit); (case h1 => exact rfl); (case h2 => exact rfl); (case h3 => exact rfl); (case h4 => exact rfl); (case h5 => exact rfl)))
    all_goals (try split))

theorem State.offCmd_keeps {s₀ : State} (s : State) (c : CtxId) (hk : Keeps s₀ s) : Keeps s₀ (State.offCmd s c) := by
  unfold State.offCmd
  iterate 5 (
    repeat (first | with_reducible assumption | with_reducible apply State.traceTrigger_keeps | with_reducible apply State.missEvent_keeps | with_reducible apply State.event_keeps | with_reducible apply State.modChan_keeps | with_reducible apply Keeps.ite | with_reducible apply Keeps.foldl | intro _)
    all_goals (try ((with_reducible apply Keeps.lit); (case h1 => exact rfl); (case h2 => exact rfl); (case h3 => exact rfl); (case h4 => exact rfl); (case h5 => exact rfl)))
    all_goals (try split))

theorem State.chanFault_keeps {s₀ : State} (s : State) (c : CtxId) (k : ChCause) (hk : Keeps s₀ s) : Keeps s₀ (State.chanFault s c k) := by
  unfold State.chanFault
  iterate 5 (
    repeat (first | with_reducible assumption | with_reducible apply State.missEvent_keeps | with_reducible apply State.event_keeps | with_reducible apply State.modChan_keeps | with_reducible apply Keeps.ite | with_reducible apply Keeps.foldl | intro _)
    all_goals (try ((with_reducible apply Keeps.lit); (case h1 => exact rfl); (case h2 => exact rfl); (case h3 => exact rfl); (case h4 => exact rfl); (case h5 => exact rfl)))
    all_goals (try split))

theorem State.raiseCause_keeps {s₀ : State} (s : State) (c : CtxId) (k : ChCause) (hk : Keeps s₀ s) : Keeps s₀ (State.raiseCause s c k) := by
  unfold State.raiseCause
  iterate 5 (
    repeat (first | with_reducible assumption | with_reducible apply State.chanFault_keeps | with_reducible apply State.modChan_keeps | with_reducible apply Keeps.ite | with_reducible apply Keeps.foldl | intro _)
    all_goals (try ((with_reducible apply Keeps.lit); (case h1 => exact rfl); (case h2 => exact rfl); (case h3 => exact rfl); (case h4 => exact rfl); (case h5 => exact rfl)))
    all_goals (try dsimp only)
    all_goals (try split))

theorem State.tripFollow_keeps {s₀ : State} (s : State) (c : CtxId) (hk : Keeps s₀ s) : Keeps s₀ (State.tripFollow s c) := by
  unfold State.tripFollow
  iterate 5 (
    repeat (first | with_reducible assumption | with_reducible apply State.raiseCause_keeps | with_reducible apply State.modChan_keeps | with_reducible apply Keeps.ite | with_reducible apply Keeps.foldl | intro _)
    all_goals (try ((with_reducible apply Keeps.lit); (case h1 => exact rfl); (case h2 => exact rfl); (case h3 => exact rfl); (case h4 => exact rfl); (case h5 => exact rfl)))
    all_goals (try dsimp only)
    all_goals (try split))

theorem State.tryRelease_keeps {s₀ : State} (s : State) (c : CtxId) (hk : Keeps s₀ s) : Keeps s₀ (State.tryRelease s c) := by
  unfold State.tryRelease
  iterate 5 (
    repeat (first | with_reducible assumption | with_reducible apply State.onCmd_keeps | with_reducible apply State.modChan_keeps | with_reducible apply Keeps.ite | with_reducible apply Keeps.foldl | intro _))

theorem State.goto_keeps {s₀ : State} (s : State) (st : DevState) (hk : Keeps s₀ s) : Keeps s₀ (State.goto s st) := by
  unfold State.goto
  iterate 5 (
    repeat (first | with_reducible assumption | with_reducible apply State.event_keeps | with_reducible apply Keeps.ite | with_reducible apply Keeps.foldl | intro _)
    all_goals (try ((with_reducible apply Keeps.lit); (case h1 => exact rfl); (case h2 => exact rfl); (case h3 => exact rfl); (case h4 => exact rfl); (case h5 => exact rfl)))
    repeat (first | with_reducible assumption | with_reducible apply State.event_keeps | with_reducible apply Keeps.ite | with_reducible apply Keeps.foldl | intro _))

theorem State.pgDrop_keeps {s₀ : State} (s : State) (c : CtxId) (hk : Keeps s₀ s) : Keeps s₀ (State.pgDrop s c) := by
  unfold State.pgDrop
  iterate 5 (
    repeat (first | with_reducible assumption | with_reducible apply State.event_keeps | with_reducible apply State.modCtx_keeps | with_reducible apply Keeps.ite | with_reducible apply Keeps.foldl | intro _))

theorem State.parkAll_keeps {s₀ : State} (s : State) (c : CtxId) (hk : Keeps s₀ s) : Keeps s₀ (State.parkAll s c) := by
  unfold State.parkAll
  iterate 5 (
    repeat (first | with_reducible assumption | with_reducible apply State.halves_keeps | with_reducible apply Keeps.ite | with_reducible apply Keeps.foldl | intro _))

theorem State.dropHeld_keeps {s₀ : State} (s : State) (c : CtxId) (hk : Keeps s₀ s) : Keeps s₀ (State.dropHeld s c) := by
  unfold State.dropHeld
  iterate 5 (
    repeat (first | with_reducible assumption | with_reducible apply State.halves_keeps | with_reducible apply Keeps.ite | with_reducible apply Keeps.foldl | intro _))

theorem State.stopReg_keeps {s₀ : State} (s : State) (c : CtxId) (hk : Keeps s₀ s) : Keeps s₀ (State.stopReg s c) := by
  unfold State.stopReg
  iterate 5 (
    repeat (first | with_reducible assumption | with_reducible apply State.dropHeld_keeps | with_reducible apply State.parkAll_keeps | with_reducible apply State.pgDrop_keeps | with_reducible apply State.flush_keeps | with_reducible apply State.modCtx_keeps | with_reducible apply Keeps.ite | with_reducible apply Keeps.foldl | intro _))

theorem State.forceCtx_keeps {s₀ : State} (s : State) (c : CtxId) (hk : Keeps s₀ s) : Keeps s₀ (State.forceCtx s c) := by
  unfold State.forceCtx
  iterate 5 (
    all_goals (try ((with_reducible apply Keeps.lit); (case h1 => exact rfl); (case h2 => exact rfl); (case h3 => exact rfl); (case h4 => exact rfl); (case h5 => exact rfl)))
    repeat (first | with_reducible assumption | with_reducible apply Keeps.ite | with_reducible apply Keeps.foldl | intro _))

theorem State.flushAll_keeps {s₀ : State} (s : State) (hk : Keeps s₀ s) : Keeps s₀ (State.flushAll s) := by
  unfold State.flushAll
  iterate 5 (
    repeat (first | with_reducible assumption | with_reducible apply State.flush_keeps | with_reducible apply Keeps.ite | with_reducible apply Keeps.foldl | intro _))

theorem State.stopRails_keeps {s₀ : State} (s : State) (hk : Keeps s₀ s) : Keeps s₀ (State.stopRails s) := by
  unfold State.stopRails
  iterate 5 (
    repeat (first | with_reducible assumption | with_reducible apply State.stopReg_keeps | with_reducible apply State.offCmd_keeps | with_reducible apply Keeps.ite | with_reducible apply Keeps.foldl | intro _))

theorem State.safeInputStep_keeps {s₀ : State} (s : State) (hk : Keeps s₀ s) : Keeps s₀ (State.safeInputStep s) := by
  unfold State.safeInputStep
  iterate 5 (
    repeat (first | with_reducible assumption | with_reducible apply State.offCmd_keeps | with_reducible apply Keeps.ite | with_reducible apply Keeps.foldl | intro _))

theorem State.applySafe_keeps {s₀ : State} (s : State) (hk : Keeps s₀ s) : Keeps s₀ (State.applySafe s) := by
  unfold State.applySafe
  iterate 5 (
    repeat (first | with_reducible assumption | with_reducible apply State.safeInputStep_keeps | with_reducible apply State.stopRails_keeps | with_reducible apply State.flushAll_keeps | with_reducible apply Keeps.ite | with_reducible apply Keeps.foldl | intro _)
    all_goals (try ((with_reducible apply Keeps.lit); (case h1 => exact rfl); (case h2 => exact rfl); (case h3 => exact rfl); (case h4 => exact rfl); (case h5 => exact rfl)))
    repeat (first | with_reducible assumption | with_reducible apply State.safeInputStep_keeps | with_reducible apply State.stopRails_keeps | with_reducible apply State.flushAll_keeps | with_reducible apply Keeps.ite | with_reducible apply Keeps.foldl | intro _))

theorem State.enterSafe_keeps {s₀ : State} (s : State) (hk : Keeps s₀ s) : Keeps s₀ (State.enterSafe s) := by
  unfold State.enterSafe
  iterate 5 (
    repeat (first | with_reducible assumption | with_reducible apply State.applySafe_keeps | with_reducible apply State.goto_keeps | with_reducible apply Keeps.ite | with_reducible apply Keeps.foldl | intro _))

theorem State.safeTrigger_keeps {s₀ : State} (s : State) (k : SafeCause) (hk : Keeps s₀ s) : Keeps s₀ (State.safeTrigger s k) := by
  unfold State.safeTrigger
  iterate 5 (
    repeat (first | with_reducible assumption | with_reducible apply State.enterSafe_keeps | with_reducible apply State.move_keeps | with_reducible apply Keeps.ite | with_reducible apply Keeps.foldl | intro _)
    all_goals (try ((with_reducible apply Keeps.lit); (case h1 => exact rfl); (case h2 => exact rfl); (case h3 => exact rfl); (case h4 => exact rfl); (case h5 => exact rfl)))
    repeat (first | with_reducible assumption | with_reducible apply State.enterSafe_keeps | with_reducible apply State.move_keeps | with_reducible apply Keeps.ite | with_reducible apply Keeps.foldl | intro _))

theorem State.latchCtx_keeps {s₀ : State} (s : State) (c : CtxId) (hk : Keeps s₀ s) : Keeps s₀ (State.latchCtx s c) := by
  unfold State.latchCtx
  iterate 5 (
    repeat (first | with_reducible assumption | with_reducible apply State.safeTrigger_keeps | with_reducible apply State.forceCtx_keeps | with_reducible apply State.stopReg_keeps | with_reducible apply State.parkAll_keeps | with_reducible apply State.offCmd_keeps | with_reducible apply State.modCtx_keeps | with_reducible apply Keeps.ite | with_reducible apply Keeps.foldl | intro _))

theorem State.declareFlag_keeps {s₀ : State} (s : State) (c : CtxId) (k : FClass) (hk : Keeps s₀ s) : Keeps s₀ (State.declareFlag s c k) := by
  unfold State.declareFlag
  iterate 5 (
    repeat (first | with_reducible assumption | with_reducible apply State.pgDrop_keeps | with_reducible apply State.traceTrigger_keeps | with_reducible apply State.snapshots_keeps | with_reducible apply State.summary_keeps | with_reducible apply State.event_keeps | with_reducible apply State.modCtx_keeps | with_reducible apply Keeps.ite | with_reducible apply Keeps.foldl | intro _))

theorem State.retryCtx_keeps {s₀ : State} (s : State) (c : CtxId) (hk : Keeps s₀ s) : Keeps s₀ (State.retryCtx s c) := by
  unfold State.retryCtx
  iterate 5 (
    repeat (first | with_reducible assumption | with_reducible apply State.latchCtx_keeps | with_reducible apply State.modCtx_keeps | with_reducible apply Keeps.ite | with_reducible apply Keeps.foldl | intro _))

theorem State.takeRelease_keeps {s₀ : State} (s : State) (h : HalfId) (hk : Keeps s₀ s) : Keeps s₀ (State.takeRelease s h) := by
  unfold State.takeRelease
  iterate 5 (
    all_goals (try ((with_reducible apply Keeps.lit); (case h1 => exact rfl); (case h2 => exact rfl); (case h3 => exact rfl); (case h4 => exact rfl); (case h5 => exact rfl)))
    repeat (first | with_reducible assumption | with_reducible apply State.modHs_keeps | with_reducible apply Keeps.ite | with_reducible apply Keeps.foldl | intro _))

theorem State.failoverCtx_keeps {s₀ : State} (s : State) (c : CtxId) (k : FClass) (hk : Keeps s₀ s) : Keeps s₀ (State.failoverCtx s c k) := by
  unfold State.failoverCtx
  iterate 5 (
    repeat (first | with_reducible assumption | with_reducible apply State.takeRelease_keeps | with_reducible apply State.latchCtx_keeps | with_reducible apply State.modCtx_keeps | with_reducible apply Keeps.ite | with_reducible apply Keeps.foldl | intro _)
    all_goals (try ((with_reducible apply Keeps.lit); (case h1 => exact rfl); (case h2 => exact rfl); (case h3 => exact rfl); (case h4 => exact rfl); (case h5 => exact rfl)))
    all_goals (try dsimp only)
    all_goals (try split))

theorem State.setLast_keeps {s₀ : State} (s : State) (c : CtxId) (k : FClass) (hk : Keeps s₀ s) : Keeps s₀ (State.setLast s c k) := by
  unfold State.setLast
  iterate 5 (
    repeat (first | with_reducible assumption | with_reducible apply State.modCtx_keeps | with_reducible apply Keeps.ite | with_reducible apply Keeps.foldl | intro _))

theorem State.actCtx_keeps {s₀ : State} (s : State) (c : CtxId) (k : FClass) (hk : Keeps s₀ s) : Keeps s₀ (State.actCtx s c k) := by
  unfold State.actCtx
  iterate 5 (
    repeat (first | with_reducible assumption | with_reducible apply State.setLast_keeps | with_reducible apply State.failoverCtx_keeps | with_reducible apply State.retryCtx_keeps | with_reducible apply State.latchCtx_keeps | with_reducible apply Keeps.ite | with_reducible apply Keeps.foldl | intro _)
    all_goals (try ((with_reducible apply Keeps.lit); (case h1 => exact rfl); (case h2 => exact rfl); (case h3 => exact rfl); (case h4 => exact rfl); (case h5 => exact rfl)))
    all_goals (try split))

theorem State.declareCtx_keeps {s₀ : State} (s : State) (c : CtxId) (ks : List FClass) (hk : Keeps s₀ s) : Keeps s₀ (State.declareCtx s c ks) := by
  unfold State.declareCtx
  iterate 5 (
    repeat (first | with_reducible assumption | with_reducible apply State.actCtx_keeps | with_reducible apply State.declareFlag_keeps | with_reducible apply Keeps.ite | with_reducible apply Keeps.foldl | intro _)
    all_goals (try ((with_reducible apply Keeps.lit); (case h1 => exact rfl); (case h2 => exact rfl); (case h3 => exact rfl); (case h4 => exact rfl); (case h5 => exact rfl)))
    all_goals (try split))

theorem State.declareChan_keeps {s₀ : State} (s : State) (c : CtxId) (k : FClass) (hk : Keeps s₀ s) : Keeps s₀ (State.declareChan s c k) := by
  unfold State.declareChan
  iterate 5 (
    repeat (first | with_reducible assumption | with_reducible apply State.setLast_keeps | with_reducible apply State.declareFlag_keeps | with_reducible apply State.safeTrigger_keeps | with_reducible apply State.tryRelease_keeps | with_reducible apply State.chanFault_keeps | with_reducible apply State.modChan_keeps | with_reducible apply State.modCtx_keeps | with_reducible apply Keeps.ite | with_reducible apply Keeps.foldl | intro _)
    all_goals (try ((with_reducible apply Keeps.lit); (case h1 => exact rfl); (case h2 => exact rfl); (case h3 => exact rfl); (case h4 => exact rfl); (case h5 => exact rfl)))
    all_goals (try dsimp only)
    all_goals (try split))

theorem State.imonFault_keeps {s₀ : State} (s : State) (p : PhaseId) (hk : Keeps s₀ s) : Keeps s₀ (State.imonFault s p) := by
  unfold State.imonFault
  iterate 5 (
    repeat (first | with_reducible assumption | with_reducible apply State.declareCtx_keeps | with_reducible apply State.modPh_keeps | with_reducible apply State.modCtx_keeps | with_reducible apply Keeps.ite | with_reducible apply Keeps.foldl | intro _))

theorem State.releasedEvent_keeps {s₀ : State} (s : State) (c : CtxId) (k : FClass) (hk : Keeps s₀ s) : Keeps s₀ (State.releasedEvent s c k) := by
  unfold State.releasedEvent
  iterate 5 (
    repeat (first | with_reducible assumption | with_reducible apply State.event_keeps | with_reducible apply Keeps.ite | with_reducible apply Keeps.foldl | intro _))

theorem State.calEnd_keeps {s₀ : State} (s : State) (code : Nat) (hk : Keeps s₀ s) : Keeps s₀ (State.calEnd s code) := by
  unfold State.calEnd
  iterate 5 (
    repeat (first | with_reducible assumption | with_reducible apply State.event_keeps | with_reducible apply Keeps.ite | with_reducible apply Keeps.foldl | intro _)
    all_goals (try ((with_reducible apply Keeps.lit); (case h1 => exact rfl); (case h2 => exact rfl); (case h3 => exact rfl); (case h4 => exact rfl); (case h5 => exact rfl)))
    repeat (first | with_reducible assumption | with_reducible apply State.event_keeps | with_reducible apply Keeps.ite | with_reducible apply Keeps.foldl | intro _))

theorem State.calSample_keeps {s₀ : State} (s : State) (t : CalTarget) (code : Int) (hk : Keeps s₀ s) : Keeps s₀ (State.calSample s t code) := by
  unfold State.calSample
  iterate 5 (
    repeat (first | with_reducible assumption | with_reducible apply State.calEnd_keeps | with_reducible apply Keeps.ite | with_reducible apply Keeps.foldl | intro _)
    all_goals (try ((with_reducible apply Keeps.lit); (case h1 => exact rfl); (case h2 => exact rfl); (case h3 => exact rfl); (case h4 => exact rfl); (case h5 => exact rfl)))
    repeat (first | with_reducible assumption | with_reducible apply State.calEnd_keeps | with_reducible apply Keeps.ite | with_reducible apply Keeps.foldl | intro _))

theorem State.loseElig_keeps {s₀ : State} (s : State) (h : HalfId) (f : HalfS → HalfS) (hk : Keeps s₀ s) : Keeps s₀ (State.loseElig s h f) := by
  unfold State.loseElig
  iterate 5 (
    repeat (first | with_reducible assumption | with_reducible apply State.modHs_keeps | with_reducible apply Keeps.ite | with_reducible apply Keeps.foldl | intro _))

theorem State.retire_keeps {s₀ : State} (s : State) (h : HalfId) (hk : Keeps s₀ s) : Keeps s₀ (State.retire s h) := by
  unfold State.retire
  iterate 5 (
    repeat (first | with_reducible assumption | with_reducible apply State.loseElig_keeps | with_reducible apply State.summary_keeps | with_reducible apply State.event_keeps | with_reducible apply Keeps.ite | with_reducible apply Keeps.foldl | intro _))

theorem State.attribError_keeps {s₀ : State} (s : State) (h : HalfId) (f : HalfS → HalfS) (hk : Keeps s₀ s) : Keeps s₀ (State.attribError s h f) := by
  unfold State.attribError
  iterate 5 (
    repeat (first | with_reducible assumption | with_reducible apply State.retire_keeps | with_reducible apply State.loseElig_keeps | with_reducible apply Keeps.ite | with_reducible apply Keeps.foldl | intro _))

theorem State.residueError_keeps {s₀ : State} (s : State) (h : HalfId) (c : CtxId) (hk : Keeps s₀ s) : Keeps s₀ (State.residueError s h c) := by
  unfold State.residueError
  iterate 5 (
    repeat (first | with_reducible assumption | with_reducible apply State.attribError_keeps | with_reducible apply State.setLast_keeps | with_reducible apply State.declareFlag_keeps | with_reducible apply Keeps.ite | with_reducible apply Keeps.foldl | intro _))

theorem State.signalResidue_keeps {s₀ : State} (t s : State) (c : CtxId) (hk : Keeps s₀ s) : Keeps s₀ (State.signalResidue t s c) := by
  have k1 : Keeps s₀ (if t.east.cell[c].residueErrors < s.east.cell[c].residueErrors then s.residueError .east c else s) :=
    Keeps.ite (State.residueError_keeps _ _ _ hk) hk
  exact Keeps.ite (State.residueError_keeps _ _ _ k1) k1

theorem State.countCorr_keeps {s₀ : State} (s : State) (h : HalfId) (c : CtxId) (hk : Keeps s₀ s) : Keeps s₀ (State.countCorr s h c) := by
  unfold State.countCorr
  iterate 5 (
    repeat (first | with_reducible assumption | with_reducible apply State.modHs_keeps | with_reducible apply State.modCtx_keeps | with_reducible apply Keeps.ite | with_reducible apply Keeps.foldl | intro _))

theorem State.bcast_keeps {s₀ : State} (s : State) (c : CtxId) (e : BcastErr) (hk : Keeps s₀ s) : Keeps s₀ (State.bcast s c e) := by
  have k1 : Keeps s₀ (if e.east = .single then s.countCorr .east c else s) := Keeps.ite (State.countCorr_keeps s _ _ hk) hk
  unfold State.bcast
  extract_lets s1 s2
  have k2 : Keeps s₀ s2 := Keeps.ite (State.countCorr_keeps s1 _ _ k1) k1
  clear_value s2
  split
  · exact State.summaryFree_keeps _ _ _ (k2.same rfl rfl rfl rfl rfl)
  · exact State.residueError_keeps _ _ _ k2
  · exact State.residueError_keeps _ _ _ k2
  · exact k2

theorem State.toPorts_keeps {s₀ : State} (s : State) (c : CtxId) (e : BcastErr) (f : Cell → Cell) (hk : Keeps s₀ s) : Keeps s₀ (State.toPorts s c e f) := by
  unfold State.toPorts
  iterate 5 (
    all_goals (try ((with_reducible apply Keeps.lit); (case h1 => exact rfl); (case h2 => exact rfl); (case h3 => exact rfl); (case h4 => exact rfl); (case h5 => exact rfl)))
    repeat (first | with_reducible assumption | with_reducible apply Keeps.ite | with_reducible apply Keeps.foldl | intro _))

theorem State.keepStopped_keeps {s₀ : State} (before s : State) (hk : Keeps s₀ s) : Keeps s₀ (State.keepStopped before s) := by
  unfold State.keepStopped
  dsimp only
  split <;> split <;> exact hk.same rfl rfl rfl rfl rfl

theorem State.capRead_keeps {s₀ : State} (s : State) (c : CtxId) (a : Nat) (hk : Keeps s₀ s) : Keeps s₀ (State.capRead s c a).1 := by
  unfold State.capRead
  iterate 5 (
    repeat (first | with_reducible assumption | with_reducible apply State.modCtx_keeps | with_reducible apply Keeps.ite | with_reducible apply Keeps.foldl | intro _)
    all_goals (try ((with_reducible apply Keeps.lit); (case h1 => exact rfl); (case h2 => exact rfl); (case h3 => exact rfl); (case h4 => exact rfl); (case h5 => exact rfl)))
    all_goals (try dsimp only)
    all_goals (try split))

theorem State.capReads_keeps {s₀ : State} (s : State) (c : CtxId) (l : List Nat) (hk : Keeps s₀ s) : Keeps s₀ (State.capReads s c l).1 := by
  induction l generalizing s with
  | nil => exact hk
  | cons a l ih => exact ih _ (State.capRead_keeps s c a hk)

theorem State.storeTo_keeps {s₀ : State} (s : State) (x : Store) (hk : Keeps s₀ s)
    (hx : Memory.wf (0xFF : Byte) s.nv.mem = true → Memory.wf (0xFF : Byte) x.mem = true) : Keeps s₀ (s.storeTo x) := by
  have h : Keeps s₀ { s with nv := x } := hk.nv x hx
  unfold State.storeTo
  dsimp only
  split
  · exact State.event_keeps _ _ _ _ _ (Keeps.foldl h (fun _ _ h => State.summary_keeps _ _ _ _ _ _ (State.event_keeps _ _ _ _ _ h)) _)
  · exact Keeps.foldl h (fun _ _ h => State.summary_keeps _ _ _ _ _ _ (State.event_keeps _ _ _ _ _ h)) _

theorem State.reclaim_keeps {s₀ : State} (s : State) (a : Area) (hk : Keeps s₀ s) : Keeps s₀ (State.reclaim s a) :=
  State.storeTo_keeps _ _ hk (Store.reclaim_wf _ _ _)

theorem State.makeRoom_keeps {s₀ : State} (s : State) (a : Area) (hk : Keeps s₀ s) : Keeps s₀ (State.makeRoom s a) :=
  State.storeTo_keeps _ _ hk (Store.makeRoom_wf _ _ _ _)

theorem State.eraseAhead_keeps {s₀ : State} (s : State) (a : Area) (n : Nat) (hk : Keeps s₀ s) : Keeps s₀ (State.eraseAhead s a n) :=
  State.storeTo_keeps _ _ hk (Store.eraseAhead_wf _ _ _ _ _)

theorem State.putRecord_keeps {s₀ : State} (s : State) (a : Area) (typ ident len : Nat) (payload : List Byte) (hk : Keeps s₀ s) :
    Keeps s₀ (State.putRecord s a typ ident len payload) :=
  State.storeTo_keeps _ _ (State.makeRoom_keeps s a hk) (Store.append_wf _ _ _ _ _)

theorem State.putBp_keeps {s₀ : State} (s : State) (hk : Keeps s₀ s) : Keeps s₀ (State.putBp s) := by
  unfold State.putBp
  iterate 5 (
    repeat (first | with_reducible assumption | with_reducible apply State.putRecord_keeps | with_reducible apply Keeps.ite | with_reducible apply Keeps.foldl | intro _))

theorem State.ringWords_keeps {s₀ : State} (s : State) (c : CtxId) (k : Nat) (hk : Keeps s₀ s) : Keeps s₀ (State.ringWords s c k).1 :=
  State.capReads_keeps _ _ _ hk

theorem State.snapshotPayload_keeps {s₀ : State} (s : State) (c : CtxId) (k : Nat) (hk : Keeps s₀ s) : Keeps s₀ (State.snapshotPayload s c k).1 := by
  have h := State.ringWords_keeps s c k hk
  delta State.snapshotPayload
  dsimp only
  exact h

theorem State.cairnPut_keeps {s₀ : State} (s : State) (typ ident len : Nat) (payload : List Byte) (hk : Keeps s₀ s) :
    Keeps s₀ (State.cairnPut s typ ident len payload) := by
  unfold State.cairnPut
  exact (State.storeTo_keeps _ _ hk (Store.putCairn_wf _ _)).same rfl rfl rfl rfl rfl

theorem State.respond_keeps {s₀ : State} (s : State) (r : Req) (answer detail : Nat) (data : List Word) (hk : Keeps s₀ s) :
    Keeps s₀ (s.respond r answer detail data) := hk.same rfl rfl rfl (Mbox.modSlot_events_same _ _ _) rfl

theorem State.cml_keeps {s₀ : State} (s : State) (k : Nat) (hk : Keeps s₀ s) : Keeps s₀ (State.cml s k) := by
  unfold State.cml
  iterate 5 (
    all_goals (try ((with_reducible apply Keeps.lit); (case h1 => exact rfl); (case h2 => exact rfl); (case h3 => exact rfl); (case h4 => exact rfl); (case h5 => exact rfl)))
    repeat (first | with_reducible assumption | with_reducible apply Keeps.ite | with_reducible apply Keeps.foldl | intro _))

theorem State.pmbRefuse_keeps {s₀ : State} (s : State) (code answer : Nat) (hk : Keeps s₀ s) : Keeps s₀ (State.pmbRefuse s code answer) := by
  unfold State.pmbRefuse
  iterate 5 (
    all_goals (try ((with_reducible apply Keeps.lit); (case h1 => exact rfl); (case h2 => exact rfl); (case h3 => exact rfl); (case h4 => exact rfl); (case h5 => exact rfl)))
    repeat (first | with_reducible assumption | with_reducible apply State.cml_keeps | with_reducible apply Keeps.ite | with_reducible apply Keeps.foldl | intro _))

theorem State.interrupt_keeps {s₀ : State} (s : State) (hk : Keeps s₀ s) : Keeps s₀ (State.interrupt s) := by
  unfold State.interrupt
  extract_lets l js x1 x2 s1 s2
  have k1 : Keeps s₀ s1 := hk.same rfl rfl rfl rfl rfl
  have k2 : Keeps s₀ s2 := Keeps.foldl k1 (fun t j h => State.pmbRefuse_keeps _ _ _ h) _
  clear_value s2
  exact Keeps.foldl k2 (fun t r h => Keeps.ite h (State.respond_keeps _ _ _ _ _ h)) _

theorem State.tallySub_keeps {s₀ : State} (s : State) (a : Fin 128) (v : Int) (hk : Keeps s₀ s) : Keeps s₀ (State.tallySub s a v) := by
  unfold State.tallySub
  iterate 5 (
    repeat (first | with_reducible assumption | with_reducible apply State.halves_keeps | with_reducible apply State.modCtx_keeps | with_reducible apply Keeps.ite | with_reducible apply Keeps.foldl | intro _))

theorem State.takeCounts_keeps {s₀ : State} (s : State) (hk : Keeps s₀ s) : Keeps s₀ (State.takeCounts s) := by
  unfold State.takeCounts
  iterate 5 (
    all_goals (try ((with_reducible apply Keeps.lit); (case h1 => exact rfl); (case h2 => exact rfl); (case h3 => exact rfl); (case h4 => exact rfl); (case h5 => exact rfl)))
    repeat (first | with_reducible assumption | with_reducible apply State.halves_keeps | with_reducible apply Keeps.ite | with_reducible apply Keeps.foldl | intro _))

theorem State.queueEntries_keeps {s₀ : State} (s : State) (hk : Keeps s₀ s) : Keeps s₀ (State.queueEntries s) := by
  unfold State.queueEntries
  iterate 5 (
    all_goals (try ((with_reducible apply Keeps.lit); (case h1 => exact rfl); (case h2 => exact rfl); (case h3 => exact rfl); (case h4 => exact rfl); (case h5 => exact rfl)))
    repeat (first | with_reducible assumption | with_reducible apply Keeps.ite | with_reducible apply Keeps.foldl | intro _))

theorem State.await_keeps {s₀ : State} (s : State) (r : Routine) (hk : Keeps s₀ s) : Keeps s₀ (State.await s r) := by
  unfold State.await
  exact hk.nv _ (fun h => by unfold Store.await; split <;> exact h)

theorem State.take_keeps {s₀ : State} (s : State) (hk : Keeps s₀ s) : Keeps s₀ (State.take s) := by
  unfold State.take
  iterate 5 (
    repeat (first | with_reducible assumption | with_reducible apply State.await_keeps | with_reducible apply State.takeCounts_keeps | with_reducible apply Keeps.ite | with_reducible apply Keeps.foldl | intro _))

theorem State.programEntry_keeps {s₀ : State} (s : State) (a : Fin 128) (hk : Keeps s₀ s) : Keeps s₀ (s.programEntry a) := by
  have k (w : Store) (l : Ledger) (hw : Memory.wf (0xFF : Byte) s.nv.mem = true → Memory.wf (0xFF : Byte) w.mem = true) :
      Keeps s₀ { s with nv := w, led := l } := hk.trans ⟨rfl, Nat.le_refl _, hw, id, id⟩
  unfold State.programEntry
  extract_lets v b more l1 s1 s2
  have k1 : Keeps s₀ s1 := k _ _ (fun h => Store.putTally_wf _ _ _ _ _ h)
  have k2 : Keeps s₀ s2 := Keeps.ite (State.modCtx_keeps _ _ _ k1) k1
  split
  · exact hk
  · exact State.commit_keeps _ _ _ (Keeps.ite k2 (State.modCtx_keeps _ _ _ k2))

theorem State.workDone_keeps {s₀ : State} (s : State) (hk : Keeps s₀ s) : Keeps s₀ (State.workDone s) := by
  unfold State.workDone
  iterate 5 (
    all_goals (try ((with_reducible apply Keeps.lit); (case h1 => exact rfl); (case h2 => exact rfl); (case h3 => exact rfl); (case h4 => exact rfl); (case h5 => exact rfl)))
    repeat (first | with_reducible assumption | with_reducible apply Keeps.ite | with_reducible apply Keeps.foldl | intro _))

theorem State.tallyRoom_keeps {s₀ : State} (s : State) (hk : Keeps s₀ s) : Keeps s₀ (State.tallyRoom s) := by
  unfold State.tallyRoom
  split
  · exact State.storeTo_keeps _ _ hk id
  · exact hk

theorem State.consolidate_keeps {s₀ : State} (s : State) (hk : Keeps s₀ s) : Keeps s₀ s.consolidate :=
  Keeps.foldl (Keeps.foldl hk (fun _ _ h => State.putRecord_keeps _ _ _ _ _ _ h) _)
    (fun _ _ h => Keeps.ite (State.storeTo_keeps _ _ h (Store.eraseBlock_wf _ _)) h) _

theorem State.openItem_keeps {s₀ : State} (s : State) (kind field run : Nat) (raw : List Byte) (lost : Nat) (hk : Keeps s₀ s) :
    Keeps s₀ (s.openItem kind field run raw lost) := by
  unfold State.openItem
  extract_lets b l1 s1
  have k1 : Keeps s₀ s1 := by
    unfold s1
    split <;> exact hk.same rfl rfl rfl rfl rfl
  clear_value s1
  split
  · exact State.event_keeps _ _ _ _ _ (State.putRecord_keeps _ _ _ _ _ _ (k1.same rfl rfl rfl rfl rfl))
  · exact State.request_keeps _ _ (k1.same rfl rfl rfl rfl rfl)

theorem State.recordDone_keeps {s₀ : State} (s : State) (typ ident : Nat) (b : List Byte) (hk : Keeps s₀ s) :
    Keeps s₀ (s.recordDone typ ident b) := by
  unfold State.recordDone
  split
  · split
    · exact State.modCtx_keeps _ _ _ hk
    · exact hk
  · split
    · extract_lets k raw acc cls v tseq s1
      split
      ·
        have k1 : Keeps s₀ s1 := State.tallyRoom_keeps _ (Keeps.ite (State.consolidate_keeps _ hk) hk)
        clear_value s1
        exact State.modCtx_keeps _ _ _ (k1.trans ⟨rfl, Nat.le_refl _, Store.putTally_wf _ _ _ _ _, id, id⟩)
      · exact hk.same rfl rfl rfl rfl rfl
    · exact hk
  · split
    · exact hk.same rfl rfl rfl rfl rfl
    · exact hk
  · exact hk

theorem State.startHost_keeps {s₀ : State} (s : State) (recs : List (Nat × Nat × List Byte)) (reply : Option Req) (hk : Keeps s₀ s) : Keeps s₀ (State.startHost s recs reply) := by
  unfold State.startHost
  iterate 5 (
    all_goals (try ((with_reducible apply Keeps.lit); (case h1 => exact rfl); (case h2 => exact rfl); (case h3 => exact rfl); (case h4 => exact rfl); (case h5 => exact rfl)))
    repeat (first | with_reducible assumption | with_reducible apply Keeps.ite | with_reducible apply Keeps.foldl | intro _))

theorem State.resolve_keeps {s₀ : State} (s : State) (w : Word) (reply : Option Req) (hk : Keeps s₀ s) : Keeps s₀ (State.resolve s w reply) := by
  unfold State.resolve
  iterate 5 (
    all_goals (try ((with_reducible apply Keeps.lit); (case h1 => exact rfl); (case h2 => exact rfl); (case h3 => exact rfl); (case h4 => exact rfl); (case h5 => exact rfl)))
    repeat (first | with_reducible assumption | with_reducible apply State.commit_keeps | with_reducible apply Keeps.ite | with_reducible apply Keeps.foldl | intro _)
    all_goals (try dsimp only)
    all_goals (try split))

theorem Mbox.release_events (m : Mbox) (q : Option Req) : (m.release q).events = m.events := by
  unfold Mbox.release
  split
  · rfl
  · exact Mbox.modSlot_events_same _ _ _

theorem State.resolveApply_keeps {s₀ : State} (s : State) (it : Fin 32) (add : Bool) (hk : Keeps s₀ s) : Keeps s₀ (State.resolveApply s it add) := by
  unfold State.resolveApply
  split
  · split
    · exact hk.same rfl rfl rfl rfl rfl
    · extract_lets r t
      have k1 : Keeps s₀ t := State.request_keeps _ _ hk
      clear_value t
      split
      · exact k1.same rfl rfl rfl (Mbox.release_events _ _) rfl
      · exact k1
  · exact hk

theorem State.freeItem_keeps {s₀ : State} (s : State) (it : Fin 32) (hk : Keeps s₀ s) : Keeps s₀ (State.freeItem s it) := by
  unfold State.freeItem
  iterate 5 (
    all_goals (try ((with_reducible apply Keeps.lit); (case h1 => exact rfl); (case h2 => exact rfl); (case h3 => exact rfl); (case h4 => exact rfl); (case h5 => exact rfl)))
    repeat (first | with_reducible assumption | with_reducible apply Keeps.ite | with_reducible apply Keeps.foldl | intro _)
    all_goals (try dsimp only)
    all_goals (try split))

theorem State.markClr_keeps {s₀ : State} (s : State) (w : Word) (reply : Option Req) (hk : Keeps s₀ s) : Keeps s₀ (State.markClr s w reply) := by
  unfold State.markClr
  iterate 5 (
    repeat (first | with_reducible assumption | with_reducible apply State.startHost_keeps | with_reducible apply Keeps.ite | with_reducible apply Keeps.foldl | intro _)
    all_goals (try ((with_reducible apply Keeps.lit); (case h1 => exact rfl); (case h2 => exact rfl); (case h3 => exact rfl); (case h4 => exact rfl); (case h5 => exact rfl)))
    repeat (first | with_reducible assumption | with_reducible apply State.startHost_keeps | with_reducible apply Keeps.ite | with_reducible apply Keeps.foldl | intro _))

theorem State.setNew_keeps {s₀ : State} (s : State) (c : CtxId) (p : CP) (v : Int) (hk : Keeps s₀ s) : Keeps s₀ (State.setNew s c p v) := by
  unfold State.setNew
  iterate 5 (
    repeat (first | with_reducible assumption | with_reducible apply State.modCtx_keeps | with_reducible apply Keeps.ite | with_reducible apply Keeps.foldl | intro _))

theorem State.setPhNew_keeps {s₀ : State} (s : State) (p : PhaseId) (e : PP) (v : Int) (hk : Keeps s₀ s) : Keeps s₀ (State.setPhNew s p e v) := by
  unfold State.setPhNew
  iterate 5 (
    repeat (first | with_reducible assumption | with_reducible apply State.modPh_keeps | with_reducible apply Keeps.ite | with_reducible apply Keeps.foldl | intro _))

theorem State.setGlobNew_keeps {s₀ : State} (s : State) (g : GP) (v : Int) (hk : Keeps s₀ s) : Keeps s₀ (State.setGlobNew s g v) := by
  unfold State.setGlobNew
  iterate 5 (
    all_goals (try ((with_reducible apply Keeps.lit); (case h1 => exact rfl); (case h2 => exact rfl); (case h3 => exact rfl); (case h4 => exact rfl); (case h5 => exact rfl)))
    repeat (first | with_reducible assumption | with_reducible apply Keeps.ite | with_reducible apply Keeps.foldl | intro _))

theorem State.acceptCtx_keeps {s₀ : State} (s : State) (c : CtxId) (p : CP) (w : Word) (hk : Keeps s₀ s) : Keeps s₀ (State.acceptCtx s c p w) := by
  unfold State.acceptCtx
  iterate 5 (
    repeat (first | with_reducible assumption | with_reducible apply State.setNew_keeps | with_reducible apply State.commit_keeps | with_reducible apply Keeps.ite | with_reducible apply Keeps.foldl | intro _))

theorem State.acceptGlob_keeps {s₀ : State} (s : State) (g : GP) (v : Int) (hk : Keeps s₀ s) : Keeps s₀ (State.acceptGlob s g v) := by
  unfold State.acceptGlob
  iterate 5 (
    repeat (first | with_reducible assumption | with_reducible apply State.setGlobNew_keeps | with_reducible apply State.commit_keeps | with_reducible apply Keeps.ite | with_reducible apply Keeps.foldl | intro _)
    all_goals (try ((with_reducible apply Keeps.lit); (case h1 => exact rfl); (case h2 => exact rfl); (case h3 => exact rfl); (case h4 => exact rfl); (case h5 => exact rfl)))
    all_goals (try split))

theorem State.acceptLaw_keeps {s₀ : State} (s : State) (c : CtxId) (w : Word) (hk : Keeps s₀ s) : Keeps s₀ (State.acceptLaw s c w) := by
  unfold State.acceptLaw
  iterate 5 (
    repeat (first | with_reducible assumption | with_reducible apply State.commit_keeps | with_reducible apply State.modCtx_keeps | with_reducible apply Keeps.ite | with_reducible apply Keeps.foldl | intro _))

theorem State.acceptCReg_keeps {s₀ : State} (s : State) (i : Iface) (c : CtxId) (r : CReg) (w : Word) (hk : Keeps s₀ s) : Keeps s₀ (State.acceptCReg s i c r w) := by
  unfold State.acceptCReg
  iterate 5 (
    repeat (first | with_reducible assumption | with_reducible apply State.acceptLaw_keeps | with_reducible apply State.w1cCtx_keeps | with_reducible apply State.commit_keeps | with_reducible apply State.modCtx_keeps | with_reducible apply Keeps.ite | with_reducible apply Keeps.foldl | intro _)
    all_goals (try ((with_reducible apply Keeps.lit); (case h1 => exact rfl); (case h2 => exact rfl); (case h3 => exact rfl); (case h4 => exact rfl); (case h5 => exact rfl)))
    all_goals (try split))

theorem State.calAsk_keeps {s₀ : State} (s : State) (w : Word) (hk : Keeps s₀ s) : Keeps s₀ (State.calAsk s w) := by
  unfold State.calAsk
  iterate 5 (
    repeat (first | with_reducible assumption | with_reducible apply State.calEnd_keeps | with_reducible apply State.commit_keeps | with_reducible apply Keeps.ite | with_reducible apply Keeps.foldl | intro _)
    all_goals (try ((with_reducible apply Keeps.lit); (case h1 => exact rfl); (case h2 => exact rfl); (case h3 => exact rfl); (case h4 => exact rfl); (case h5 => exact rfl)))
    repeat (first | with_reducible assumption | with_reducible apply State.calEnd_keeps | with_reducible apply State.commit_keeps | with_reducible apply Keeps.ite | with_reducible apply Keeps.foldl | intro _)
    all_goals (try dsimp only)
    all_goals (try split))

theorem State.acceptRun_keeps {s₀ : State} (s : State) (w : Word) (hk : Keeps s₀ s) : Keeps s₀ (State.acceptRun s w) := by
  unfold State.acceptRun
  iterate 5 (
    repeat (first | with_reducible assumption | with_reducible apply State.setGlobNew_keeps | with_reducible apply State.commit_keeps | with_reducible apply Keeps.ite | with_reducible apply Keeps.foldl | intro _))

theorem State.acceptGReg_keeps {s₀ : State} (s : State) (r : GReg) (w : Word) (reply : Option Req) (hk : Keeps s₀ s) : Keeps s₀ (State.acceptGReg s r w reply) := by
  unfold State.acceptGReg
  iterate 5 (
    repeat (first | with_reducible assumption | with_reducible apply State.acceptRun_keeps | with_reducible apply State.calAsk_keeps | with_reducible apply State.setGlobNew_keeps | with_reducible apply State.markClr_keeps | with_reducible apply State.resolve_keeps | with_reducible apply State.w1cGlob_keeps | with_reducible apply State.commit_keeps | with_reducible apply Keeps.ite | with_reducible apply Keeps.foldl | intro _)
    all_goals (try ((with_reducible apply Keeps.lit); (case h1 => exact rfl); (case h2 => exact rfl); (case h3 => exact rfl); (case h4 => exact rfl); (case h5 => exact rfl)))
    repeat (first | with_reducible assumption | with_reducible apply State.acceptRun_keeps | with_reducible apply State.calAsk_keeps | with_reducible apply State.setGlobNew_keeps | with_reducible apply State.markClr_keeps | with_reducible apply State.resolve_keeps | with_reducible apply State.w1cGlob_keeps | with_reducible apply State.commit_keeps | with_reducible apply Keeps.ite | with_reducible apply Keeps.foldl | intro _)
    all_goals (try dsimp only)
    all_goals (try split))

theorem State.accept_keeps {s₀ : State} (s : State) (i : Iface) (x : Slot) (w : Word) (reply : Option Req) (hk : Keeps s₀ s) : Keeps s₀ (State.accept s i x w reply) := by
  unfold State.accept
  iterate 5 (
    repeat (first | with_reducible assumption | with_reducible apply State.acceptGReg_keeps | with_reducible apply State.acceptCReg_keeps | with_reducible apply State.acceptGlob_keeps | with_reducible apply State.acceptCtx_keeps | with_reducible apply State.setPhNew_keeps | with_reducible apply State.commit_keeps | with_reducible apply Keeps.ite | with_reducible apply Keeps.foldl | intro _)
    all_goals (try ((with_reducible apply Keeps.lit); (case h1 => exact rfl); (case h2 => exact rfl); (case h3 => exact rfl); (case h4 => exact rfl); (case h5 => exact rfl)))
    all_goals (try split))

theorem State.writeIndex_keeps {s₀ : State} (s : State) (i : Iface) (index : Nat) (w : Word) (reply : Option Req) (hk : Keeps s₀ s) : Keeps s₀ (State.writeIndex s i index w reply).1 := by
  unfold State.writeIndex
  iterate 5 (
    repeat (first | with_reducible assumption | with_reducible apply State.accept_keeps | with_reducible apply Keeps.ite | with_reducible apply Keeps.foldl | intro _)
    all_goals (try ((with_reducible apply Keeps.lit); (case h1 => exact rfl); (case h2 => exact rfl); (case h3 => exact rfl); (case h4 => exact rfl); (case h5 => exact rfl)))
    all_goals (try dsimp only)
    all_goals (try split))

theorem State.writeReg_keeps {s₀ : State} (s : State) (i : Iface) (x : Slot) (w : Word) (hk : Keeps s₀ s) : Keeps s₀ (State.writeReg s i x w) := by
  unfold State.writeReg
  iterate 5 (
    repeat (first | with_reducible assumption | with_reducible apply State.accept_keeps | with_reducible apply Keeps.ite | with_reducible apply Keeps.foldl | intro _)
    all_goals (try ((with_reducible apply Keeps.lit); (case h1 => exact rfl); (case h2 => exact rfl); (case h3 => exact rfl); (case h4 => exact rfl); (case h5 => exact rfl)))
    repeat (first | with_reducible assumption | with_reducible apply State.accept_keeps | with_reducible apply Keeps.ite | with_reducible apply Keeps.foldl | intro _))

theorem State.readEffect_keeps {s₀ : State} (s : State) (i : Iface) (x : Slot) (hk : Keeps s₀ s) : Keeps s₀ (State.readEffect s i x) := by
  unfold State.readEffect
  iterate 5 (
    all_goals (try ((with_reducible apply Keeps.lit); (case h1 => exact rfl); (case h2 => exact rfl); (case h3 => exact rfl); (case h4 => exact rfl); (case h5 => exact rfl)))
    repeat (first | with_reducible assumption | with_reducible apply Keeps.ite | with_reducible apply Keeps.foldl | intro _)
    all_goals (try split))

theorem State.readIndex_keeps {s₀ : State} (s : State) (i : Iface) (index : Nat) (hk : Keeps s₀ s) : Keeps s₀ (State.readIndex s i index).1 := by
  unfold State.readIndex
  iterate 5 (
    repeat (first | with_reducible assumption | with_reducible apply State.readEffect_keeps | with_reducible apply Keeps.ite | with_reducible apply Keeps.foldl | intro _)
    all_goals (try ((with_reducible apply Keeps.lit); (case h1 => exact rfl); (case h2 => exact rfl); (case h3 => exact rfl); (case h4 => exact rfl); (case h5 => exact rfl)))
    all_goals (try split))

theorem State.latchLive_keeps {s₀ : State} (s : State) (l : LivePins) (hk : Keeps s₀ s) : Keeps s₀ (State.latchLive s l) := by
  unfold State.latchLive
  iterate 5 (
    all_goals (try ((with_reducible apply Keeps.lit); (case h1 => exact rfl); (case h2 => exact rfl); (case h3 => exact rfl); (case h4 => exact rfl); (case h5 => exact rfl)))
    repeat (first | with_reducible assumption | with_reducible apply Keeps.ite | with_reducible apply Keeps.foldl | intro _))

theorem State.setHolder_keeps {s₀ : State} (s : State) (h : Option HalfId) (hk : Keeps s₀ s) : Keeps s₀ (State.setHolder s h) := by
  unfold State.setHolder
  iterate 5 (
    all_goals (try ((with_reducible apply Keeps.lit); (case h1 => exact rfl); (case h2 => exact rfl); (case h3 => exact rfl); (case h4 => exact rfl); (case h5 => exact rfl)))
    repeat (first | with_reducible assumption | with_reducible apply Keeps.ite | with_reducible apply Keeps.foldl | intro _))

theorem State.arbVote_keeps {s₀ : State} (s : State) (hk : Keeps s₀ s) : Keeps s₀ (State.arbVote s) := by
  unfold State.arbVote
  iterate 5 (
    repeat (first | with_reducible assumption | with_reducible apply State.setHolder_keeps | with_reducible apply State.summaryFree_keeps | with_reducible apply Keeps.ite | with_reducible apply Keeps.foldl | intro _)
    all_goals (try ((with_reducible apply Keeps.lit); (case h1 => exact rfl); (case h2 => exact rfl); (case h3 => exact rfl); (case h4 => exact rfl); (case h5 => exact rfl)))
    repeat (first | with_reducible assumption | with_reducible apply State.setHolder_keeps | with_reducible apply State.summaryFree_keeps | with_reducible apply Keeps.ite | with_reducible apply Keeps.foldl | intro _))

theorem State.endRelease_keeps {s₀ : State} (s : State) (hk : Keeps s₀ s) : Keeps s₀ (State.endRelease s) := by
  unfold State.endRelease
  iterate 5 (
    all_goals (try ((with_reducible apply Keeps.lit); (case h1 => exact rfl); (case h2 => exact rfl); (case h3 => exact rfl); (case h4 => exact rfl); (case h5 => exact rfl)))
    repeat (first | with_reducible assumption | with_reducible apply Keeps.ite | with_reducible apply Keeps.foldl | intro _))

theorem State.moveSummit_keeps {s₀ : State} (s : State) (h : HalfId) (hk : Keeps s₀ s) : Keeps s₀ (State.moveSummit s h) := by
  unfold State.moveSummit
  iterate 5 (
    repeat (first | with_reducible assumption | with_reducible apply State.endRelease_keeps | with_reducible apply State.setHolder_keeps | with_reducible apply State.interrupt_keeps | with_reducible apply State.modHs_keeps | with_reducible apply Keeps.ite | with_reducible apply Keeps.foldl | intro _))

theorem State.refuseRelease_keeps {s₀ : State} (s : State) (h : HalfId) (hk : Keeps s₀ s) : Keeps s₀ (State.refuseRelease s h) := by
  unfold State.refuseRelease
  iterate 5 (
    all_goals (try ((with_reducible apply Keeps.lit); (case h1 => exact rfl); (case h2 => exact rfl); (case h3 => exact rfl); (case h4 => exact rfl); (case h5 => exact rfl)))
    repeat (first | with_reducible assumption | with_reducible apply State.endRelease_keeps | with_reducible apply State.modHs_keeps | with_reducible apply Keeps.ite | with_reducible apply Keeps.foldl | intro _))

theorem State.requestRelease_keeps {s₀ : State} (s : State) (h : HalfId) (hk : Keeps s₀ s) : Keeps s₀ (State.requestRelease s h) := by
  unfold State.requestRelease
  iterate 5 (
    repeat (first | with_reducible assumption | with_reducible apply State.refuseRelease_keeps | with_reducible apply State.takeRelease_keeps | with_reducible apply Keeps.ite | with_reducible apply Keeps.foldl | intro _))

theorem State.noHalf_keeps {s₀ : State} (s : State) (hk : Keeps s₀ s) : Keeps s₀ (State.noHalf s) := by
  unfold State.noHalf
  iterate 5 (
    repeat (first | with_reducible assumption | with_reducible apply State.endRelease_keeps | with_reducible apply State.setHolder_keeps | with_reducible apply State.safeTrigger_keeps | with_reducible apply State.modHs_keeps | with_reducible apply Keeps.ite | with_reducible apply Keeps.foldl | intro _)
    all_goals (try ((with_reducible apply Keeps.lit); (case h1 => exact rfl); (case h2 => exact rfl); (case h3 => exact rfl); (case h4 => exact rfl); (case h5 => exact rfl)))
    repeat (first | with_reducible assumption | with_reducible apply State.endRelease_keeps | with_reducible apply State.setHolder_keeps | with_reducible apply State.safeTrigger_keeps | with_reducible apply State.modHs_keeps | with_reducible apply Keeps.ite | with_reducible apply Keeps.foldl | intro _))

theorem State.failover_keeps {s₀ : State} (s : State) (h : HalfId) (hk : Keeps s₀ s) : Keeps s₀ (State.failover s h) := by
  unfold State.failover
  iterate 5 (
    repeat (first | with_reducible assumption | with_reducible apply State.noHalf_keeps | with_reducible apply State.moveSummit_keeps | with_reducible apply State.summary_keeps | with_reducible apply State.event_keeps | with_reducible apply Keeps.ite | with_reducible apply Keeps.foldl | intro _)
    all_goals (try ((with_reducible apply Keeps.lit); (case h1 => exact rfl); (case h2 => exact rfl); (case h3 => exact rfl); (case h4 => exact rfl); (case h5 => exact rfl)))
    repeat (first | with_reducible assumption | with_reducible apply State.noHalf_keeps | with_reducible apply State.moveSummit_keeps | with_reducible apply State.summary_keeps | with_reducible apply State.event_keeps | with_reducible apply Keeps.ite | with_reducible apply Keeps.foldl | intro _))

theorem State.firstHolder_keeps {s₀ : State} (s : State) (hk : Keeps s₀ s) : Keeps s₀ (State.firstHolder s) := by
  unfold State.firstHolder
  iterate 5 (
    repeat (first | with_reducible assumption | with_reducible apply State.noHalf_keeps | with_reducible apply State.setHolder_keeps | with_reducible apply State.interrupt_keeps | with_reducible apply Keeps.ite | with_reducible apply Keeps.foldl | intro _))

theorem State.requalify_keeps {s₀ : State} (s : State) (east west : Bool) (hk : Keeps s₀ s) : Keeps s₀ (State.requalify s east west) := by
  unfold State.requalify
  iterate 5 (
    all_goals (try ((with_reducible apply Keeps.lit); (case h1 => exact rfl); (case h2 => exact rfl); (case h3 => exact rfl); (case h4 => exact rfl); (case h5 => exact rfl)))
    repeat (first | with_reducible assumption | with_reducible apply State.firstHolder_keeps | with_reducible apply State.modHs_keeps | with_reducible apply State.halves_keeps | with_reducible apply Keeps.ite | with_reducible apply Keeps.foldl | intro _))

theorem State.copyHalf_keeps {s₀ : State} (s : State) (h : HalfId) (hk : Keeps s₀ s) : Keeps s₀ (State.copyHalf s h) := by
  unfold State.copyHalf
  iterate 5 (
    repeat (first | with_reducible assumption | with_reducible apply State.modHs_keeps | with_reducible apply State.setHalf_keeps | with_reducible apply Keeps.ite | with_reducible apply Keeps.foldl | intro _)
    all_goals (try ((with_reducible apply Keeps.lit); (case h1 => exact rfl); (case h2 => exact rfl); (case h3 => exact rfl); (case h4 => exact rfl); (case h5 => exact rfl)))
    repeat (first | with_reducible assumption | with_reducible apply State.modHs_keeps | with_reducible apply State.setHalf_keeps | with_reducible apply Keeps.ite | with_reducible apply Keeps.foldl | intro _))

theorem State.forceTargets_keeps {s₀ : State} (s : State) (c : CtxId) (hk : Keeps s₀ s) : Keeps s₀ (State.forceTargets s c) := by
  unfold State.forceTargets
  iterate 5 (
    all_goals (try ((with_reducible apply Keeps.lit); (case h1 => exact rfl); (case h2 => exact rfl); (case h3 => exact rfl); (case h4 => exact rfl); (case h5 => exact rfl)))
    repeat (first | with_reducible assumption | with_reducible apply Keeps.ite | with_reducible apply Keeps.foldl | intro _))

theorem State.assertGroup_keeps {s₀ : State} (s : State) (c : CtxId) (hk : Keeps s₀ s) : Keeps s₀ (State.assertGroup s c) := by
  unfold State.assertGroup
  iterate 5 (
    repeat (first | with_reducible assumption | with_reducible apply State.forceTargets_keeps | with_reducible apply State.modCtx_keeps | with_reducible apply Keeps.ite | with_reducible apply Keeps.foldl | intro _))

theorem State.deassertGroup_keeps {s₀ : State} (s : State) (c : CtxId) (hk : Keeps s₀ s) : Keeps s₀ (State.deassertGroup s c) := by
  unfold State.deassertGroup
  iterate 5 (
    repeat (first | with_reducible assumption | with_reducible apply State.modCtx_keeps | with_reducible apply Keeps.ite | with_reducible apply Keeps.foldl | intro _))

theorem State.followGroup_keeps {s₀ : State} (s : State) (c : CtxId) (hk : Keeps s₀ s) : Keeps s₀ (State.followGroup s c) := by
  unfold State.followGroup
  iterate 5 (
    repeat (first | with_reducible assumption | with_reducible apply State.deassertGroup_keeps | with_reducible apply State.assertGroup_keeps | with_reducible apply State.modCtx_keeps | with_reducible apply Keeps.ite | with_reducible apply Keeps.foldl | intro _))

theorem State.followGroups_keeps {s₀ : State} (s : State) (hk : Keeps s₀ s) : Keeps s₀ (State.followGroups s) := by
  unfold State.followGroups
  iterate 5 (
    repeat (first | with_reducible assumption | with_reducible apply State.followGroup_keeps | with_reducible apply Keeps.ite | with_reducible apply Keeps.foldl | intro _))

theorem State.cragConfig_keeps {s₀ : State} (s : State) (hk : Keeps s₀ s) : Keeps s₀ (State.cragConfig s) := by
  unfold State.cragConfig
  iterate 5 (
    repeat (first | with_reducible assumption | with_reducible apply State.followGroups_keeps | with_reducible apply Keeps.ite | with_reducible apply Keeps.foldl | intro _)
    all_goals (try ((with_reducible apply Keeps.lit); (case h1 => exact rfl); (case h2 => exact rfl); (case h3 => exact rfl); (case h4 => exact rfl); (case h5 => exact rfl)))
    repeat (first | with_reducible assumption | with_reducible apply State.followGroups_keeps | with_reducible apply Keeps.ite | with_reducible apply Keeps.foldl | intro _))

theorem State.settle_keeps {s₀ : State} (s : State) (ps : List PhaseId) (hk : Keeps s₀ s) : Keeps s₀ (State.settle s ps) := by
  unfold State.settle
  iterate 5 (
    repeat (first | with_reducible assumption | with_reducible apply State.halves_keeps | with_reducible apply Keeps.ite | with_reducible apply Keeps.foldl | intro _))

theorem State.phaseCounts_keeps {s₀ : State} (s : State) (code : BitVec 10) (irefBad : Bool) (p : PhaseId) (hk : Keeps s₀ s) : Keeps s₀ (State.phaseCounts s code irefBad p) := by
  unfold State.phaseCounts
  iterate 5 (
    repeat (first | with_reducible assumption | with_reducible apply State.calSample_keeps | with_reducible apply State.imonFault_keeps | with_reducible apply State.halves_keeps | with_reducible apply State.modPh_keeps | with_reducible apply State.modCtx_keeps | with_reducible apply Keeps.ite | with_reducible apply Keeps.foldl | intro _))

theorem State.phaseWord_keeps {s₀ : State} (s : State) (code : BitVec 10) (irefBad : Bool) (e : BcastErr) (p : PhaseId) (hk : Keeps s₀ s) : Keeps s₀ (State.phaseWord s code irefBad e p) := by
  unfold State.phaseWord
  iterate 5 (
    repeat (first | with_reducible assumption | with_reducible apply State.phaseCounts_keeps | with_reducible apply Keeps.ite | with_reducible apply Keeps.foldl | intro _)
    all_goals (try ((with_reducible apply Keeps.lit); (case h1 => exact rfl); (case h2 => exact rfl); (case h3 => exact rfl); (case h4 => exact rfl); (case h5 => exact rfl)))
    repeat (first | with_reducible assumption | with_reducible apply State.phaseCounts_keeps | with_reducible apply Keeps.ite | with_reducible apply Keeps.foldl | intro _))

theorem State.holdWords_keeps {s₀ : State} (s : State) (c : CtxId) (hk : Keeps s₀ s) : Keeps s₀ (State.holdWords s c) := by
  unfold State.holdWords
  iterate 5 (
    repeat (first | with_reducible assumption | with_reducible apply State.halves_keeps | with_reducible apply Keeps.ite | with_reducible apply Keeps.foldl | intro _))

theorem State.followStart_keeps {s₀ : State} (s : State) (p : PhaseId) (hk : Keeps s₀ s) : Keeps s₀ (State.followStart s p) := by
  unfold State.followStart
  iterate 5 (
    repeat (first | with_reducible assumption | with_reducible apply State.modPh_keeps | with_reducible apply Keeps.ite | with_reducible apply Keeps.foldl | intro _)
    all_goals (try ((with_reducible apply Keeps.lit); (case h1 => exact rfl); (case h2 => exact rfl); (case h3 => exact rfl); (case h4 => exact rfl); (case h5 => exact rfl)))
    all_goals (try split))

theorem State.follow_keeps {s₀ : State} (s : State) (hk : Keeps s₀ s) : Keeps s₀ (State.follow s) := by
  unfold State.follow
  iterate 5 (
    all_goals (try ((with_reducible apply Keeps.lit); (case h1 => exact rfl); (case h2 => exact rfl); (case h3 => exact rfl); (case h4 => exact rfl); (case h5 => exact rfl)))
    repeat (first | with_reducible assumption | with_reducible apply Keeps.ite | with_reducible apply Keeps.foldl | intro _))

theorem State.innerOne_keeps {s₀ : State} (s : State) (c : CtxId) (hk : Keeps s₀ s) : Keeps s₀ (State.innerOne s c) := by
  unfold State.innerOne
  iterate 5 (
    repeat (first | with_reducible assumption | with_reducible apply State.followStart_keeps | with_reducible apply State.holdWords_keeps | with_reducible apply State.signalResidue_keeps | with_reducible apply State.summary_keeps | with_reducible apply State.event_keeps | with_reducible apply Keeps.ite | with_reducible apply Keeps.foldl | intro _)
    all_goals (try ((with_reducible apply Keeps.lit); (case h1 => exact rfl); (case h2 => exact rfl); (case h3 => exact rfl); (case h4 => exact rfl); (case h5 => exact rfl)))
    repeat (first | with_reducible assumption | with_reducible apply State.followStart_keeps | with_reducible apply State.holdWords_keeps | with_reducible apply State.signalResidue_keeps | with_reducible apply State.summary_keeps | with_reducible apply State.event_keeps | with_reducible apply Keeps.ite | with_reducible apply Keeps.foldl | intro _)
    all_goals (try dsimp only)
    all_goals (try split))

theorem State.phaseWords_keeps {s₀ : State} (s : State) (codes : Vector (BitVec 10) 96) (irefOut : BitVec 12) (errs : List (PhaseId × BcastErr)) (hk : Keeps s₀ s) : Keeps s₀ (State.phaseWords s codes irefOut errs) := by
  unfold State.phaseWords
  iterate 5 (
    repeat (first | with_reducible assumption | with_reducible apply State.phaseWord_keeps | with_reducible apply Keeps.ite | with_reducible apply Keeps.foldl | intro _))

theorem State.phaseErr_keeps {s₀ : State} (s : State) (errs : List (PhaseId × BcastErr)) (hk : Keeps s₀ s) : Keeps s₀ (State.phaseErr s errs) := by
  unfold State.phaseErr
  iterate 5 (
    repeat (first | with_reducible assumption | with_reducible apply State.bcast_keeps | with_reducible apply Keeps.ite | with_reducible apply Keeps.foldl | intro _))

theorem State.signalAll_keeps {s₀ : State} (t s : State) (hk : Keeps s₀ s) : Keeps s₀ (State.signalAll t s) :=
  Keeps.foldl hk (fun _ _ h => State.signalResidue_keeps _ _ _ h) _

theorem State.innerAll_keeps {s₀ : State} (s : State) (hk : Keeps s₀ s) : Keeps s₀ (State.innerAll s) := by
  unfold State.innerAll
  iterate 5 (
    repeat (first | with_reducible assumption | with_reducible apply State.innerOne_keeps | with_reducible apply Keeps.ite | with_reducible apply Keeps.foldl | intro _))

theorem State.capPut_keeps {s₀ : State} (s : State) (c : CtxId) (a : Nat) (w : Word) (hk : Keeps s₀ s) : Keeps s₀ (State.capPut s c a w) := by
  unfold State.capPut
  iterate 5 (
    repeat (first | with_reducible assumption | with_reducible apply State.halves_keeps | with_reducible apply Keeps.ite | with_reducible apply Keeps.foldl | intro _))

theorem State.modProbe_keeps {s₀ : State} (s : State) (c : CtxId) (f : Probe → Probe) (hk : Keeps s₀ s) : Keeps s₀ (State.modProbe s c f) := by
  unfold State.modProbe
  iterate 5 (
    repeat (first | with_reducible assumption | with_reducible apply State.modCtx_keeps | with_reducible apply Keeps.ite | with_reducible apply Keeps.foldl | intro _))

theorem State.probeInc_keeps {s₀ : State} (s : State) (c : CtxId) (i : Nat) (hk : Keeps s₀ s) : Keeps s₀ (State.probeInc s c i).1 := by
  unfold State.probeInc
  iterate 5 (
    repeat (first | with_reducible assumption | with_reducible apply State.capRead_keeps | with_reducible apply Keeps.ite | with_reducible apply Keeps.foldl | intro _)
    all_goals (try ((with_reducible apply Keeps.lit); (case h1 => exact rfl); (case h2 => exact rfl); (case h3 => exact rfl); (case h4 => exact rfl); (case h5 => exact rfl)))
    all_goals (try split))

theorem State.probeDone_keeps {s₀ : State} (s : State) (c : CtxId) (hk : Keeps s₀ s) : Keeps s₀ (State.probeDone s c) := by
  unfold State.probeDone
  iterate 5 (
    repeat (first | with_reducible assumption | with_reducible apply State.modProbe_keeps | with_reducible apply State.event_keeps | with_reducible apply Keeps.ite | with_reducible apply Keeps.foldl | intro _))

theorem State.probePoint_keeps {s₀ : State} (s : State) (c : CtxId) (i : Nat) (hk : Keeps s₀ s) : Keeps s₀ (State.probePoint s c i) := by
  unfold State.probePoint
  iterate 5 (
    repeat (first | with_reducible assumption | with_reducible apply State.probeDone_keeps | with_reducible apply State.probeInc_keeps | with_reducible apply State.modProbe_keeps | with_reducible apply Keeps.ite | with_reducible apply Keeps.foldl | intro _))

theorem State.probeStart_keeps {s₀ : State} (s : State) (c : CtxId) (hk : Keeps s₀ s) : Keeps s₀ (State.probeStart s c) := by
  unfold State.probeStart
  iterate 5 (
    repeat (first | with_reducible assumption | with_reducible apply State.probePoint_keeps | with_reducible apply State.modProbe_keeps | with_reducible apply State.modCtx_keeps | with_reducible apply Keeps.ite | with_reducible apply Keeps.foldl | intro _))

theorem State.probePause_keeps {s₀ : State} (s : State) (c : CtxId) (pause : Bool) (hk : Keeps s₀ s) : Keeps s₀ (State.probePause s c pause) := by
  unfold State.probePause
  iterate 5 (
    repeat (first | with_reducible assumption | with_reducible apply State.probePoint_keeps | with_reducible apply State.modProbe_keeps | with_reducible apply Keeps.ite | with_reducible apply Keeps.foldl | intro _))

theorem State.probeInject_keeps {s₀ : State} (s : State) (c : CtxId) (cur : Bool) (hk : Keeps s₀ s) : Keeps s₀ (State.probeInject s c cur) := by
  unfold State.probeInject
  iterate 5 (
    repeat (first | with_reducible assumption | with_reducible apply State.modProbe_keeps | with_reducible apply Keeps.ite | with_reducible apply Keeps.foldl | intro _)
    all_goals (try ((with_reducible apply Keeps.lit); (case h1 => exact rfl); (case h2 => exact rfl); (case h3 => exact rfl); (case h4 => exact rfl); (case h5 => exact rfl)))
    all_goals (try dsimp only)
    all_goals (try split))

theorem State.storeSums_keeps {s₀ : State} (s : State) (c : CtxId) (hk : Keeps s₀ s) : Keeps s₀ (State.storeSums s c) := by
  unfold State.storeSums
  iterate 5 (
    repeat (first | with_reducible assumption | with_reducible apply State.capPut_keeps | with_reducible apply Keeps.ite | with_reducible apply Keeps.foldl | intro _))

theorem State.probePair_keeps {s₀ : State} (s : State) (c : CtxId) (inp out : Int) (hk : Keeps s₀ s) : Keeps s₀ (State.probePair s c inp out) := by
  unfold State.probePair
  iterate 5 (
    repeat (first | with_reducible assumption | with_reducible apply State.modProbe_keeps | with_reducible apply State.capPut_keeps | with_reducible apply Keeps.ite | with_reducible apply Keeps.foldl | intro _))

theorem State.probeAfter_keeps {s₀ : State} (s : State) (c : CtxId) (inp out : Int) (hk : Keeps s₀ s) : Keeps s₀ (State.probeAfter s c inp out) := by
  unfold State.probeAfter
  iterate 5 (
    repeat (first | with_reducible assumption | with_reducible apply State.probePair_keeps | with_reducible apply State.storeSums_keeps | with_reducible apply State.probePoint_keeps | with_reducible apply State.probeDone_keeps | with_reducible apply State.probeInc_keeps | with_reducible apply State.modProbe_keeps | with_reducible apply Keeps.ite | with_reducible apply Keeps.foldl | intro _)
    all_goals (try ((with_reducible apply Keeps.lit); (case h1 => exact rfl); (case h2 => exact rfl); (case h3 => exact rfl); (case h4 => exact rfl); (case h5 => exact rfl)))
    all_goals (try dsimp only)
    all_goals (try split))

theorem State.traceStop_keeps {s₀ : State} (s : State) (c : CtxId) (hk : Keeps s₀ s) : Keeps s₀ (State.traceStop s c) := by
  unfold State.traceStop
  iterate 5 (
    repeat (first | with_reducible assumption | with_reducible apply State.event_keeps | with_reducible apply State.modCtx_keeps | with_reducible apply Keeps.ite | with_reducible apply Keeps.foldl | intro _))

theorem State.traceStep_keeps {s₀ : State} (s : State) (c : CtxId) (sumI : Int) (hk : Keeps s₀ s) : Keeps s₀ (State.traceStep s c sumI) := by
  unfold State.traceStep
  iterate 5 (
    repeat (first | with_reducible assumption | with_reducible apply State.traceStop_keeps | with_reducible apply State.capPut_keeps | with_reducible apply State.modCtx_keeps | with_reducible apply Keeps.ite | with_reducible apply Keeps.foldl | intro _)
    all_goals (try ((with_reducible apply Keeps.lit); (case h1 => exact rfl); (case h2 => exact rfl); (case h3 => exact rfl); (case h4 => exact rfl); (case h5 => exact rfl)))
    all_goals (try split))

theorem State.rebind_keeps {s₀ : State} (s : State) (c : CtxId) (hk : Keeps s₀ s) : Keeps s₀ (State.rebind s c) := by
  unfold State.rebind
  iterate 5 (
    repeat (first | with_reducible assumption | with_reducible apply State.halves_keeps | with_reducible apply Keeps.ite | with_reducible apply Keeps.foldl | intro _)
    all_goals (try ((with_reducible apply Keeps.lit); (case h1 => exact rfl); (case h2 => exact rfl); (case h3 => exact rfl); (case h4 => exact rfl); (case h5 => exact rfl)))
    repeat (first | with_reducible assumption | with_reducible apply State.halves_keeps | with_reducible apply Keeps.ite | with_reducible apply Keeps.foldl | intro _))

theorem State.setNAct_keeps {s₀ : State} (s : State) (c : CtxId) (n : Nat) (hk : Keeps s₀ s) : Keeps s₀ (State.setNAct s c n) := by
  unfold State.setNAct
  iterate 5 (
    repeat (first | with_reducible assumption | with_reducible apply State.halves_keeps | with_reducible apply Keeps.ite | with_reducible apply Keeps.foldl | intro _))

theorem State.preAct_keeps {s₀ : State} (s : State) (c : CtxId) (hk : Keeps s₀ s) : Keeps s₀ (State.preAct s c) := by
  unfold State.preAct
  iterate 5 (
    repeat (first | with_reducible assumption | with_reducible apply State.setNAct_keeps | with_reducible apply Keeps.ite | with_reducible apply Keeps.foldl | intro _))

theorem State.formPass_keeps {s₀ : State} (s : State) (c : CtxId) (hk : Keeps s₀ s) : Keeps s₀ (State.formPass s c) := by
  unfold State.formPass
  iterate 5 (
    repeat (first | with_reducible assumption | with_reducible apply State.probeStart_keeps | with_reducible apply State.modCtx_keeps | with_reducible apply Keeps.ite | with_reducible apply Keeps.foldl | intro _))

theorem State.formE_keeps {s₀ : State} (s : State) (c : CtxId) (hk : Keeps s₀ s) : Keeps s₀ (State.formE s c).1 := by
  unfold State.formE
  iterate 5 (
    repeat (first | with_reducible assumption | with_reducible apply State.formPass_keeps | with_reducible apply State.setNAct_keeps | with_reducible apply State.flush_keeps | with_reducible apply State.halves_keeps | with_reducible apply State.modCtx_keeps | with_reducible apply Keeps.ite | with_reducible apply Keeps.foldl | intro _))

theorem State.formTarget_keeps {s₀ : State} (s : State) (c : CtxId) (hk : Keeps s₀ s) : Keeps s₀ (State.formTarget s c) := by
  unfold State.formTarget
  iterate 5 (
    repeat (first | with_reducible assumption | with_reducible apply State.modCtx_keeps | with_reducible apply Keeps.ite | with_reducible apply Keeps.foldl | intro _))

theorem State.schedRun_keeps {s₀ : State} (s : State) (c : CtxId) (hk : Keeps s₀ s) : Keeps s₀ (State.schedRun s c).1 := by
  unfold State.schedRun
  iterate 5 (
    repeat (first | with_reducible assumption | with_reducible apply State.settle_keeps | with_reducible apply State.modSched_keeps | with_reducible apply Keeps.ite | with_reducible apply Keeps.foldl | intro _))

theorem State.schedStep_keeps {s₀ : State} (s : State) (c : CtxId) (hk : Keeps s₀ s) : Keeps s₀ (State.schedStep s c).1 := by
  unfold State.schedStep
  iterate 5 (
    repeat (first | with_reducible assumption | with_reducible apply State.schedRun_keeps | with_reducible apply Keeps.ite | with_reducible apply Keeps.foldl | intro _)
    all_goals (try ((with_reducible apply Keeps.lit); (case h1 => exact rfl); (case h2 => exact rfl); (case h3 => exact rfl); (case h4 => exact rfl); (case h5 => exact rfl)))
    all_goals (try split))

theorem State.noteSched_keeps {s₀ : State} (s : State) (c : CtxId) (hk : Keeps s₀ s) : Keeps s₀ (State.noteSched s c) := by
  unfold State.noteSched
  iterate 5 (
    repeat (first | with_reducible assumption | with_reducible apply State.settle_keeps | with_reducible apply State.modSched_keeps | with_reducible apply Keeps.ite | with_reducible apply Keeps.foldl | intro _))

theorem State.formFloors_keeps {s₀ : State} (s : State) (c : CtxId) (before : List Event) (hk : Keeps s₀ s) : Keeps s₀ (State.formFloors s c before) := by
  unfold State.formFloors
  iterate 5 (
    repeat (first | with_reducible assumption | with_reducible apply State.modSched_keeps | with_reducible apply State.fresh_keeps | with_reducible apply Keeps.ite | with_reducible apply Keeps.foldl | intro _))

theorem State.endEvents_keeps {s₀ : State} (s : State) (c : CtxId) (hk : Keeps s₀ s) : Keeps s₀ (State.endEvents s c) := by
  unfold State.endEvents
  iterate 5 (
    repeat (first | with_reducible assumption | with_reducible apply State.endEntry_keeps | with_reducible apply State.modSched_keeps | with_reducible apply State.halves_keeps | with_reducible apply Keeps.ite | with_reducible apply Keeps.foldl | intro _)
    all_goals (try ((with_reducible apply Keeps.lit); (case h1 => exact rfl); (case h2 => exact rfl); (case h3 => exact rfl); (case h4 => exact rfl); (case h5 => exact rfl)))
    all_goals (try dsimp only)
    all_goals (try split))

theorem State.schedIdle_keeps {s₀ : State} (s : State) (c : CtxId) (hk : Keeps s₀ s) : Keeps s₀ (State.schedIdle s c) := by
  unfold State.schedIdle
  iterate 5 (
    repeat (first | with_reducible assumption | with_reducible apply State.endEvents_keeps | with_reducible apply State.formFloors_keeps | with_reducible apply State.schedRun_keeps | with_reducible apply State.flush_keeps | with_reducible apply Keeps.ite | with_reducible apply Keeps.foldl | intro _)
    all_goals (try ((with_reducible apply Keeps.lit); (case h1 => exact rfl); (case h2 => exact rfl); (case h3 => exact rfl); (case h4 => exact rfl); (case h5 => exact rfl)))
    repeat (first | with_reducible assumption | with_reducible apply State.endEvents_keeps | with_reducible apply State.formFloors_keeps | with_reducible apply State.schedRun_keeps | with_reducible apply State.flush_keeps | with_reducible apply Keeps.ite | with_reducible apply Keeps.foldl | intro _))

theorem State.asStep_keeps {s₀ : State} (s : State) (c : CtxId) (serial : Nat) (hk : Keeps s₀ s) : Keeps s₀ (State.asStep s c serial) := by
  unfold State.asStep
  iterate 5 (
    repeat (first | with_reducible assumption | with_reducible apply State.modSched_keeps | with_reducible apply Keeps.ite | with_reducible apply Keeps.foldl | intro _))

theorem State.joinDeferred_keeps {s₀ : State} (s : State) (c : CtxId) (serial : Nat) (d : Deferred) (hk : Keeps s₀ s) : Keeps s₀ (State.joinDeferred s c serial d) := by
  unfold State.joinDeferred
  iterate 5 (
    repeat (first | with_reducible assumption | with_reducible apply State.asStep_keeps | with_reducible apply State.delayEvent_keeps | with_reducible apply State.event_keeps | with_reducible apply State.modChan_keeps | with_reducible apply Keeps.ite | with_reducible apply Keeps.foldl | intro _)
    all_goals (try ((with_reducible apply Keeps.lit); (case h1 => exact rfl); (case h2 => exact rfl); (case h3 => exact rfl); (case h4 => exact rfl); (case h5 => exact rfl)))
    all_goals (try split))

theorem State.holdOn_keeps {s₀ : State} (s : State) (c : CtxId) (serial : Nat) (hk : Keeps s₀ s) : Keeps s₀ (State.holdOn s c serial) := by
  unfold State.holdOn
  iterate 5 (
    repeat (first | with_reducible assumption | with_reducible apply State.asStep_keeps | with_reducible apply State.modChan_keeps | with_reducible apply Keeps.ite | with_reducible apply Keeps.foldl | intro _))

theorem State.gateOn_keeps {s₀ : State} (s : State) (c : CtxId) (serial : Nat) (hk : Keeps s₀ s) : Keeps s₀ (State.gateOn s c serial) := by
  unfold State.gateOn
  iterate 5 (
    repeat (first | with_reducible assumption | with_reducible apply State.holdOn_keeps | with_reducible apply State.joinDeferred_keeps | with_reducible apply State.asStep_keeps | with_reducible apply State.startOrDefer_keeps | with_reducible apply State.missEvent_keeps | with_reducible apply Keeps.ite | with_reducible apply Keeps.foldl | intro _)
    all_goals (try ((with_reducible apply Keeps.lit); (case h1 => exact rfl); (case h2 => exact rfl); (case h3 => exact rfl); (case h4 => exact rfl); (case h5 => exact rfl)))
    all_goals (try split))

theorem State.gateOff_keeps {s₀ : State} (s : State) (c : CtxId) (serial : Nat) (hk : Keeps s₀ s) : Keeps s₀ (State.gateOff s c serial) := by
  unfold State.gateOff
  iterate 5 (
    repeat (first | with_reducible assumption | with_reducible apply State.asStep_keeps | with_reducible apply State.offCmd_keeps | with_reducible apply State.modChan_keeps | with_reducible apply Keeps.ite | with_reducible apply Keeps.foldl | intro _)
    all_goals (try ((with_reducible apply Keeps.lit); (case h1 => exact rfl); (case h2 => exact rfl); (case h3 => exact rfl); (case h4 => exact rfl); (case h5 => exact rfl)))
    all_goals (try split))

theorem State.gateEvent_keeps {s₀ : State} (s : State) (c : CtxId) (e : Event) (hk : Keeps s₀ s) : Keeps s₀ (State.gateEvent s c e) := by
  unfold State.gateEvent
  iterate 5 (
    repeat (first | with_reducible assumption | with_reducible apply State.gateOff_keeps | with_reducible apply State.gateOn_keeps | with_reducible apply State.supersede_keeps | with_reducible apply State.modSched_keeps | with_reducible apply Keeps.ite | with_reducible apply Keeps.foldl | intro _)
    all_goals (try ((with_reducible apply Keeps.lit); (case h1 => exact rfl); (case h2 => exact rfl); (case h3 => exact rfl); (case h4 => exact rfl); (case h5 => exact rfl)))
    all_goals (try split))

theorem State.deferredFails_keeps {s₀ : State} (s : State) (c : CtxId) (ev : Option Nat) (hk : Keeps s₀ s) : Keeps s₀ (State.deferredFails s c ev) := by
  unfold State.deferredFails
  iterate 5 (
    repeat (first | with_reducible assumption | with_reducible apply State.missEvent_keeps | with_reducible apply State.modChan_keeps | with_reducible apply Keeps.ite | with_reducible apply Keeps.foldl | intro _)
    all_goals (try ((with_reducible apply Keeps.lit); (case h1 => exact rfl); (case h2 => exact rfl); (case h3 => exact rfl); (case h4 => exact rfl); (case h5 => exact rfl)))
    all_goals (try split))

theorem State.measured_keeps {s₀ : State} (s : State) (c : CtxId) (ev : Option Nat) (d : Nat) (hk : Keeps s₀ s) : Keeps s₀ (State.measured s c ev d) := by
  unfold State.measured
  split
  · exact hk
  · exact State.modSched_keeps _ _ _ hk

theorem State.riseEdge_keeps {s₀ : State} (s : State) (c : CtxId) (at_ : Nat) (hk : Keeps s₀ s) : Keeps s₀ (State.riseEdge s c at_) := by
  unfold State.riseEdge
  iterate 5 (
    repeat (first | with_reducible assumption | with_reducible apply State.measured_keeps | with_reducible apply State.modSched_keeps | with_reducible apply State.modChan_keeps | with_reducible apply Keeps.ite | with_reducible apply Keeps.foldl | intro _)
    all_goals (try ((with_reducible apply Keeps.lit); (case h1 => exact rfl); (case h2 => exact rfl); (case h3 => exact rfl); (case h4 => exact rfl); (case h5 => exact rfl)))
    all_goals (try dsimp only)
    all_goals (try split))

theorem State.fallEdge_keeps {s₀ : State} (s : State) (c : CtxId) (at_ ago : Nat) (hk : Keeps s₀ s) : Keeps s₀ (State.fallEdge s c at_ ago) := by
  unfold State.fallEdge
  iterate 5 (
    repeat (first | with_reducible assumption | with_reducible apply State.measured_keeps | with_reducible apply State.modSched_keeps | with_reducible apply State.modChan_keeps | with_reducible apply Keeps.ite | with_reducible apply Keeps.foldl | intro _)
    all_goals (try ((with_reducible apply Keeps.lit); (case h1 => exact rfl); (case h2 => exact rfl); (case h3 => exact rfl); (case h4 => exact rfl); (case h5 => exact rfl)))
    all_goals (try dsimp only)
    all_goals (try split))

theorem State.stepEvent_keeps {s₀ : State} (s : State) (c : CtxId) (e : Event) (hk : Keeps s₀ s) : Keeps s₀ (State.stepEvent s c e) := by
  unfold State.stepEvent
  iterate 5 (
    repeat (first | with_reducible assumption | with_reducible apply State.gateEvent_keeps | with_reducible apply State.modSched_keeps | with_reducible apply Keeps.ite | with_reducible apply Keeps.foldl | intro _))

theorem State.afterStep_keeps {s₀ : State} (s : State) (hk : Keeps s₀ s) : Keeps s₀ (State.afterStep s) := by
  unfold State.afterStep
  iterate 5 (
    repeat (first | with_reducible assumption | with_reducible apply State.stepEvent_keeps | with_reducible apply Keeps.ite | with_reducible apply Keeps.foldl | intro _))

theorem State.ftLoadAct_keeps {s₀ : State} (s : State) (hk : Keeps s₀ s) : Keeps s₀ (State.ftLoadAct s) := by
  unfold State.ftLoadAct
  iterate 5 (
    repeat (first | with_reducible assumption | with_reducible apply State.afterStep_keeps | with_reducible apply Keeps.ite | with_reducible apply Keeps.foldl | intro _)
    all_goals (try ((with_reducible apply Keeps.lit); (case h1 => exact rfl); (case h2 => exact rfl); (case h3 => exact rfl); (case h4 => exact rfl); (case h5 => exact rfl)))
    repeat (first | with_reducible assumption | with_reducible apply State.afterStep_keeps | with_reducible apply Keeps.ite | with_reducible apply Keeps.foldl | intro _))

theorem State.edgeDone_keeps {s₀ : State} (s : State) (hk : Keeps s₀ s) : Keeps s₀ (State.edgeDone s) := by
  unfold State.edgeDone
  iterate 5 (
    all_goals (try ((with_reducible apply Keeps.lit); (case h1 => exact rfl); (case h2 => exact rfl); (case h3 => exact rfl); (case h4 => exact rfl); (case h5 => exact rfl)))
    repeat (first | with_reducible assumption | with_reducible apply Keeps.ite | with_reducible apply Keeps.foldl | intro _))

theorem State.ftCfgApply_keeps {s₀ : State} (s : State) (old : Int) (hk : Keeps s₀ s) : Keeps s₀ (State.ftCfgApply s old) := by
  unfold State.ftCfgApply
  iterate 5 (
    all_goals (try ((with_reducible apply Keeps.lit); (case h1 => exact rfl); (case h2 => exact rfl); (case h3 => exact rfl); (case h4 => exact rfl); (case h5 => exact rfl)))
    repeat (first | with_reducible assumption | with_reducible apply Keeps.ite | with_reducible apply Keeps.foldl | intro _))

theorem State.ftArmApply_keeps {s₀ : State} (s : State) (on : Bool) (hk : Keeps s₀ s) : Keeps s₀ (State.ftArmApply s on) := by
  unfold State.ftArmApply
  iterate 5 (
    repeat (first | with_reducible assumption | with_reducible apply State.ftLoadAct_keeps | with_reducible apply Keeps.ite | with_reducible apply Keeps.foldl | intro _)
    all_goals (try ((with_reducible apply Keeps.lit); (case h1 => exact rfl); (case h2 => exact rfl); (case h3 => exact rfl); (case h4 => exact rfl); (case h5 => exact rfl)))
    repeat (first | with_reducible assumption | with_reducible apply State.ftLoadAct_keeps | with_reducible apply Keeps.ite | with_reducible apply Keeps.foldl | intro _)
    all_goals (try dsimp only))

theorem State.bootSup_keeps {s₀ : State} (s : State) (h : HalfId) (hk : Keeps s₀ s) : Keeps s₀ (State.bootSup s h) := by
  unfold State.bootSup
  exact State.modHs_keeps _ _ _ (hk.same rfl (Summit.load_floor _ _) rfl rfl rfl)

theorem State.shutPhase_keeps {s₀ : State} (s : State) (p : PhaseId) (hk : Keeps s₀ s) : Keeps s₀ (State.shutPhase s p) := by
  unfold State.shutPhase
  iterate 5 (
    repeat (first | with_reducible assumption | with_reducible apply State.declareCtx_keeps | with_reducible apply State.modPh_keeps | with_reducible apply Keeps.ite | with_reducible apply Keeps.foldl | intro _))

theorem State.unshutPhase_keeps {s₀ : State} (s : State) (p : PhaseId) (hk : Keeps s₀ s) : Keeps s₀ (State.unshutPhase s p) := by
  unfold State.unshutPhase
  iterate 5 (
    repeat (first | with_reducible assumption | with_reducible apply State.releasedEvent_keeps | with_reducible apply State.modPh_keeps | with_reducible apply Keeps.ite | with_reducible apply Keeps.foldl | intro _))

theorem State.zoneFollow_keeps {s₀ : State} (s : State) (hk : Keeps s₀ s) : Keeps s₀ (State.zoneFollow s) := by
  unfold State.zoneFollow
  iterate 5 (
    all_goals (try ((with_reducible apply Keeps.lit); (case h1 => exact rfl); (case h2 => exact rfl); (case h3 => exact rfl); (case h4 => exact rfl); (case h5 => exact rfl)))
    repeat (first | with_reducible assumption | with_reducible apply Keeps.ite | with_reducible apply Keeps.foldl | intro _))

theorem State.enterShut_keeps {s₀ : State} (s : State) (z : Fin 19) (hk : Keeps s₀ s) : Keeps s₀ (State.enterShut s z) := by
  unfold State.enterShut
  iterate 5 (
    repeat (first | with_reducible assumption | with_reducible apply State.shutPhase_keeps | with_reducible apply State.loseElig_keeps | with_reducible apply State.safeTrigger_keeps | with_reducible apply Keeps.ite | with_reducible apply Keeps.foldl | intro _))

theorem State.leaveShut_keeps {s₀ : State} (s : State) (z : Fin 19) (hk : Keeps s₀ s) : Keeps s₀ (State.leaveShut s z) := by
  unfold State.leaveShut
  iterate 5 (
    repeat (first | with_reducible assumption | with_reducible apply State.unshutPhase_keeps | with_reducible apply State.modHs_keeps | with_reducible apply Keeps.ite | with_reducible apply Keeps.foldl | intro _))

theorem State.zoneChange_keeps {s₀ : State} (s : State) (z : Fin 19) (old new : Level) (v : Int) (hk : Keeps s₀ s) : Keeps s₀ (State.zoneChange s z old new v) := by
  unfold State.zoneChange
  iterate 5 (
    repeat (first | with_reducible assumption | with_reducible apply State.leaveShut_keeps | with_reducible apply State.enterShut_keeps | with_reducible apply State.summary_keeps | with_reducible apply State.event_keeps | with_reducible apply Keeps.ite | with_reducible apply Keeps.foldl | intro _)
    all_goals (try ((with_reducible apply Keeps.lit); (case h1 => exact rfl); (case h2 => exact rfl); (case h3 => exact rfl); (case h4 => exact rfl); (case h5 => exact rfl)))
    repeat (first | with_reducible assumption | with_reducible apply State.leaveShut_keeps | with_reducible apply State.enterShut_keeps | with_reducible apply State.summary_keeps | with_reducible apply State.event_keeps | with_reducible apply Keeps.ite | with_reducible apply Keeps.foldl | intro _)
    all_goals (try split))

theorem State.throttleStep_keeps {s₀ : State} (s : State) (z : Fin 19) (hk : Keeps s₀ s) : Keeps s₀ (State.throttleStep s z) := by
  unfold State.throttleStep
  iterate 5 (
    repeat (first | with_reducible assumption | with_reducible apply State.commit_keeps | with_reducible apply Keeps.ite | with_reducible apply Keeps.foldl | intro _))

theorem State.evaluate_keeps {s₀ : State} (s : State) (z : Fin 19) (hk : Keeps s₀ s) : Keeps s₀ (State.evaluate s z) := by
  unfold State.evaluate
  iterate 5 (
    repeat (first | with_reducible assumption | with_reducible apply State.throttleStep_keeps | with_reducible apply State.zoneChange_keeps | with_reducible apply Keeps.ite | with_reducible apply Keeps.foldl | intro _)
    all_goals (try ((with_reducible apply Keeps.lit); (case h1 => exact rfl); (case h2 => exact rfl); (case h3 => exact rfl); (case h4 => exact rfl); (case h5 => exact rfl)))
    repeat (first | with_reducible assumption | with_reducible apply State.throttleStep_keeps | with_reducible apply State.zoneChange_keeps | with_reducible apply Keeps.ite | with_reducible apply Keeps.foldl | intro _))

theorem State.setForce_keeps {s₀ : State} (s : State) (c : CtxId) (p : CP) (v : Int) (hk : Keeps s₀ s) : Keeps s₀ (State.setForce s c p v) := by
  unfold State.setForce
  iterate 5 (
    repeat (first | with_reducible assumption | with_reducible apply State.modCtx_keeps | with_reducible apply Keeps.ite | with_reducible apply Keeps.foldl | intro _))

theorem State.setPhForce_keeps {s₀ : State} (s : State) (p : PhaseId) (e : PP) (v : Int) (hk : Keeps s₀ s) : Keeps s₀ (State.setPhForce s p e v) := by
  unfold State.setPhForce
  iterate 5 (
    repeat (first | with_reducible assumption | with_reducible apply State.modPh_keeps | with_reducible apply Keeps.ite | with_reducible apply Keeps.foldl | intro _))

theorem State.setGlobForce_keeps {s₀ : State} (s : State) (g : GP) (v : Int) (hk : Keeps s₀ s) : Keeps s₀ (State.setGlobForce s g v) := by
  unfold State.setGlobForce
  iterate 5 (
    all_goals (try ((with_reducible apply Keeps.lit); (case h1 => exact rfl); (case h2 => exact rfl); (case h3 => exact rfl); (case h4 => exact rfl); (case h5 => exact rfl)))
    repeat (first | with_reducible assumption | with_reducible apply Keeps.ite | with_reducible apply Keeps.foldl | intro _))

theorem State.landAll_keeps {s₀ : State} (s : State) (a : Act) (tag : Nat) (hk : Keeps s₀ s) : Keeps s₀ (State.landAll s a tag) := by
  unfold State.landAll
  iterate 5 (
    repeat (first | with_reducible assumption | with_reducible apply State.halves_keeps | with_reducible apply Keeps.ite | with_reducible apply Keeps.foldl | intro _))

theorem State.modeApply_keeps {s₀ : State} (s : State) (c : CtxId) (v : Int) (tag : Nat) (hk : Keeps s₀ s) : Keeps s₀ (State.modeApply s c v tag) := by
  unfold State.modeApply
  iterate 5 (
    repeat (first | with_reducible assumption | with_reducible apply State.flush_keeps | with_reducible apply State.modCtx_keeps | with_reducible apply Keeps.ite | with_reducible apply Keeps.foldl | intro _))

theorem State.ctxApply_keeps {s₀ : State} (s : State) (c : CtxId) (p : CP) (v : Int) (tag : Nat) (hk : Keeps s₀ s) : Keeps s₀ (State.ctxApply s c p v tag) := by
  unfold State.ctxApply
  iterate 5 (
    repeat (first | with_reducible assumption | with_reducible apply State.modeApply_keeps | with_reducible apply State.landAll_keeps | with_reducible apply State.setForce_keeps | with_reducible apply State.followGroup_keeps | with_reducible apply State.forceTargets_keeps | with_reducible apply State.tripFollow_keeps | with_reducible apply State.modChan_keeps | with_reducible apply State.modCtx_keeps | with_reducible apply Keeps.ite | with_reducible apply Keeps.foldl | intro _)
    all_goals (try ((with_reducible apply Keeps.lit); (case h1 => exact rfl); (case h2 => exact rfl); (case h3 => exact rfl); (case h4 => exact rfl); (case h5 => exact rfl)))
    all_goals (try split))

theorem State.swapApply_keeps {s₀ : State} (s : State) (c : CtxId) (hk : Keeps s₀ s) : Keeps s₀ (State.swapApply s c) := by
  unfold State.swapApply
  iterate 5 (
    repeat (first | with_reducible assumption | with_reducible apply State.halves_keeps | with_reducible apply State.modCtx_keeps | with_reducible apply Keeps.ite | with_reducible apply Keeps.foldl | intro _))

theorem State.phApply_keeps {s₀ : State} (s : State) (p : PhaseId) (e : PP) (v : Int) (tag : Nat) (hk : Keeps s₀ s) : Keeps s₀ (State.phApply s p e v tag) := by
  unfold State.phApply
  iterate 5 (
    repeat (first | with_reducible assumption | with_reducible apply State.shutPhase_keeps | with_reducible apply State.unshutPhase_keeps | with_reducible apply State.landAll_keeps | with_reducible apply State.setPhForce_keeps | with_reducible apply State.modHs_keeps | with_reducible apply State.modPh_keeps | with_reducible apply Keeps.ite | with_reducible apply Keeps.foldl | intro _)
    all_goals (try ((with_reducible apply Keeps.lit); (case h1 => exact rfl); (case h2 => exact rfl); (case h3 => exact rfl); (case h4 => exact rfl); (case h5 => exact rfl)))
    all_goals (try dsimp only)
    all_goals (try split))

theorem State.tarnApply_keeps {s₀ : State} (s : State) (old : Int) (hk : Keeps s₀ s) : Keeps s₀ (State.tarnApply s old) := by
  unfold State.tarnApply
  iterate 5 (
    all_goals (try ((with_reducible apply Keeps.lit); (case h1 => exact rfl); (case h2 => exact rfl); (case h3 => exact rfl); (case h4 => exact rfl); (case h5 => exact rfl)))
    repeat (first | with_reducible assumption | with_reducible apply Keeps.ite | with_reducible apply Keeps.foldl | intro _))

theorem State.globApply_keeps {s₀ : State} (s : State) (g : GP) (v : Int) (hk : Keeps s₀ s) : Keeps s₀ (State.globApply s g v) := by
  unfold State.globApply
  iterate 5 (
    repeat (first | with_reducible assumption | with_reducible apply State.tarnApply_keeps | with_reducible apply State.setGlobForce_keeps | with_reducible apply State.zoneFollow_keeps | with_reducible apply State.ftCfgApply_keeps | with_reducible apply State.cragConfig_keeps | with_reducible apply State.followGroups_keeps | with_reducible apply State.await_keeps | with_reducible apply State.offCmd_keeps | with_reducible apply Keeps.ite | with_reducible apply Keeps.foldl | intro _)
    all_goals (try ((with_reducible apply Keeps.lit); (case h1 => exact rfl); (case h2 => exact rfl); (case h3 => exact rfl); (case h4 => exact rfl); (case h5 => exact rfl)))
    all_goals (try split))

theorem State.enterRun_keeps {s₀ : State} (s : State) (hk : Keeps s₀ s) : Keeps s₀ (State.enterRun s) := by
  unfold State.enterRun
  iterate 5 (
    repeat (first | with_reducible assumption | with_reducible apply State.setGlobForce_keeps | with_reducible apply State.goto_keeps | with_reducible apply State.modCtx_keeps | with_reducible apply Keeps.ite | with_reducible apply Keeps.foldl | intro _)
    all_goals (try ((with_reducible apply Keeps.lit); (case h1 => exact rfl); (case h2 => exact rfl); (case h3 => exact rfl); (case h4 => exact rfl); (case h5 => exact rfl)))
    repeat (first | with_reducible assumption | with_reducible apply State.setGlobForce_keeps | with_reducible apply State.goto_keeps | with_reducible apply State.modCtx_keeps | with_reducible apply Keeps.ite | with_reducible apply Keeps.foldl | intro _))

theorem State.startRundown_keeps {s₀ : State} (s : State) (hk : Keeps s₀ s) : Keeps s₀ (State.startRundown s) := by
  unfold State.startRundown
  iterate 5 (
    repeat (first | with_reducible assumption | with_reducible apply State.pgDrop_keeps | with_reducible apply State.offCmd_keeps | with_reducible apply Keeps.ite | with_reducible apply Keeps.foldl | intro _)
    all_goals (try ((with_reducible apply Keeps.lit); (case h1 => exact rfl); (case h2 => exact rfl); (case h3 => exact rfl); (case h4 => exact rfl); (case h5 => exact rfl)))
    repeat (first | with_reducible assumption | with_reducible apply State.pgDrop_keeps | with_reducible apply State.offCmd_keeps | with_reducible apply Keeps.ite | with_reducible apply Keeps.foldl | intro _))

theorem State.runApply_keeps {s₀ : State} (s : State) (on : Bool) (hk : Keeps s₀ s) : Keeps s₀ (State.runApply s on) := by
  unfold State.runApply
  iterate 5 (
    repeat (first | with_reducible assumption | with_reducible apply State.startRundown_keeps | with_reducible apply State.enterRun_keeps | with_reducible apply State.move_keeps | with_reducible apply Keeps.ite | with_reducible apply Keeps.foldl | intro _)
    all_goals (try ((with_reducible apply Keeps.lit); (case h1 => exact rfl); (case h2 => exact rfl); (case h3 => exact rfl); (case h4 => exact rfl); (case h5 => exact rfl)))
    repeat (first | with_reducible assumption | with_reducible apply State.startRundown_keeps | with_reducible apply State.enterRun_keeps | with_reducible apply State.move_keeps | with_reducible apply Keeps.ite | with_reducible apply Keeps.foldl | intro _)
    all_goals (try dsimp only))

theorem State.safeClrApply_keeps {s₀ : State} (s : State) (hk : Keeps s₀ s) : Keeps s₀ (State.safeClrApply s) := by
  unfold State.safeClrApply
  iterate 5 (
    repeat (first | with_reducible assumption | with_reducible apply State.noHalf_keeps | with_reducible apply State.goto_keeps | with_reducible apply State.move_keeps | with_reducible apply Keeps.ite | with_reducible apply Keeps.foldl | intro _)
    all_goals (try ((with_reducible apply Keeps.lit); (case h1 => exact rfl); (case h2 => exact rfl); (case h3 => exact rfl); (case h4 => exact rfl); (case h5 => exact rfl)))
    repeat (first | with_reducible assumption | with_reducible apply State.noHalf_keeps | with_reducible apply State.goto_keeps | with_reducible apply State.move_keeps | with_reducible apply Keeps.ite | with_reducible apply Keeps.foldl | intro _))

theorem State.faultClearApply_keeps {s₀ : State} (s : State) (c : CtxId) (hk : Keeps s₀ s) : Keeps s₀ (State.faultClearApply s c) := by
  unfold State.faultClearApply
  iterate 5 (
    repeat (first | with_reducible assumption | with_reducible apply State.releasedEvent_keeps | with_reducible apply State.modPh_keeps | with_reducible apply State.modCtx_keeps | with_reducible apply Keeps.ite | with_reducible apply Keeps.foldl | intro _))

theorem State.swClear_keeps {s₀ : State} (s : State) (c : CtxId) (hk : Keeps s₀ s) : Keeps s₀ (State.swClear s c) := by
  unfold State.swClear
  iterate 5 (
    repeat (first | with_reducible assumption | with_reducible apply State.releasedEvent_keeps | with_reducible apply State.tryRelease_keeps | with_reducible apply State.modChan_keeps | with_reducible apply State.modCtx_keeps | with_reducible apply Keeps.ite | with_reducible apply Keeps.foldl | intro _))

theorem State.swApply_keeps {s₀ : State} (s : State) (c : CtxId) (on clear : Bool) (hk : Keeps s₀ s) : Keeps s₀ (State.swApply s c on clear) := by
  unfold State.swApply
  iterate 5 (
    repeat (first | with_reducible assumption | with_reducible apply State.swClear_keeps | with_reducible apply State.offCmd_keeps | with_reducible apply State.onCmd_keeps | with_reducible apply Keeps.ite | with_reducible apply Keeps.foldl | intro _))

theorem State.quarRelease_keeps {s₀ : State} (s : State) (c : CtxId) (hk : Keeps s₀ s) : Keeps s₀ (State.quarRelease s c) := by
  unfold State.quarRelease
  iterate 5 (
    repeat (first | with_reducible assumption | with_reducible apply State.releasedEvent_keeps | with_reducible apply State.modCtx_keeps | with_reducible apply Keeps.ite | with_reducible apply Keeps.foldl | intro _))

theorem State.traceBegin_keeps {s₀ : State} (s : State) (c : CtxId) (w : Word) (hk : Keeps s₀ s) : Keeps s₀ (State.traceBegin s c w) := by
  unfold State.traceBegin
  iterate 5 (
    repeat (first | with_reducible assumption | with_reducible apply State.modCtx_keeps | with_reducible apply Keeps.ite | with_reducible apply Keeps.foldl | intro _))

theorem State.fwApply_keeps {s₀ : State} (s : State) (op : Nat) (hk : Keeps s₀ s) : Keeps s₀ (s.fwApply op) := by
  unfold State.fwApply
  split
  · exact hk.same rfl rfl rfl rfl rfl
  · rename_i h _
    refine Keeps.ite (hk.same rfl rfl rfl rfl rfl) ?_
    extract_lets l1 s1
    have k1 : Keeps s₀ s1 := hk.same rfl rfl rfl rfl rfl
    clear_value s1
    split
    · exact k1.sum _ (Nat.le_of_eq (congrArg BitVec.toNat (Summit.eraseBank_floor _ _).symm))
    · exact State.loseElig_keeps _ _ _ k1
    · exact k1

theorem State.handoverApply_keeps {s₀ : State} (s : State) (hk : Keeps s₀ s) : Keeps s₀ (State.handoverApply s) := by
  unfold State.handoverApply
  iterate 5 (
    repeat (first | with_reducible assumption | with_reducible apply State.requestRelease_keeps | with_reducible apply State.endRelease_keeps | with_reducible apply Keeps.ite | with_reducible apply Keeps.foldl | intro _)
    all_goals (try ((with_reducible apply Keeps.lit); (case h1 => exact rfl); (case h2 => exact rfl); (case h3 => exact rfl); (case h4 => exact rfl); (case h5 => exact rfl)))
    all_goals (try split))

theorem State.retryResetApply_keeps {s₀ : State} (s : State) (c : CtxId) (hk : Keeps s₀ s) : Keeps s₀ (State.retryResetApply s c) := by
  unfold State.retryResetApply
  iterate 5 (
    repeat (first | with_reducible assumption | with_reducible apply State.modCtx_keeps | with_reducible apply Keeps.ite | with_reducible apply Keeps.foldl | intro _))

theorem State.calStart_keeps {s₀ : State} (s : State) (hk : Keeps s₀ s) : Keeps s₀ (State.calStart s) := by
  unfold State.calStart
  iterate 5 (
    repeat (first | with_reducible assumption | with_reducible apply Keeps.ite | with_reducible apply Keeps.foldl | intro _)
    all_goals (try ((with_reducible apply Keeps.lit); (case h1 => exact rfl); (case h2 => exact rfl); (case h3 => exact rfl); (case h4 => exact rfl); (case h5 => exact rfl)))
    repeat (first | with_reducible assumption | with_reducible apply Keeps.ite | with_reducible apply Keeps.foldl | intro _)
    all_goals (try dsimp only)
    all_goals (try split))

theorem State.apply_keeps {s₀ : State} (s : State) (now : List Commit) (tag : Nat) (a : Act) (hk : Keeps s₀ s) : Keeps s₀ (State.apply s now tag a) := by
  unfold State.apply
  iterate 5 (
    repeat (first | with_reducible assumption | with_reducible apply State.calStart_keeps | with_reducible apply State.retryResetApply_keeps | with_reducible apply State.handoverApply_keeps | with_reducible apply State.fwApply_keeps | with_reducible apply State.traceBegin_keeps | with_reducible apply State.quarRelease_keeps | with_reducible apply State.swApply_keeps | with_reducible apply State.faultClearApply_keeps | with_reducible apply State.safeClrApply_keeps | with_reducible apply State.runApply_keeps | with_reducible apply State.globApply_keeps | with_reducible apply State.phApply_keeps | with_reducible apply State.swapApply_keeps | with_reducible apply State.ctxApply_keeps | with_reducible apply State.landAll_keeps | with_reducible apply State.ftArmApply_keeps | with_reducible apply State.resolveApply_keeps | with_reducible apply State.resolve_keeps | with_reducible apply State.take_keeps | with_reducible apply State.tallySub_keeps | with_reducible apply State.modSched_keeps | with_reducible apply State.halves_keeps | with_reducible apply State.modChan_keeps | with_reducible apply State.modPh_keeps | with_reducible apply State.modCtx_keeps | with_reducible apply Keeps.ite | with_reducible apply Keeps.foldl | intro _)
    all_goals (try ((with_reducible apply Keeps.lit); (case h1 => exact rfl); (case h2 => exact rfl); (case h3 => exact rfl); (case h4 => exact rfl); (case h5 => exact rfl)))
    repeat (first | with_reducible assumption | with_reducible apply State.calStart_keeps | with_reducible apply State.retryResetApply_keeps | with_reducible apply State.handoverApply_keeps | with_reducible apply State.fwApply_keeps | with_reducible apply State.traceBegin_keeps | with_reducible apply State.quarRelease_keeps | with_reducible apply State.swApply_keeps | with_reducible apply State.faultClearApply_keeps | with_reducible apply State.safeClrApply_keeps | with_reducible apply State.runApply_keeps | with_reducible apply State.globApply_keeps | with_reducible apply State.phApply_keeps | with_reducible apply State.swapApply_keeps | with_reducible apply State.ctxApply_keeps | with_reducible apply State.landAll_keeps | with_reducible apply State.ftArmApply_keeps | with_reducible apply State.resolveApply_keeps | with_reducible apply State.resolve_keeps | with_reducible apply State.take_keeps | with_reducible apply State.tallySub_keeps | with_reducible apply State.modSched_keeps | with_reducible apply State.halves_keeps | with_reducible apply State.modChan_keeps | with_reducible apply State.modPh_keeps | with_reducible apply State.modCtx_keeps | with_reducible apply Keeps.ite | with_reducible apply Keeps.foldl | intro _)
    all_goals (try dsimp only)
    all_goals (try split))

theorem State.missed_keeps {s₀ : State} (before s : State) (writes : Bool) (h : HalfId) (hk : Keeps s₀ s) :
    Keeps s₀ (State.missed before s writes h) := by
  have k1 : Keeps s₀ (s.setHalf h (before.half h)) := State.setHalf_keeps _ _ _ hk
  unfold State.missed
  dsimp only
  exact Keeps.ite (State.loseElig_keeps _ _ _ k1) hk

theorem State.place_keeps {s₀ : State} (s : State) (x : Slot) (v : Int) (hk : Keeps s₀ s) : Keeps s₀ (State.place s x v) := by
  unfold State.place
  iterate 5 (
    repeat (first | with_reducible assumption | with_reducible apply State.setGlobForce_keeps | with_reducible apply State.setPhForce_keeps | with_reducible apply State.setForce_keeps | with_reducible apply State.setGlobNew_keeps | with_reducible apply State.setPhNew_keeps | with_reducible apply State.setNew_keeps | with_reducible apply State.halves_keeps | with_reducible apply Keeps.ite | with_reducible apply Keeps.foldl | intro _)
    all_goals (try ((with_reducible apply Keeps.lit); (case h1 => exact rfl); (case h2 => exact rfl); (case h3 => exact rfl); (case h4 => exact rfl); (case h5 => exact rfl)))
    all_goals (try split))

theorem State.resetBlock_keeps {s₀ : State} (s : State) (b : Nat) (hk : Keeps s₀ s) : Keeps s₀ (State.resetBlock s b) := by
  unfold State.resetBlock
  iterate 5 (
    repeat (first | with_reducible assumption | with_reducible apply State.halves_keeps | with_reducible apply State.modPh_keeps | with_reducible apply State.modCtx_keeps | with_reducible apply Keeps.ite | with_reducible apply Keeps.foldl | intro _)
    all_goals (try ((with_reducible apply Keeps.lit); (case h1 => exact rfl); (case h2 => exact rfl); (case h3 => exact rfl); (case h4 => exact rfl); (case h5 => exact rfl)))
    repeat (first | with_reducible assumption | with_reducible apply State.halves_keeps | with_reducible apply State.modPh_keeps | with_reducible apply State.modCtx_keeps | with_reducible apply Keeps.ite | with_reducible apply Keeps.foldl | intro _)
    all_goals (try dsimp only)
    all_goals (try split))

theorem State.restorePair_keeps {s₀ : State} (x : State × List Nat) (p : Pair) (hk : Keeps s₀ x.1) : Keeps s₀ (State.restorePair x p).1 := by
  unfold State.restorePair
  split
  · exact hk
  · split
    · exact State.place_keeps _ _ _ hk
    · exact hk

theorem State.resetMode_keeps {s₀ : State} (s : State) (b : Nat) (hk : Keeps s₀ s) : Keeps s₀ (State.resetMode s b) := by
  unfold State.resetMode
  iterate 5 (
    repeat (first | with_reducible assumption | with_reducible apply State.setForce_keeps | with_reducible apply State.setNew_keeps | with_reducible apply Keeps.ite | with_reducible apply Keeps.foldl | intro _)
    all_goals (try ((with_reducible apply Keeps.lit); (case h1 => exact rfl); (case h2 => exact rfl); (case h3 => exact rfl); (case h4 => exact rfl); (case h5 => exact rfl)))
    all_goals (try dsimp only)
    all_goals (try split))

theorem State.judgeBlock_keeps {s₀ : State} (l : List Pair) (marked : List Nat) (x : State × List Nat) (b : Nat) (hk : Keeps s₀ x.1) :
    Keeps s₀ (State.judgeBlock l marked x b).1 := by
  unfold State.judgeBlock
  split
  · exact State.resetMode_keeps _ _ hk
  · exact hk

theorem State.dropBlock_keeps {s₀ : State} (s : State) (b : Nat) (hk : Keeps s₀ s) : Keeps s₀ (State.dropBlock s b) := by
  unfold State.dropBlock
  iterate 5 (
    repeat (first | with_reducible assumption | with_reducible apply State.resetBlock_keeps | with_reducible apply State.summaryFree_keeps | with_reducible apply Keeps.ite | with_reducible apply Keeps.foldl | intro _)
    all_goals (try ((with_reducible apply Keeps.lit); (case h1 => exact rfl); (case h2 => exact rfl); (case h3 => exact rfl); (case h4 => exact rfl); (case h5 => exact rfl)))
    repeat (first | with_reducible assumption | with_reducible apply State.resetBlock_keeps | with_reducible apply State.summaryFree_keeps | with_reducible apply Keeps.ite | with_reducible apply Keeps.foldl | intro _))

theorem State.restorePairs_keeps {s₀ : State} (s : State) (l : List Pair) (hk : Keeps s₀ s) : Keeps s₀ (s.restorePairs l) := by
  have f {α : Type} (g : State × List Nat → α → State × List Nat) (hg : ∀ x p, Keeps s₀ x.1 → Keeps s₀ (g x p).1) (m : List α)
      (x : State × List Nat) (h : Keeps s₀ x.1) : Keeps s₀ (m.foldl g x).1 := by
    induction m generalizing x with
    | nil => exact h
    | cons p m ih => exact ih _ (hg x p h)
  exact Keeps.foldl (f _ State.restorePair_keeps l _ hk) (fun _ _ h => State.dropBlock_keeps _ _ h) _

theorem State.resetEntries_keeps {s₀ : State} (s : State) (hk : Keeps s₀ s) : Keeps s₀ (State.resetEntries s) := by
  unfold State.resetEntries
  iterate 5 (
    repeat (first | with_reducible assumption | with_reducible apply State.resetBlock_keeps | with_reducible apply State.halves_keeps | with_reducible apply Keeps.ite | with_reducible apply Keeps.foldl | intro _)
    all_goals (try ((with_reducible apply Keeps.lit); (case h1 => exact rfl); (case h2 => exact rfl); (case h3 => exact rfl); (case h4 => exact rfl); (case h5 => exact rfl)))
    repeat (first | with_reducible assumption | with_reducible apply State.resetBlock_keeps | with_reducible apply State.halves_keeps | with_reducible apply Keeps.ite | with_reducible apply Keeps.foldl | intro _))

theorem State.writeRun_keeps {s₀ : State} (s : State) (i : Iface) (v : Nat) (hk : Keeps s₀ s) : Keeps s₀ (State.writeRun s i v) := by
  unfold State.writeRun
  iterate 5 (
    repeat (first | with_reducible assumption | with_reducible apply State.writeReg_keeps | with_reducible apply Keeps.ite | with_reducible apply Keeps.foldl | intro _))

theorem State.readReg_keeps {s₀ : State} (s : State) (i : Iface) (x : Slot) (hk : Keeps s₀ s) : Keeps s₀ (State.readReg s i x) := by
  unfold State.readReg
  iterate 5 (
    repeat (first | with_reducible assumption | with_reducible apply State.readEffect_keeps | with_reducible apply Keeps.ite | with_reducible apply Keeps.foldl | intro _)
    all_goals (try ((with_reducible apply Keeps.lit); (case h1 => exact rfl); (case h2 => exact rfl); (case h3 => exact rfl); (case h4 => exact rfl); (case h5 => exact rfl)))
    repeat (first | with_reducible assumption | with_reducible apply State.readEffect_keeps | with_reducible apply Keeps.ite | with_reducible apply Keeps.foldl | intro _))

theorem State.answer_keeps {s₀ : State} (s : State) (r : Req) (answer detail : Nat) (data : List Word) (hk : Keeps s₀ s) :
    Keeps s₀ (s.answer r answer detail data) := by
  have k1 := State.respond_keeps s r answer detail data hk
  unfold State.answer
  extract_lets t
  split
  · split
    · exact k1.same rfl rfl rfl (Mbox.modSlot_events_same _ _ _) rfl
    · exact k1
  · exact k1

theorem State.refused_keeps {s₀ : State} (s : State) (r : Req) (answer : Nat) (hk : Keeps s₀ s) : Keeps s₀ (State.refused s r answer) := by
  unfold State.refused
  iterate 5 (
    repeat (first | with_reducible assumption | with_reducible apply State.answer_keeps | with_reducible apply Keeps.ite | with_reducible apply Keeps.foldl | intro _))

theorem State.pmbPut_keeps {s₀ : State} (s : State) (code : Nat) (x : Slot) (w : Word) (hk : Keeps s₀ s) : Keeps s₀ (State.pmbPut s code x w) := by
  unfold State.pmbPut
  iterate 5 (
    repeat (first | with_reducible assumption | with_reducible apply State.pmbRefuse_keeps | with_reducible apply State.accept_keeps | with_reducible apply Keeps.ite | with_reducible apply Keeps.foldl | intro _))

theorem State.pagedPut_keeps {s₀ : State} (s : State) (code page : Nat) (f : State → CtxId → Option (Slot × Word)) (hk : Keeps s₀ s) :
    Keeps s₀ (s.pagedPut code page f) := by
  unfold State.pagedPut
  split
  · exact State.pmbRefuse_keeps _ _ _ hk
  · refine Keeps.foldl hk (fun t c h => ?_) _
    split
    · exact State.pmbRefuse_keeps _ _ _ h
    · exact State.pmbPut_keeps _ _ _ _ h

theorem State.operationPut_keeps {s₀ : State} (s : State) (j : PmbJob) (hk : Keeps s₀ s) : Keeps s₀ (s.operationPut j) := by
  unfold State.operationPut
  exact Keeps.ite (State.pmbRefuse_keeps _ _ _ hk) (State.pagedPut_keeps _ _ _ _ hk)

theorem State.clearFaultsPut_keeps {s₀ : State} (s : State) (j : PmbJob) (hk : Keeps s₀ s) : Keeps s₀ (s.clearFaultsPut j) := by
  have k1 := State.pagedPut_keeps s 0x03 j.page (fun _ c => some (.creg c .faultStatus, 0x3FFF)) hk
  exact k1.same rfl rfl rfl rfl rfl

theorem State.storeUserPut_keeps {s₀ : State} (s : State) (hk : Keeps s₀ s) : Keeps s₀ (s.storeUserPut) := by
  unfold State.storeUserPut
  exact Keeps.ite (State.pmbRefuse_keeps _ _ _ hk) (State.startHost_keeps _ _ _ hk)

theorem State.voutCommandPut_keeps {s₀ : State} (s : State) (j : PmbJob) (hk : Keeps s₀ s) : Keeps s₀ (s.voutCommandPut j) := by
  exact State.pagedPut_keeps _ _ _ _ hk

theorem State.voutRatePut_keeps {s₀ : State} (s : State) (j : PmbJob) (hk : Keeps s₀ s) : Keeps s₀ (s.voutRatePut j) := by
  exact State.pagedPut_keeps _ _ _ _ hk

theorem State.paramValuePut_keeps {s₀ : State} (s : State) (j : PmbJob) (hk : Keeps s₀ s) : Keeps s₀ (s.paramValuePut j) := by
  have k1 := State.writeIndex_keeps s .pmb j.index (word (leAt j.bytes 1 4)) none hk
  unfold State.paramValuePut
  extract_lets y
  have k1 : Keeps s₀ y.1 := k1
  clear_value y
  exact Keeps.ite k1 (State.pmbRefuse_keeps _ _ _ k1)

theorem State.runJob_keeps {s₀ : State} (s : State) (j : PmbJob) (hk : Keeps s₀ s) : Keeps s₀ (s.runJob j) := by
  unfold State.runJob
  split
  · exact State.operationPut_keeps s j hk
  · exact State.clearFaultsPut_keeps s j hk
  · exact State.storeUserPut_keeps s hk
  · exact State.voutCommandPut_keeps s j hk
  · exact State.voutRatePut_keeps s j hk
  · exact State.paramValuePut_keeps s j hk
  · exact hk

theorem State.nextJob_keeps {s₀ : State} (s : State) (hk : Keeps s₀ s) : Keeps s₀ (s.nextJob) := by
  unfold State.nextJob
  split
  · exact hk
  · exact State.runJob_keeps _ _ (hk.same rfl rfl rfl rfl rfl)

theorem State.drain_keeps {s₀ : State} (s : State) (l : List Req) (hk : Keeps s₀ s) : Keeps s₀ (s.drain l) := by
  induction l generalizing s with
  | nil => exact hk
  | cons r rest ih =>
    unfold State.drain
    extract_lets m t
    have k1 : Keeps s₀ t := hk.same rfl rfl rfl rfl rfl
    clear_value t
    exact Keeps.ite hk (Keeps.ite (ih _ (State.nextJob_keeps _ k1)) (Keeps.ite hk (ih _ (State.refused_keeps _ _ _ k1))))

theorem State.turnOver_keeps {s₀ : State} (s : State) (hk : Keeps s₀ s) : Keeps s₀ (s.turnOver) := by
  unfold State.turnOver
  exact Keeps.ite hk (State.drain_keeps _ _ hk)

theorem State.pmbWrite_keeps {s₀ : State} (s : State) (code : Nat) (bs : List Byte) (hk : Keeps s₀ s) : Keeps s₀ (s.pmbWrite code bs) := by
  have k1 := State.drain_keeps s s.mb.queue hk
  unfold State.pmbWrite
  extract_lets j s1
  have k1 : Keeps s₀ s1 := k1
  clear_value s1
  exact Keeps.ite (State.runJob_keeps _ _ k1) (k1.same rfl rfl rfl rfl rfl)

theorem State.serve_keeps {s₀ : State} (s : State) (cmd : Nat) (boxes : Boxes) (narg : Nat → Bool)
    (body : Req → Slot64 → State → State) (hk : Keeps s₀ s) (hb : ∀ r x t, Keeps s₀ t → Keeps s₀ (body r x t)) :
    Keeps s₀ (s.serve cmd boxes narg body) := by
  have k1 := State.drain_keeps s s.mb.queue hk
  unfold State.serve
  refine Keeps.ite hk ?_
  extract_lets s1 jobs m
  have k1 : Keeps s₀ s1 := k1
  clear_value s1
  split
  · exact k1
  · extract_lets x s2 t
    refine Keeps.ite k1 ?_
    have k2 : Keeps s₀ s2 := k1.same rfl rfl rfl rfl rfl
    clear_value s2
    have k3 : Keeps s₀ t := Keeps.ite (State.refused_keeps _ _ _ k2) (hb _ _ _ k2)
    clear_value t
    exact Keeps.ite k3 (State.drain_keeps _ _ k3)

theorem State.deferStep_keeps {s₀ : State} (s : State) (hk : Keeps s₀ s) : Keeps s₀ (State.deferStep s) := by
  unfold State.deferStep
  iterate 5 (
    repeat (first | with_reducible assumption | with_reducible apply Keeps.ite | with_reducible apply Keeps.foldl | intro _)
    all_goals (try ((with_reducible apply Keeps.lit); (case h1 => exact rfl); (case h2 => exact rfl); (case h3 => exact rfl); (case h4 => exact rfl); (case h5 => exact rfl)))
    repeat (first | with_reducible assumption | with_reducible apply Keeps.ite | with_reducible apply Keeps.foldl | intro _)
    all_goals (try dsimp only))

theorem State.startRecord_keeps {s₀ : State} (s : State) (hk : Keeps s₀ s) : Keeps s₀ (State.startRecord s) := by
  unfold State.startRecord
  iterate 5 (
    repeat (first | with_reducible assumption | with_reducible apply State.eraseAhead_keeps | with_reducible apply State.makeRoom_keeps | with_reducible apply Keeps.ite | with_reducible apply Keeps.foldl | intro _)
    all_goals (try ((with_reducible apply Keeps.lit); (case h1 => exact rfl); (case h2 => exact rfl); (case h3 => exact rfl); (case h4 => exact rfl); (case h5 => exact rfl)))
    repeat (first | with_reducible assumption | with_reducible apply State.eraseAhead_keeps | with_reducible apply State.makeRoom_keeps | with_reducible apply Keeps.ite | with_reducible apply Keeps.foldl | intro _)
    all_goals (try dsimp only)
    all_goals (try split))

theorem State.routineTurns_keeps {s₀ : State} (n : Nat) (s : State) (hk : Keeps s₀ s) : Keeps s₀ (State.routineTurns n s) := by
  induction n generalizing s with
  | zero => exact hk
  | succ n ih =>
    unfold State.routineTurns
    have kp (t : State) (h : Keeps s₀ t) : Keeps s₀ { t with nv := t.nv.popRoutine } := h.same rfl rfl rfl rfl rfl
    split
    · exact Keeps.ite (Keeps.ite (ih _ (kp _ hk)) (State.queueEntries_keeps _ hk)) hk
    · exact ih _ (State.putBp_keeps _ (kp _ hk))
    · exact hk

theorem State.routineTurn_keeps {s₀ : State} (s : State) (hk : Keeps s₀ s) : Keeps s₀ (State.routineTurn s) :=
  State.routineTurns_keeps _ _ hk

theorem State.startWork_keeps {s₀ : State} (s : State) (w : Work) (hk : Keeps s₀ s) : Keeps s₀ (State.startWork s w) := by
  unfold State.startWork
  iterate 5 (
    repeat (first | with_reducible assumption | with_reducible apply State.startRecord_keeps | with_reducible apply State.makeRoom_keeps | with_reducible apply Keeps.ite | with_reducible apply Keeps.foldl | intro _)
    all_goals (try ((with_reducible apply Keeps.lit); (case h1 => exact rfl); (case h2 => exact rfl); (case h3 => exact rfl); (case h4 => exact rfl); (case h5 => exact rfl)))
    repeat (first | with_reducible assumption | with_reducible apply State.startRecord_keeps | with_reducible apply State.makeRoom_keeps | with_reducible apply Keeps.ite | with_reducible apply Keeps.foldl | intro _)
    all_goals (try dsimp only)
    all_goals (try split))

theorem State.engineStep_keeps {s₀ : State} (s : State) (hk : Keeps s₀ s) : Keeps s₀ (State.engineStep s) := by
  unfold State.engineStep
  iterate 5 (
    repeat (first | with_reducible assumption | with_reducible apply State.startWork_keeps | with_reducible apply State.routineTurn_keeps | with_reducible apply State.deferStep_keeps | with_reducible apply Keeps.ite | with_reducible apply Keeps.foldl | intro _)
    all_goals (try ((with_reducible apply Keeps.lit); (case h1 => exact rfl); (case h2 => exact rfl); (case h3 => exact rfl); (case h4 => exact rfl); (case h5 => exact rfl)))
    all_goals (try dsimp only)
    all_goals (try split))

theorem State.hostRecord_keeps {s₀ : State} (s : State) (typ ident : Nat) (b : List Byte) (hk : Keeps s₀ s) :
    Keeps s₀ (State.hostRecord s typ ident b) := State.recordDone_keeps _ _ _ _ (State.putRecord_keeps _ _ _ _ _ _ hk)

theorem State.putRequest_keeps {s₀ : State} (s : State) (r : CairnReq) (hk : Keeps s₀ s) : Keeps s₀ (s.putRequest r) := by
  unfold State.putRequest
  split
  · extract_lets n s1
    have k1 : Keeps s₀ s1 := State.cairnPut_keeps _ _ _ _ _ hk
    clear_value s1
    exact k1.same rfl rfl rfl rfl rfl
  · rename_i k _
    split
    · rename_i h
      have kp := State.snapshotPayload_keeps s ⟨r.source.val, h⟩ k.val hk
      dsimp only
      generalize s.snapshotPayload ⟨r.source.val, h⟩ k.val = p at kp ⊢
      exact State.modCtx_keeps _ _ _ (State.cairnPut_keeps _ _ _ _ _ kp)
    · exact hk

theorem State.cairnHead_keeps {s₀ : State} (s : State) (hk : Keeps s₀ s) : Keeps s₀ (State.cairnHead s) := by
  unfold State.cairnHead
  split
  · exact hk
  · rename_i r rest e
    extract_lets l1 s1
    have k1 : Keeps s₀ s1 := State.putRequest_keeps _ _ (hk.cairnSet _ (fun h => by rw [e] at h; exact Nat.le_of_lt h))
    clear_value s1
    split
    · exact State.storeTo_keeps _ _ hk (fun h => Store.cairnAhead_wf _ h)
    · split
      · exact State.freeItem_keeps _ _ k1
      · exact k1

theorem State.calOutcome_keeps {s₀ : State} (s : State) (t : CalTarget) (o : CalOut) (hk : Keeps s₀ s) : Keeps s₀ (State.calOutcome s t o) := by
  unfold State.calOutcome
  iterate 5 (
    repeat (first | with_reducible assumption | with_reducible apply State.calEnd_keeps | with_reducible apply Keeps.ite | with_reducible apply Keeps.foldl | intro _)
    all_goals (try ((with_reducible apply Keeps.lit); (case h1 => exact rfl); (case h2 => exact rfl); (case h3 => exact rfl); (case h4 => exact rfl); (case h5 => exact rfl)))
    repeat (first | with_reducible assumption | with_reducible apply State.calEnd_keeps | with_reducible apply Keeps.ite | with_reducible apply Keeps.foldl | intro _)
    all_goals (try dsimp only)
    all_goals (try split))

theorem State.calAccept_keeps {s₀ : State} (s : State) (t : CalTarget) (gain off : Int) (prov : Bool) (hk : Keeps s₀ s) : Keeps s₀ (State.calAccept s t gain off prov) := by
  unfold State.calAccept
  iterate 5 (
    repeat (first | with_reducible assumption | with_reducible apply State.commit_keeps | with_reducible apply Keeps.ite | with_reducible apply Keeps.foldl | intro _)
    all_goals (try ((with_reducible apply Keeps.lit); (case h1 => exact rfl); (case h2 => exact rfl); (case h3 => exact rfl); (case h4 => exact rfl); (case h5 => exact rfl)))
    all_goals (try split))

theorem State.startBoot_keeps {s₀ : State} (s : State) (power : Bool) (hk : Keeps s₀ s) : Keeps s₀ (s.startBoot power) := by
  have k1 : Keeps s₀ (if power then s else ctxIds.foldl (fun s c => s.offCmd c) s) :=
    Keeps.ite hk (Keeps.foldl hk (fun _ _ h => State.offCmd_keeps _ _ h) _)
  unfold State.startBoot
  extract_lets s1 b d m t
  have k1 : Keeps s₀ s1 := k1
  clear_value s1
  have k2 : Keeps s₀ t := by
    refine k1.trans ⟨rfl, Nat.le_refl _, id, fun _ => Nat.zero_le _, fun h => ?_⟩
    show ((if power then _ else _ : CairnS)).queue.length ≤ 16
    split
    · exact Nat.zero_le _
    · exact h
  clear_value t
  exact Keeps.foldl (State.cragConfig_keeps _ k2) (fun _ _ h => State.tripFollow_keeps _ _ h) _

theorem State.toBoot_keeps {s₀ : State} (s : State) (hk : Keeps s₀ s) : Keeps s₀ (State.toBoot s) := by
  unfold State.toBoot
  iterate 5 (
    repeat (first | with_reducible assumption | with_reducible apply State.startBoot_keeps | with_reducible apply State.event_keeps | with_reducible apply Keeps.ite | with_reducible apply Keeps.foldl | intro _))

theorem State.toCold_keeps {s₀ : State} (s : State) (hk : Keeps s₀ s) : Keeps s₀ (State.toCold s) := by
  unfold State.toCold
  iterate 5 (
    all_goals (try ((with_reducible apply Keeps.lit); (case h1 => exact rfl); (case h2 => exact rfl); (case h3 => exact rfl); (case h4 => exact rfl); (case h5 => exact rfl)))
    repeat (first | with_reducible assumption | with_reducible apply State.startBoot_keeps | with_reducible apply Keeps.ite | with_reducible apply Keeps.foldl | intro _))

theorem State.cairnScan_keeps {s₀ : State} (s : State) (hk : Keeps s₀ s) : Keeps s₀ (State.cairnScan s) := by
  unfold State.cairnScan
  iterate 5 (
    repeat (first | with_reducible assumption | with_reducible apply Keeps.ite | with_reducible apply Keeps.foldl | intro _)
    all_goals (try ((with_reducible apply Keeps.lit); (case h1 => exact rfl); (case h2 => exact rfl); (case h3 => exact rfl); (case h4 => exact rfl); (case h5 => exact rfl)))
    repeat (first | with_reducible assumption | with_reducible apply Keeps.ite | with_reducible apply Keeps.foldl | intro _)
    all_goals (try dsimp only)
    all_goals (try split))

theorem State.haltHalves_keeps {s₀ : State} (s : State) (hk : Keeps s₀ s) : Keeps s₀ (State.haltHalves s) := by
  unfold State.haltHalves
  iterate 5 (
    repeat (first | with_reducible assumption | with_reducible apply State.modHs_keeps | with_reducible apply Keeps.ite | with_reducible apply Keeps.foldl | intro _))

theorem State.cutRecord_keeps {s₀ : State} (s : State) (a : Area) (typ ident len : Nat) (payload : List Byte) (hk : Keeps s₀ s) :
    Keeps s₀ (State.cutRecord s a typ ident len payload) := by
  unfold State.cutRecord
  exact hk.trans ⟨rfl, Nat.le_refl _, Store.cutOff_wf _ _ _ _, id, id⟩

theorem State.cutWork_keeps {s₀ : State} (s : State) (hk : Keeps s₀ s) : Keeps s₀ (State.cutWork s) := by
  unfold State.cutWork
  iterate 5 (
    repeat (first | with_reducible assumption | with_reducible apply State.cutRecord_keeps | with_reducible apply State.cairnHead_keeps | with_reducible apply State.workDone_keeps | with_reducible apply State.programEntry_keeps | with_reducible apply Keeps.ite | with_reducible apply Keeps.foldl | intro _)
    all_goals (try ((with_reducible apply Keeps.lit); (case h1 => exact rfl); (case h2 => exact rfl); (case h3 => exact rfl); (case h4 => exact rfl); (case h5 => exact rfl)))
    repeat (first | with_reducible assumption | with_reducible apply State.cutRecord_keeps | with_reducible apply State.cairnHead_keeps | with_reducible apply State.workDone_keeps | with_reducible apply State.programEntry_keeps | with_reducible apply Keeps.ite | with_reducible apply Keeps.foldl | intro _)
    all_goals (try dsimp only)
    all_goals (try split))

theorem State.enterHoldup_keeps {s₀ : State} (s : State) (hk : Keeps s₀ s) : Keeps s₀ s.enterHoldup := by
  have k1 : Keeps s₀ (s.applySafe.offCmd 0).cutWork.takeCounts :=
    State.takeCounts_keeps _ (State.cutWork_keeps _ (State.offCmd_keeps _ _ (State.applySafe_keeps _ hk)))
  unfold State.enterHoldup
  generalize (s.applySafe.offCmd 0).cutWork.takeCounts = s1 at k1
  exact State.goto_keeps _ _ (State.haltHalves_keeps _ (k1.same rfl rfl rfl rfl rfl))

theorem State.place64_keeps {s₀ : State} (s : State) (a : Area) (typ ident len : Nat) (payload : List Byte) (hk : Keeps s₀ s) :
    Keeps s₀ (s.place64 a typ ident len payload).1 :=
  hk.same rfl rfl (Store.setPtr_mem _ _ _) rfl rfl

theorem State.placeCairn_keeps {s₀ : State} (s : State) (typ ident len : Nat) (payload : List Byte) (hk : Keeps s₀ s) :
    Keeps s₀ (State.placeCairn s typ ident len payload).1 := by
  have k1 : Keeps s₀ (s.storeTo s.nv.cairnReady) := State.storeTo_keeps _ _ hk (Store.cairnReady_wf _)
  unfold State.placeCairn
  generalize s.storeTo s.nv.cairnReady = t at k1
  exact k1.same rfl rfl rfl rfl rfl

theorem State.gaspEntries_keeps {s₀ : State} (s : State) (hk : Keeps s₀ s) : ∀ t ∈ s.gaspEntries, Keeps s₀ t.1 := by
  unfold State.gaspEntries
  split
  · intro t h; cases h
  · rename_i a rest e
    extract_lets v more b p l1 l2 u1 u2
    have k1 : Keeps s₀ u1 := hk.same rfl rfl rfl rfl rfl
    have k2 : Keeps s₀ u2 := Keeps.ite k1 (State.modCtx_keeps _ _ _ k1)
    clear_value u2
    intro t h; cases h; exact State.tallySub_keeps _ _ _ k2

theorem State.gaspQueue_keeps {s₀ : State} (s : State) (hk : Keeps s₀ s) : ∀ t ∈ s.gaspQueue, Keeps s₀ t.1 := by
  unfold State.gaspQueue
  split
  · intro t h; cases h
  · rename_i r rest e
    extract_lets n l1 u
    have k1 : Keeps s₀ u := hk.cairnSet _ (fun h => by rw [e] at h; exact Nat.le_of_lt h)
    clear_value u
    split
    · intro t h; cases h; exact State.placeCairn_keeps _ _ _ _ _ (k1.same rfl rfl rfl rfl rfl)
    · rename_i k e2
      have kp := State.snapshotPayload_keeps u ⟨r.source.val % 64, by omega⟩ k.val k1
      dsimp only
      generalize u.snapshotPayload ⟨r.source.val % 64, by omega⟩ k.val = p at kp ⊢
      intro t h; cases h; exact State.placeCairn_keeps _ _ _ _ _ kp

theorem State.gaspClose_keeps {s₀ : State} (s : State) (hk : Keeps s₀ s) : ∀ t ∈ s.gaspClose, Keeps s₀ t.1 := by
  unfold State.gaspClose
  split
  · intro t h; cases h
  · intro t h; cases h; exact State.placeCairn_keeps _ _ _ _ _ (hk.same rfl rfl rfl rfl rfl)

theorem State.gaspStageNext_keeps {s₀ : State} (s : State) (hk : Keeps s₀ s) : Keeps s₀ (State.gaspStageNext s) := by
  unfold State.gaspStageNext
  iterate 5 (
    all_goals (try ((with_reducible apply Keeps.lit); (case h1 => exact rfl); (case h2 => exact rfl); (case h3 => exact rfl); (case h4 => exact rfl); (case h5 => exact rfl)))
    repeat (first | with_reducible assumption | with_reducible apply Keeps.ite | with_reducible apply Keeps.foldl | intro _))

theorem State.gaspNext_keeps {s₀ : State} (n : Nat) (s : State) (hk : Keeps s₀ s) : Keeps s₀ (State.gaspNext n s).1 := by
  induction n generalizing s with
  | zero => exact hk
  | succ n ih =>
    unfold State.gaspNext
    extract_lets k o
    have kn (t : State × Nat × List Byte) (h : Keeps s₀ t.1) (m : Option (State × Nat × List Byte)) (e : m = some t) : ∀ u ∈ m, Keeps s₀ u.1 := by
      intro u hu; rw [e] at hu; cases hu; exact h
    have ko : ∀ t ∈ o, Keeps s₀ t.1 := by
      unfold o
      split
      · split
        · intro t h; cases h
        · exact State.gaspEntries_keeps s hk
      · split
        · intro t h; cases h
        · split
          · exact kn _ (State.place64_keeps _ _ _ _ _ _ (State.gaspStageNext_keeps s hk)) _ rfl
          · split
            · exact State.gaspQueue_keeps s hk
            · split
              · exact State.gaspClose_keeps s hk
              · split
                · exact kn _ (State.place64_keeps _ _ _ _ _ _ (State.gaspStageNext_keeps s hk)) _ rfl
                · intro t h; cases h
    clear_value o
    split
    · exact ko _ rfl
    · split
      · exact ih _ (State.gaspStageNext_keeps s hk)
      · exact hk

theorem State.gaspCellStep_keeps {s₀ : State} (s : State) (hk : Keeps s₀ s) : Keeps s₀ s.gaspCellStep := by
  unfold State.gaspCellStep
  extract_lets r
  have k1 : Keeps s₀ r.1 := by
    unfold r
    split
    · exact hk
    · exact State.gaspNext_keeps _ _ hk
  clear_value r
  split
  · exact k1
  · exact k1.trans ⟨rfl, Nat.le_refl _, Store.program_wf _ _ _, id, id⟩

theorem State.leaveHoldup_keeps {s₀ : State} (s : State) (hk : Keeps s₀ s) : Keeps s₀ (State.leaveHoldup s) := by
  unfold State.leaveHoldup
  iterate 5 (
    repeat (first | with_reducible assumption | with_reducible apply State.toCold_keeps | with_reducible apply State.toBoot_keeps | with_reducible apply Keeps.ite | with_reducible apply Keeps.foldl | intro _))

theorem State.coreLow_keeps {s₀ : State} (s : State) (h : HalfId) (hk : Keeps s₀ s) : Keeps s₀ (State.coreLow s h) := by
  unfold State.coreLow
  iterate 5 (
    repeat (first | with_reducible assumption | with_reducible apply State.loseElig_keeps | with_reducible apply Keeps.ite | with_reducible apply Keeps.foldl | intro _)
    all_goals (try ((with_reducible apply Keeps.lit); (case h1 => exact rfl); (case h2 => exact rfl); (case h3 => exact rfl); (case h4 => exact rfl); (case h5 => exact rfl)))
    repeat (first | with_reducible assumption | with_reducible apply State.loseElig_keeps | with_reducible apply Keeps.ite | with_reducible apply Keeps.foldl | intro _))

theorem State.retag_keeps {s₀ : State} (s : State) (hk : Keeps s₀ s) : Keeps s₀ (State.retag s) := by
  unfold State.retag
  iterate 5 (
    all_goals (try ((with_reducible apply Keeps.lit); (case h1 => exact rfl); (case h2 => exact rfl); (case h3 => exact rfl); (case h4 => exact rfl); (case h5 => exact rfl)))
    repeat (first | with_reducible assumption | with_reducible apply State.halves_keeps | with_reducible apply Keeps.ite | with_reducible apply Keeps.foldl | intro _))

theorem State.bootHalf_keeps {s₀ : State} (s : State) (h : HalfId) (pass : Bool) (hk : Keeps s₀ s) : Keeps s₀ (State.bootHalf s h pass) := by
  unfold State.bootHalf
  iterate 5 (
    repeat (first | with_reducible assumption | with_reducible apply State.bootSup_keeps | with_reducible apply State.retire_keeps | with_reducible apply State.modHs_keeps | with_reducible apply Keeps.ite | with_reducible apply Keeps.foldl | intro _))

theorem State.safeAtBoot_keeps {s₀ : State} (s : State) (hk : Keeps s₀ s) : Keeps s₀ (State.safeAtBoot s) := by
  unfold State.safeAtBoot
  iterate 5 (
    repeat (first | with_reducible assumption | with_reducible apply State.enterSafe_keeps | with_reducible apply State.move_keeps | with_reducible apply Keeps.ite | with_reducible apply Keeps.foldl | intro _)
    all_goals (try ((with_reducible apply Keeps.lit); (case h1 => exact rfl); (case h2 => exact rfl); (case h3 => exact rfl); (case h4 => exact rfl); (case h5 => exact rfl)))
    repeat (first | with_reducible assumption | with_reducible apply State.enterSafe_keeps | with_reducible apply State.move_keeps | with_reducible apply Keeps.ite | with_reducible apply Keeps.foldl | intro _))

theorem State.reportTies_keeps {s₀ : State} (s : State) (a : Area) (hk : Keeps s₀ s) : Keeps s₀ (State.reportTies s a) := by
  unfold State.reportTies
  iterate 5 (
    repeat (first | with_reducible assumption | with_reducible apply State.summary_keeps | with_reducible apply State.event_keeps | with_reducible apply Keeps.ite | with_reducible apply Keeps.foldl | intro _)
    all_goals (try ((with_reducible apply Keeps.lit); (case h1 => exact rfl); (case h2 => exact rfl); (case h3 => exact rfl); (case h4 => exact rfl); (case h5 => exact rfl)))
    repeat (first | with_reducible assumption | with_reducible apply State.summary_keeps | with_reducible apply State.event_keeps | with_reducible apply Keeps.ite | with_reducible apply Keeps.foldl | intro _))

theorem State.calRestore_keeps {s₀ : State} (s : State) (r : Rec) (hk : Keeps s₀ s) : Keeps s₀ (State.calRestore s r) := by
  unfold State.calRestore
  iterate 5 (
    repeat (first | with_reducible assumption | with_reducible apply State.modChan_keeps | with_reducible apply State.modPh_keeps | with_reducible apply State.modCtx_keeps | with_reducible apply Keeps.ite | with_reducible apply Keeps.foldl | intro _)
    all_goals (try ((with_reducible apply Keeps.lit); (case h1 => exact rfl); (case h2 => exact rfl); (case h3 => exact rfl); (case h4 => exact rfl); (case h5 => exact rfl)))
    all_goals (try dsimp only)
    all_goals (try split))

theorem State.restoreQ3_keeps {s₀ : State} (s : State) (hk : Keeps s₀ s) : Keeps s₀ (State.restoreQ3 s) := by
  unfold State.restoreQ3
  iterate 5 (
    all_goals (try ((with_reducible apply Keeps.lit); (case h1 => exact rfl); (case h2 => exact rfl); (case h3 => exact rfl); (case h4 => exact rfl); (case h5 => exact rfl)))
    repeat (first | with_reducible assumption | with_reducible apply State.calRestore_keeps | with_reducible apply State.setGlobForce_keeps | with_reducible apply State.setGlobNew_keeps | with_reducible apply Keeps.ite | with_reducible apply Keeps.foldl | intro _))

theorem State.restoreQ2_keeps {s₀ : State} (s : State) (hk : Keeps s₀ s) : Keeps s₀ (State.restoreQ2 s) := by
  unfold State.restoreQ2
  iterate 5 (
    repeat (first | with_reducible assumption | with_reducible apply State.resetEntries_keeps | with_reducible apply State.restorePairs_keeps | with_reducible apply Keeps.ite | with_reducible apply Keeps.foldl | intro _)
    all_goals (try ((with_reducible apply Keeps.lit); (case h1 => exact rfl); (case h2 => exact rfl); (case h3 => exact rfl); (case h4 => exact rfl); (case h5 => exact rfl)))
    repeat (first | with_reducible assumption | with_reducible apply State.resetEntries_keeps | with_reducible apply State.restorePairs_keeps | with_reducible apply Keeps.ite | with_reducible apply Keeps.foldl | intro _)
    all_goals (try dsimp only)
    all_goals (try split))

theorem State.restoreEffects_keeps {s₀ : State} (s old : State) (hk : Keeps s₀ s) : Keeps s₀ (State.restoreEffects s old) := by
  unfold State.restoreEffects
  extract_lets t f s1 now s2 s3
  have k1 : Keeps s₀ s1 := State.modHs_keeps _ _ _ (State.modHs_keeps _ _ _ hk)
  clear_value s1
  have k3 : Keeps s₀ s3 := k1.same rfl rfl rfl rfl rfl
  clear_value s3
  exact Keeps.foldl (State.zoneFollow_keeps _ (State.cragConfig_keeps _ (State.tarnApply_keeps _ _ (State.ftCfgApply_keeps _ _ k3))))
    (fun _ _ h => State.tripFollow_keeps _ _ h) _

theorem State.baseRestore_keeps {s₀ : State} (s : State) (c : CtxId) (hk : Keeps s₀ s) : Keeps s₀ (State.baseRestore s c) := by
  unfold State.baseRestore
  iterate 5 (
    repeat (first | with_reducible assumption | with_reducible apply State.modCtx_keeps | with_reducible apply Keeps.ite | with_reducible apply Keeps.foldl | intro _)
    all_goals (try ((with_reducible apply Keeps.lit); (case h1 => exact rfl); (case h2 => exact rfl); (case h3 => exact rfl); (case h4 => exact rfl); (case h5 => exact rfl)))
    all_goals (try split))

theorem State.addEntry_keeps {s₀ : State} (s : State) (a : Fin 128) (cls : Bool) (tseq : Nat) (v : Int) (hk : Keeps s₀ s) : Keeps s₀ (State.addEntry s a cls tseq v) := by
  unfold State.addEntry
  iterate 5 (
    repeat (first | with_reducible assumption | with_reducible apply State.modCtx_keeps | with_reducible apply Keeps.ite | with_reducible apply Keeps.foldl | intro _))

theorem State.tornEntry_keeps {s₀ : State} (s : State) (k : Nat) (hk : Keeps s₀ s) : Keeps s₀ (s.tornEntry k) := by
  unfold State.tornEntry
  dsimp only
  split
  · exact hk.nv _ (Store.program_wf _ _ _)
  · exact (State.openItem_keeps _ _ _ _ _ _ hk).nv _ (Store.program_wf _ _ _)

theorem State.recoverTally_keeps {s₀ : State} (s : State) (k : Nat) (hk : Keeps s₀ s) : Keeps s₀ (State.recoverTally s k) := by
  unfold State.recoverTally
  iterate 5 (
    repeat (first | with_reducible assumption | with_reducible apply State.tornEntry_keeps | with_reducible apply State.addEntry_keeps | with_reducible apply Keeps.ite | with_reducible apply Keeps.foldl | intro _)
    all_goals (try ((with_reducible apply Keeps.lit); (case h1 => exact rfl); (case h2 => exact rfl); (case h3 => exact rfl); (case h4 => exact rfl); (case h5 => exact rfl)))
    all_goals (try split))

theorem State.recoverItem_keeps {s₀ : State} (s : State) (k : Fin 32) (hk : Keeps s₀ s) : Keeps s₀ (State.recoverItem s k) := by
  unfold State.recoverItem
  iterate 5 (
    repeat (first | with_reducible assumption | with_reducible apply State.putRecord_keeps | with_reducible apply Keeps.ite | with_reducible apply Keeps.foldl | intro _)
    all_goals (try ((with_reducible apply Keeps.lit); (case h1 => exact rfl); (case h2 => exact rfl); (case h3 => exact rfl); (case h4 => exact rfl); (case h5 => exact rfl)))
    repeat (first | with_reducible assumption | with_reducible apply State.putRecord_keeps | with_reducible apply Keeps.ite | with_reducible apply Keeps.foldl | intro _)
    all_goals (try dsimp only)
    all_goals (try split))

theorem State.loadRem_keeps {s₀ : State} (s : State) (i : Nat) (r : Rec) (hk : Keeps s₀ s) : Keeps s₀ (State.loadRem s i r) := by
  unfold State.loadRem
  iterate 5 (
    repeat (first | with_reducible assumption | with_reducible apply State.halves_keeps | with_reducible apply Keeps.ite | with_reducible apply Keeps.foldl | intro _))

theorem State.zeroRem_keeps {s₀ : State} (s : State) (i : Nat) (hk : Keeps s₀ s) : Keeps s₀ (State.zeroRem s i) := by
  unfold State.zeroRem
  iterate 5 (
    repeat (first | with_reducible assumption | with_reducible apply State.halves_keeps | with_reducible apply Keeps.ite | with_reducible apply Keeps.foldl | intro _))

theorem State.restoreRem_keeps {s₀ : State} (s : State) (n i : Nat) (hk : Keeps s₀ s) : Keeps s₀ (State.restoreRem s n i) := by
  unfold State.restoreRem
  iterate 5 (
    repeat (first | with_reducible assumption | with_reducible apply State.zeroRem_keeps | with_reducible apply State.loadRem_keeps | with_reducible apply Keeps.ite | with_reducible apply Keeps.foldl | intro _)
    all_goals (try ((with_reducible apply Keeps.lit); (case h1 => exact rfl); (case h2 => exact rfl); (case h3 => exact rfl); (case h4 => exact rfl); (case h5 => exact rfl)))
    all_goals (try split))

theorem State.openGap_keeps {s₀ : State} (s : State) (run : Nat) (hk : Keeps s₀ s) : Keeps s₀ (State.openGap s run) := by
  unfold State.openGap
  iterate 5 (
    repeat (first | with_reducible assumption | with_reducible apply State.openItem_keeps | with_reducible apply Keeps.ite | with_reducible apply Keeps.foldl | intro _)
    all_goals (try ((with_reducible apply Keeps.lit); (case h1 => exact rfl); (case h2 => exact rfl); (case h3 => exact rfl); (case h4 => exact rfl); (case h5 => exact rfl)))
    repeat (first | with_reducible assumption | with_reducible apply State.openItem_keeps | with_reducible apply Keeps.ite | with_reducible apply Keeps.foldl | intro _)
    all_goals (try split))

theorem State.runBracket_keeps {s₀ : State} (s : State) (first : Bool) (hk : Keeps s₀ s) : Keeps s₀ (State.runBracket s first).1 := by
  unfold State.runBracket
  iterate 5 (
    repeat (first | with_reducible assumption | with_reducible apply State.openGap_keeps | with_reducible apply State.restoreRem_keeps | with_reducible apply State.zeroRem_keeps | with_reducible apply State.openItem_keeps | with_reducible apply Keeps.ite | with_reducible apply Keeps.foldl | intro _)
    all_goals (try ((with_reducible apply Keeps.lit); (case h1 => exact rfl); (case h2 => exact rfl); (case h3 => exact rfl); (case h4 => exact rfl); (case h5 => exact rfl)))
    all_goals (try dsimp only)
    all_goals (try split))

theorem State.recoverLedger_keeps {s₀ : State} (s : State) (hk : Keeps s₀ s) : Keeps s₀ (State.recoverLedger s) := by
  unfold State.recoverLedger
  iterate 5 (
    all_goals (try ((with_reducible apply Keeps.lit); (case h1 => exact rfl); (case h2 => exact rfl); (case h3 => exact rfl); (case h4 => exact rfl); (case h5 => exact rfl)))
    repeat (first | with_reducible assumption | with_reducible apply State.runBracket_keeps | with_reducible apply State.recoverItem_keeps | with_reducible apply State.recoverTally_keeps | with_reducible apply State.baseRestore_keeps | with_reducible apply State.putRecord_keeps | with_reducible apply Keeps.ite | with_reducible apply Keeps.foldl | intro _)
    all_goals (try dsimp only))

theorem State.endBoot_keeps {s₀ : State} (s : State) (hk : Keeps s₀ s) : Keeps s₀ (State.endBoot s) := by
  unfold State.endBoot
  iterate 5 (
    repeat (first | with_reducible assumption | with_reducible apply State.enterRun_keeps | with_reducible apply State.goto_keeps | with_reducible apply Keeps.ite | with_reducible apply Keeps.foldl | intro _))

theorem State.readRun_keeps {s₀ : State} (s : State) (i : Iface) (n idx : Nat) (acc : List Word) (hk : Keeps s₀ s) :
    Keeps s₀ (s.readRun i n idx acc).1 := by
  induction n generalizing s idx acc with
  | zero => exact hk
  | succ n ih =>
    unfold State.readRun
    have k1 := State.readIndex_keeps s i idx hk
    extract_lets x
    have k1 : Keeps s₀ x.1 := k1
    clear_value x
    split
    · exact ih _ _ _ k1
    · exact k1

theorem State.writeRun'_keeps {s₀ : State} (s : State) (r : Req) (ws : List Word) (idx done : Nat) (hk : Keeps s₀ s) :
    Keeps s₀ (s.writeRun' r ws idx done).1 := by
  induction ws generalizing s idx done with
  | nil => exact hk
  | cons w ws ih =>
    unfold State.writeRun'
    have k1 := State.writeIndex_keeps s r.box idx w (some r) hk
    extract_lets x
    have k1 : Keeps s₀ x.1 := k1
    clear_value x
    split
    · exact ih _ _ _ k1
    · exact k1

theorem State.postEvent_keeps {s₀ : State} (s : State) (c : CtxId) (e : Event) (late : Bool) (hk : Keeps s₀ s) : Keeps s₀ (State.postEvent s c e late) := by
  unfold State.postEvent
  iterate 5 (
    repeat (first | with_reducible assumption | with_reducible apply State.modSched_keeps | with_reducible apply State.commit_keeps | with_reducible apply Keeps.ite | with_reducible apply Keeps.foldl | intro _))

theorem State.post_keeps {s₀ : State} (s : State) (w0 w1 w2 w3 : Word) (hk : Keeps s₀ s) : Keeps s₀ (State.post s w0 w1 w2 w3).1 := by
  unfold State.post
  iterate 5 (
    repeat (first | with_reducible assumption | with_reducible apply State.postEvent_keeps | with_reducible apply State.take_keeps | with_reducible apply Keeps.ite | with_reducible apply Keeps.foldl | intro _)
    all_goals (try ((with_reducible apply Keeps.lit); (case h1 => exact rfl); (case h2 => exact rfl); (case h3 => exact rfl); (case h4 => exact rfl); (case h5 => exact rfl)))
    all_goals (try dsimp only)
    all_goals (try split))

theorem State.cancelEvent_keeps {s₀ : State} (s : State) (c : CtxId) (e : Event) (hk : Keeps s₀ s) : Keeps s₀ (State.cancelEvent s c e) := by
  unfold State.cancelEvent
  iterate 5 (
    repeat (first | with_reducible assumption | with_reducible apply State.modChan_keeps | with_reducible apply State.modSched_keeps | with_reducible apply Keeps.ite | with_reducible apply Keeps.foldl | intro _))

theorem State.fwEnd_keeps {s₀ : State} (s : State) (code : Nat) (hk : Keeps s₀ s) : Keeps s₀ (State.fwEnd s code) := by
  unfold State.fwEnd
  exact State.event_keeps _ _ _ _ _ (hk.sum _ (Summit.refresh_floor _))

theorem State.irTake_keeps {s₀ : State} (s : State) (code : Byte) (hk : Keeps s₀ s) : Keeps s₀ (State.irTake s code) := by
  unfold State.irTake
  iterate 5 (
    all_goals (try ((with_reducible apply Keeps.lit); (case h1 => exact rfl); (case h2 => exact rfl); (case h3 => exact rfl); (case h4 => exact rfl); (case h5 => exact rfl)))
    repeat (first | with_reducible assumption | with_reducible apply Keeps.ite | with_reducible apply Keeps.foldl | intro _))

theorem State.boundaryScan_keeps {s₀ : State} (s : State) (code : Byte) (scan : List Bool) (hk : Keeps s₀ s) : Keeps s₀ (State.boundaryScan s code scan) := by
  unfold State.boundaryScan
  iterate 5 (
    all_goals (try ((with_reducible apply Keeps.lit); (case h1 => exact rfl); (case h2 => exact rfl); (case h3 => exact rfl); (case h4 => exact rfl); (case h5 => exact rfl)))
    repeat (first | with_reducible assumption | with_reducible apply Keeps.ite | with_reducible apply Keeps.foldl | intro _))

theorem State.bypassScan_keeps {s₀ : State} (s : State) (code : Byte) (scan : List Bool) (hk : Keeps s₀ s) : Keeps s₀ (State.bypassScan s code scan) := by
  unfold State.bypassScan
  iterate 5 (
    all_goals (try ((with_reducible apply Keeps.lit); (case h1 => exact rfl); (case h2 => exact rfl); (case h3 => exact rfl); (case h4 => exact rfl); (case h5 => exact rfl)))
    repeat (first | with_reducible assumption | with_reducible apply State.take_keeps | with_reducible apply Keeps.ite | with_reducible apply Keeps.foldl | intro _))

theorem State.loadEnd_keeps {s₀ : State} (s : State) (code : Nat) (hk : Keeps s₀ s) : Keeps s₀ (State.loadEnd s code) := by
  unfold State.loadEnd
  iterate 5 (
    all_goals (try ((with_reducible apply Keeps.lit); (case h1 => exact rfl); (case h2 => exact rfl); (case h3 => exact rfl); (case h4 => exact rfl); (case h5 => exact rfl)))
    repeat (first | with_reducible assumption | with_reducible apply Keeps.ite | with_reducible apply Keeps.foldl | intro _))

theorem State.loadStart_keeps {s₀ : State} (s : State) (w : Word) (hk : Keeps s₀ s) : Keeps s₀ (s.loadStart w) := by
  unfold State.loadStart
  extract_lets l1 s1
  have k1 : Keeps s₀ s1 := hk.same rfl rfl rfl rfl rfl
  clear_value s1
  split
  · exact State.loadEnd_keeps _ _ k1
  · refine Keeps.ite (State.loadEnd_keeps _ _ k1) (k1.same rfl (Summit.eraseBank_floor _ _) rfl rfl rfl)

theorem State.loadWord_keeps {s₀ : State} (s : State) (h : HalfId) (w : Word) (hk : Keeps s₀ s) : Keeps s₀ (s.loadWord h w) := by
  unfold State.loadWord
  extract_lets b j n l1 s1
  have k1 : Keeps s₀ s1 := hk.same rfl (by
    change (if j < flashBytes / 4 then s.sum.program b j w else s.sum).floor = s.sum.floor
    split
    · exact Summit.program_floor _ _ _ _
    · rfl) rfl rfl rfl
  clear_value s1
  exact Keeps.ite (State.loadEnd_keeps _ _ (k1.sum _ ((Summit.loadCheck_floor s1.sum b) ▸ Summit.refresh_floor _))) k1

theorem State.debugResult_keeps {s₀ : State} (s : State) (n : Nat) (hk : Keeps s₀ s) : Keeps s₀ (State.debugResult s n) := by
  unfold State.debugResult
  iterate 5 (
    all_goals (try ((with_reducible apply Keeps.lit); (case h1 => exact rfl); (case h2 => exact rfl); (case h3 => exact rfl); (case h4 => exact rfl); (case h5 => exact rfl)))
    repeat (first | with_reducible assumption | with_reducible apply Keeps.ite | with_reducible apply Keeps.foldl | intro _))

theorem State.freezeHalf_keeps {s₀ : State} (s : State) (h : HalfId) (hk : Keeps s₀ s) : Keeps s₀ (State.freezeHalf s h) := by
  unfold State.freezeHalf
  iterate 5 (
    repeat (first | with_reducible assumption | with_reducible apply State.debugResult_keeps | with_reducible apply State.loseElig_keeps | with_reducible apply Keeps.ite | with_reducible apply Keeps.foldl | intro _))

theorem State.debugDo_keeps {s₀ : State} (s : State) (h : HalfId) (q : DebugReq) (hk : Keeps s₀ s) : Keeps s₀ (s.debugDo h q) := by
  cases q
  all_goals first
    | exact State.freezeHalf_keeps _ _ hk
    | exact State.debugResult_keeps _ _ (State.modHs_keeps _ _ _ hk)
    | exact State.turnOver_keeps _ (State.debugResult_keeps _ _ (State.modHs_keeps _ _ _ hk))
    | exact Keeps.ite (State.debugResult_keeps _ _ hk) (State.debugResult_keeps _ _ hk)

theorem State.debug_keeps {s₀ : State} (s : State) (w : Word) (r : DebugReq) (hk : Keeps s₀ s) : Keeps s₀ (s.debug w r) := by
  have k1 := State.irTake_keeps s 0xB0 hk
  unfold State.debug
  extract_lets s1
  refine Keeps.ite k1 ?_
  split
  · exact State.debugResult_keeps _ _ k1
  · exact Keeps.ite (State.debugDo_keeps _ _ _ k1) k1

theorem State.judgeTarn_keeps {s₀ : State} (s : State) (c : CtxId) (hk : Keeps s₀ s) : Keeps s₀ (State.judgeTarn s c) := by
  unfold State.judgeTarn
  iterate 5 (
    repeat (first | with_reducible assumption | with_reducible apply State.answer_keeps | with_reducible apply State.modCtx_keeps | with_reducible apply Keeps.ite | with_reducible apply Keeps.foldl | intro _)
    all_goals (try ((with_reducible apply Keeps.lit); (case h1 => exact rfl); (case h2 => exact rfl); (case h3 => exact rfl); (case h4 => exact rfl); (case h5 => exact rfl)))
    all_goals (try dsimp only)
    all_goals (try split))

theorem State.vmeasAll_keeps {s₀ : State} (s : State) (c : CtxId) (hk : Keeps s₀ s) : Keeps s₀ (State.vmeasAll s c) := by
  unfold State.vmeasAll
  iterate 5 (
    repeat (first | with_reducible assumption | with_reducible apply State.holdWords_keeps | with_reducible apply State.halves_keeps | with_reducible apply Keeps.ite | with_reducible apply Keeps.foldl | intro _))

theorem State.beginReg_keeps {s₀ : State} (s : State) (c : CtxId) (hk : Keeps s₀ s) : Keeps s₀ (State.beginReg s c) := by
  unfold State.beginReg
  iterate 5 (
    repeat (first | with_reducible assumption | with_reducible apply State.halves_keeps | with_reducible apply State.modPh_keeps | with_reducible apply State.modCtx_keeps | with_reducible apply Keeps.ite | with_reducible apply Keeps.foldl | intro _))

theorem State.begin_keeps {s₀ : State} (s : State) (c : CtxId) (hk : Keeps s₀ s) : Keeps s₀ (State.begin s c) := by
  unfold State.begin
  iterate 5 (
    repeat (first | with_reducible assumption | with_reducible apply State.beginReg_keeps | with_reducible apply State.onCmd_keeps | with_reducible apply Keeps.ite | with_reducible apply Keeps.foldl | intro _))

theorem State.unavailable_keeps {s₀ : State} (s : State) (c : CtxId) (hk : Keeps s₀ s) : Keeps s₀ (State.unavailable s c) := by
  unfold State.unavailable
  iterate 5 (
    repeat (first | with_reducible assumption | with_reducible apply State.declareCtx_keeps | with_reducible apply State.stopReg_keeps | with_reducible apply Keeps.ite | with_reducible apply Keeps.foldl | intro _))

theorem State.lawAll_keeps {s₀ : State} (s : State) (c : CtxId) (en : Entry) (iff : Iff) (hk : Keeps s₀ s) : Keeps s₀ (State.lawAll s c en iff) := by
  unfold State.lawAll
  iterate 5 (
    repeat (first | with_reducible assumption | with_reducible apply State.holdWords_keeps | with_reducible apply State.modCtx_keeps | with_reducible apply Keeps.ite | with_reducible apply Keeps.foldl | intro _)
    all_goals (try ((with_reducible apply Keeps.lit); (case h1 => exact rfl); (case h2 => exact rfl); (case h3 => exact rfl); (case h4 => exact rfl); (case h5 => exact rfl)))
    repeat (first | with_reducible assumption | with_reducible apply State.holdWords_keeps | with_reducible apply State.modCtx_keeps | with_reducible apply Keeps.ite | with_reducible apply Keeps.foldl | intro _))

theorem State.ringStep_keeps {s₀ : State} (s : State) (c : CtxId) (hk : Keeps s₀ s) : Keeps s₀ (State.ringStep s c) := by
  unfold State.ringStep
  iterate 5 (
    repeat (first | with_reducible assumption | with_reducible apply State.halves_keeps | with_reducible apply State.modCtx_keeps | with_reducible apply Keeps.ite | with_reducible apply Keeps.foldl | intro _))

theorem State.shedStep_keeps {s₀ : State} (s : State) (c : CtxId) (hk : Keeps s₀ s) : Keeps s₀ (State.shedStep s c) := by
  unfold State.shedStep
  iterate 5 (
    repeat (first | with_reducible assumption | with_reducible apply State.setNAct_keeps | with_reducible apply State.halves_keeps | with_reducible apply State.modCtx_keeps | with_reducible apply Keeps.ite | with_reducible apply Keeps.foldl | intro _))

theorem State.startHeld_keeps {s₀ : State} (s : State) (c : CtxId) (p : PhaseId) (hk : Keeps s₀ s) : Keeps s₀ (State.startHeld s c p) := by
  unfold State.startHeld
  iterate 5 (
    repeat (first | with_reducible assumption | with_reducible apply State.followStart_keeps | with_reducible apply State.halves_keeps | with_reducible apply Keeps.ite | with_reducible apply Keeps.foldl | intro _))

theorem State.dropNow_keeps {s₀ : State} (s : State) (c : CtxId) (hk : Keeps s₀ s) : Keeps s₀ (State.dropNow s c) := by
  unfold State.dropNow
  iterate 5 (
    repeat (first | with_reducible assumption | with_reducible apply State.dropHeld_keeps | with_reducible apply State.halves_keeps | with_reducible apply Keeps.ite | with_reducible apply Keeps.foldl | intro _))

theorem State.passPhase_keeps {s₀ : State} (s : State) (c : CtxId) (hk : Keeps s₀ s) : Keeps s₀ (State.passPhase s c) := by
  unfold State.passPhase
  iterate 5 (
    repeat (first | with_reducible assumption | with_reducible apply State.dropNow_keeps | with_reducible apply State.startHeld_keeps | with_reducible apply State.halves_keeps | with_reducible apply State.modCtx_keeps | with_reducible apply Keeps.ite | with_reducible apply Keeps.foldl | intro _)
    all_goals (try ((with_reducible apply Keeps.lit); (case h1 => exact rfl); (case h2 => exact rfl); (case h3 => exact rfl); (case h4 => exact rfl); (case h5 => exact rfl)))
    all_goals (try dsimp only)
    all_goals (try split))

theorem State.passExit_keeps {s₀ : State} (s : State) (c : CtxId) (hk : Keeps s₀ s) : Keeps s₀ (State.passExit s c) := by
  unfold State.passExit
  iterate 5 (
    repeat (first | with_reducible assumption | with_reducible apply State.dropNow_keeps | with_reducible apply State.modCtx_keeps | with_reducible apply Keeps.ite | with_reducible apply Keeps.foldl | intro _))

theorem State.formPhaseStatus_keeps {s₀ : State} (s : State) (c : CtxId) (hk : Keeps s₀ s) : Keeps s₀ (State.formPhaseStatus s c) := by
  unfold State.formPhaseStatus
  iterate 5 (
    repeat (first | with_reducible assumption | with_reducible apply State.modCtx_keeps | with_reducible apply Keeps.ite | with_reducible apply Keeps.foldl | intro _))

theorem State.formClass_keeps {s₀ : State} (s : State) (c : CtxId) (hk : Keeps s₀ s) : Keeps s₀ (State.formClass s c) := by
  unfold State.formClass
  iterate 5 (
    repeat (first | with_reducible assumption | with_reducible apply State.event_keeps | with_reducible apply State.modCtx_keeps | with_reducible apply Keeps.ite | with_reducible apply Keeps.foldl | intro _))

theorem State.timers_keeps {s₀ : State} (s : State) (c : CtxId) (hk : Keeps s₀ s) : Keeps s₀ (State.timers s c).1 := by
  unfold State.timers
  iterate 5 (
    repeat (first | with_reducible assumption | with_reducible apply State.modPh_keeps | with_reducible apply State.modCtx_keeps | with_reducible apply Keeps.ite | with_reducible apply Keeps.foldl | intro _))

theorem State.shedOc_keeps {s₀ : State} (s : State) (c : CtxId) (ps : List PhaseId) (hk : Keeps s₀ s) : Keeps s₀ (State.shedOc s c ps) := by
  unfold State.shedOc
  iterate 5 (
    repeat (first | with_reducible assumption | with_reducible apply State.modPh_keeps | with_reducible apply Keeps.ite | with_reducible apply Keeps.foldl | intro _))

theorem State.faultStep_keeps {s₀ : State} (s : State) (c : CtxId) (hk : Keeps s₀ s) : Keeps s₀ (State.faultStep s c).1 := by
  unfold State.faultStep
  iterate 5 (
    repeat (first | with_reducible assumption | with_reducible apply State.shedOc_keeps | with_reducible apply State.timers_keeps | with_reducible apply State.declareCtx_keeps | with_reducible apply Keeps.ite | with_reducible apply Keeps.foldl | intro _))

theorem State.pgStep_keeps {s₀ : State} (s : State) (c : CtxId) (was starts runs : Bool) (hk : Keeps s₀ s) : Keeps s₀ (State.pgStep s c was starts runs) := by
  unfold State.pgStep
  iterate 5 (
    repeat (first | with_reducible assumption | with_reducible apply State.pgDrop_keeps | with_reducible apply State.event_keeps | with_reducible apply State.modCtx_keeps | with_reducible apply Keeps.ite | with_reducible apply Keeps.foldl | intro _))

theorem State.rundownPark_keeps {s₀ : State} (s : State) (c : CtxId) (hk : Keeps s₀ s) : Keeps s₀ (State.rundownPark s c) := by
  unfold State.rundownPark
  iterate 5 (
    repeat (first | with_reducible assumption | with_reducible apply State.stopReg_keeps | with_reducible apply Keeps.ite | with_reducible apply Keeps.foldl | intro _))

theorem State.closeBoundary_keeps {s₀ : State} (s : State) (c : CtxId) (hk : Keeps s₀ s) : Keeps s₀ (State.closeBoundary s c) := by
  unfold State.closeBoundary
  iterate 5 (
    repeat (first | with_reducible assumption | with_reducible apply State.noteSched_keeps | with_reducible apply State.halves_keeps | with_reducible apply State.modPh_keeps | with_reducible apply State.modCtx_keeps | with_reducible apply Keeps.ite | with_reducible apply Keeps.foldl | intro _))

theorem State.probeDisturb_keeps {s₀ : State} (s : State) (c : CtxId) (redirect : Bool) (hk : Keeps s₀ s) : Keeps s₀ (State.probeDisturb s c redirect) := by
  unfold State.probeDisturb
  split
  · exact State.modProbe_keeps _ _ _ hk
  · exact hk

theorem State.regulate_keeps {s₀ : State} (s : State) (c : CtxId) (hk : Keeps s₀ s) : Keeps s₀ (State.regulate s c) := by
  unfold State.regulate
  iterate 5 (
    repeat (first | with_reducible assumption | with_reducible apply State.probeDisturb_keeps | with_reducible apply State.passExit_keeps | with_reducible apply State.passPhase_keeps | with_reducible apply State.shedStep_keeps | with_reducible apply State.ringStep_keeps | with_reducible apply State.lawAll_keeps | with_reducible apply State.judgeTarn_keeps | with_reducible apply State.endEvents_keeps | with_reducible apply State.formFloors_keeps | with_reducible apply State.schedStep_keeps | with_reducible apply State.formTarget_keeps | with_reducible apply State.formE_keeps | with_reducible apply State.preAct_keeps | with_reducible apply State.traceStep_keeps | with_reducible apply State.probeAfter_keeps | with_reducible apply State.probeInject_keeps | with_reducible apply State.probePause_keeps | with_reducible apply State.modCtx_keeps | with_reducible apply Keeps.ite | with_reducible apply Keeps.foldl | intro _))

theorem State.judgeBoundary_keeps {s₀ : State} (s : State) (c : CtxId) (hk : Keeps s₀ s) : Keeps s₀ (State.judgeBoundary s c) := by
  unfold State.judgeBoundary
  iterate 5 (
    repeat (first | with_reducible assumption | with_reducible apply State.rundownPark_keeps | with_reducible apply State.pgStep_keeps | with_reducible apply State.faultStep_keeps | with_reducible apply State.formPhaseStatus_keeps | with_reducible apply State.modCtx_keeps | with_reducible apply Keeps.ite | with_reducible apply Keeps.foldl | intro _))

theorem State.contextStep_keeps {s₀ : State} (s : State) (c : CtxId) (hk : Keeps s₀ s) : Keeps s₀ (State.contextStep s c) := by
  unfold State.contextStep
  iterate 5 (
    repeat (first | with_reducible assumption | with_reducible apply State.judgeBoundary_keeps | with_reducible apply State.regulate_keeps | with_reducible apply State.formPhaseStatus_keeps | with_reducible apply State.unavailable_keeps | with_reducible apply State.begin_keeps | with_reducible apply State.vmeasAll_keeps | with_reducible apply State.judgeTarn_keeps | with_reducible apply State.schedIdle_keeps | with_reducible apply State.stopReg_keeps | with_reducible apply Keeps.ite | with_reducible apply Keeps.foldl | intro _))

theorem State.lostPhases_keeps {s₀ : State} (s : State) (c : CtxId) (hk : Keeps s₀ s) : Keeps s₀ (State.lostPhases s c) := by
  unfold State.lostPhases
  iterate 5 (
    repeat (first | with_reducible assumption | with_reducible apply State.stopReg_keeps | with_reducible apply State.offCmd_keeps | with_reducible apply Keeps.ite | with_reducible apply Keeps.foldl | intro _))

theorem State.inputFaults_keeps {s₀ : State} (s : State) (hk : Keeps s₀ s) : Keeps s₀ (State.inputFaults s) := by
  unfold State.inputFaults
  iterate 5 (
    repeat (first | with_reducible assumption | with_reducible apply State.declareCtx_keeps | with_reducible apply State.modCtx_keeps | with_reducible apply Keeps.ite | with_reducible apply Keeps.foldl | intro _))

theorem State.inputRing_keeps {s₀ : State} (s : State) (hk : Keeps s₀ s) : Keeps s₀ (State.inputRing s) := by
  unfold State.inputRing
  iterate 5 (
    repeat (first | with_reducible assumption | with_reducible apply State.halves_keeps | with_reducible apply State.modCtx_keeps | with_reducible apply Keeps.ite | with_reducible apply Keeps.foldl | intro _))

theorem State.inputStep_keeps {s₀ : State} (s : State) (hk : Keeps s₀ s) : Keeps s₀ (State.inputStep s) := by
  unfold State.inputStep
  iterate 5 (
    repeat (first | with_reducible assumption | with_reducible apply State.traceStep_keeps | with_reducible apply State.inputRing_keeps | with_reducible apply State.inputFaults_keeps | with_reducible apply State.formPhaseStatus_keeps | with_reducible apply State.vmeasAll_keeps | with_reducible apply State.modCtx_keeps | with_reducible apply Keeps.ite | with_reducible apply Keeps.foldl | intro _))

theorem State.boundary_keeps {s₀ : State} (s : State) (c : CtxId) (hk : Keeps s₀ s) : Keeps s₀ (State.boundary s c) := by
  unfold State.boundary
  iterate 5 (
    repeat (first | with_reducible assumption | with_reducible apply State.inputStep_keeps | with_reducible apply State.lostPhases_keeps | with_reducible apply State.contextStep_keeps | with_reducible apply State.closeBoundary_keeps | with_reducible apply State.formClass_keeps | with_reducible apply State.rebind_keeps | with_reducible apply Keeps.ite | with_reducible apply Keeps.foldl | intro _))

theorem State.ftArrives_keeps {s₀ : State} (s : State) (c : CtxId) (e : BcastErr) (hk : Keeps s₀ s) : Keeps s₀ (State.ftArrives s c e) := by
  unfold State.ftArrives
  iterate 5 (
    repeat (first | with_reducible assumption | with_reducible apply State.toPorts_keeps | with_reducible apply State.bcast_keeps | with_reducible apply Keeps.ite | with_reducible apply Keeps.foldl | intro _))

theorem State.nack_keeps {s₀ : State} (s : State) (hk : Keeps s₀ s) : Keeps s₀ (State.nack s) := by
  unfold State.nack
  iterate 5 (
    all_goals (try ((with_reducible apply Keeps.lit); (case h1 => exact rfl); (case h2 => exact rfl); (case h3 => exact rfl); (case h4 => exact rfl); (case h5 => exact rfl)))
    repeat (first | with_reducible assumption | with_reducible apply State.answer_keeps | with_reducible apply Keeps.ite | with_reducible apply Keeps.foldl | intro _))

theorem State.ack_keeps {s₀ : State} (s : State) (hk : Keeps s₀ s) : Keeps s₀ (State.ack s) := by
  unfold State.ack
  iterate 5 (
    all_goals (try ((with_reducible apply Keeps.lit); (case h1 => exact rfl); (case h2 => exact rfl); (case h3 => exact rfl); (case h4 => exact rfl); (case h5 => exact rfl)))
    repeat (first | with_reducible assumption | with_reducible apply State.answer_keeps | with_reducible apply Keeps.ite | with_reducible apply Keeps.foldl | intro _))

theorem State.pmbInvalid_keeps {s₀ : State} (s : State) (hk : Keeps s₀ s) : Keeps s₀ (State.pmbInvalid s) := by
  unfold State.pmbInvalid
  iterate 5 (
    repeat (first | with_reducible assumption | with_reducible apply State.cml_keeps | with_reducible apply State.nack_keeps | with_reducible apply Keeps.ite | with_reducible apply Keeps.foldl | intro _))

theorem State.reply_keeps {s₀ : State} (s : State) (code : Nat) (bs : List Byte) (hk : Keeps s₀ s) : Keeps s₀ (State.reply s code bs) := by
  unfold State.reply
  iterate 5 (
    all_goals (try ((with_reducible apply Keeps.lit); (case h1 => exact rfl); (case h2 => exact rfl); (case h3 => exact rfl); (case h4 => exact rfl); (case h5 => exact rfl)))
    repeat (first | with_reducible assumption | with_reducible apply State.answer_keeps | with_reducible apply Keeps.ite | with_reducible apply Keeps.foldl | intro _))

theorem State.transact_keeps {s₀ : State} (s : State) (code : Nat) (x : PmbXfer) (bytes : Nat) (rd : State → State)
    (wr : List Byte → State → State) (hk : Keeps s₀ s) (hr : ∀ t, Keeps s₀ t → Keeps s₀ (rd t))
    (hw : ∀ b t, Keeps s₀ t → Keeps s₀ (wr b t)) : Keeps s₀ (s.transact code x bytes rd wr) := by
  unfold State.transact
  refine Keeps.ite (State.nack_keeps _ hk) ?_
  split
  · exact hr _ hk
  · refine Keeps.ite (Keeps.ite (State.nack_keeps _ (State.cml_keeps _ _ hk)) (State.ack_keeps _ (State.cml_keeps _ _ hk))) ?_
    exact Keeps.ite (State.nack_keeps _ hk) (hw _ _ (State.ack_keeps _ hk))

theorem State.readOnly_keeps {s₀ : State} (s : State) (code : Nat) (x : PmbXfer) (bytes : Nat) (rd : State → State) (hk : Keeps s₀ s)
    (hr : ∀ t, Keeps s₀ t → Keeps s₀ (rd t)) : Keeps s₀ (s.readOnly code x bytes rd) :=
  State.transact_keeps _ _ _ _ _ _ hk hr (fun _ _ h => State.pmbRefuse_keeps _ _ _ h)

theorem State.sendByte_keeps {s₀ : State} (s : State) (code : Nat) (x : PmbXfer) (act : State → State) (hk : Keeps s₀ s)
    (ha : ∀ t, Keeps s₀ t → Keeps s₀ (act t)) : Keeps s₀ (s.sendByte code x act) :=
  State.transact_keeps _ _ _ _ _ _ hk (fun _ h => State.pmbInvalid_keeps _ h) (fun _ _ h => ha _ h)

theorem State.paged_keeps {s₀ : State} (s : State) (code bytes : Nat) (f : State → CtxId → List Byte) (hk : Keeps s₀ s) :
    Keeps s₀ (s.paged code bytes f) := by
  unfold State.paged
  refine Keeps.ite (State.pmbInvalid_keeps _ hk) ?_
  split <;> exact State.reply_keeps _ _ _ hk

theorem State.railOpen_keeps {s₀ : State} (s : State) (c : CtxId) (full : Bool) (hk : Keeps s₀ s) : Keeps s₀ (State.railOpen s c full) := by
  unfold State.railOpen
  iterate 5 (
    repeat (first | with_reducible assumption | with_reducible apply State.declareCtx_keeps | with_reducible apply State.modCtx_keeps | with_reducible apply Keeps.ite | with_reducible apply Keeps.foldl | intro _))

theorem State.railCode_keeps {s₀ : State} (s : State) (c : CtxId) (code : Nat) (hk : Keeps s₀ s) : Keeps s₀ (State.railCode s c code) := by
  unfold State.railCode
  iterate 5 (
    repeat (first | with_reducible assumption | with_reducible apply State.take_keeps | with_reducible apply State.modCtx_keeps | with_reducible apply Keeps.ite | with_reducible apply Keeps.foldl | intro _))

theorem State.formIsw_keeps {s₀ : State} (s : State) (c : CtxId) (raw : Int) (hk : Keeps s₀ s) : Keeps s₀ (State.formIsw s c raw) := by
  unfold State.formIsw
  iterate 5 (
    repeat (first | with_reducible assumption | with_reducible apply State.modCtx_keeps | with_reducible apply Keeps.ite | with_reducible apply Keeps.foldl | intro _))

theorem State.ledgerStep_keeps {s₀ : State} (s : State) (c : CtxId) (hk : Keeps s₀ s) : Keeps s₀ (State.ledgerStep s c) := by
  unfold State.ledgerStep
  iterate 5 (
    repeat (first | with_reducible assumption | with_reducible apply State.halves_keeps | with_reducible apply State.modCtx_keeps | with_reducible apply Keeps.ite | with_reducible apply Keeps.foldl | intro _)
    all_goals (try ((with_reducible apply Keeps.lit); (case h1 => exact rfl); (case h2 => exact rfl); (case h3 => exact rfl); (case h4 => exact rfl); (case h5 => exact rfl)))
    all_goals (try split))

theorem State.confirmStep_keeps {s₀ : State} (s : State) (c : CtxId) (hk : Keeps s₀ s) : Keeps s₀ (State.confirmStep s c) := by
  unfold State.confirmStep
  iterate 5 (
    repeat (first | with_reducible assumption | with_reducible apply State.modSched_keeps | with_reducible apply Keeps.ite | with_reducible apply Keeps.foldl | intro _))

theorem State.declareCause_keeps {s₀ : State} (s : State) (c : CtxId) (hk : Keeps s₀ s) : Keeps s₀ (State.declareCause s c) := by
  unfold State.declareCause
  iterate 5 (
    repeat (first | with_reducible assumption | with_reducible apply State.declareChan_keeps | with_reducible apply State.modChan_keeps | with_reducible apply Keeps.ite | with_reducible apply Keeps.foldl | intro _)
    all_goals (try ((with_reducible apply Keeps.lit); (case h1 => exact rfl); (case h2 => exact rfl); (case h3 => exact rfl); (case h4 => exact rfl); (case h5 => exact rfl)))
    all_goals (try split))

theorem State.shuntOpen_keeps {s₀ : State} (s : State) (c : CtxId) (full : Bool) (hk : Keeps s₀ s) : Keeps s₀ (State.shuntOpen s c full) := by
  unfold State.shuntOpen
  iterate 5 (
    repeat (first | with_reducible assumption | with_reducible apply State.declareChan_keeps | with_reducible apply State.modChan_keeps | with_reducible apply State.modCtx_keeps | with_reducible apply Keeps.ite | with_reducible apply Keeps.foldl | intro _))

theorem State.declareZero_keeps {s₀ : State} (s : State) (c : CtxId) (hk : Keeps s₀ s) : Keeps s₀ (State.declareZero s c) := by
  unfold State.declareZero
  iterate 5 (
    repeat (first | with_reducible assumption | with_reducible apply State.declareChan_keeps | with_reducible apply State.modChan_keeps | with_reducible apply Keeps.ite | with_reducible apply Keeps.foldl | intro _))

theorem State.zeroStep_keeps {s₀ : State} (s : State) (c : CtxId) (raw : Int) (hk : Keeps s₀ s) : Keeps s₀ (State.zeroStep s c raw) := by
  unfold State.zeroStep
  iterate 5 (
    repeat (first | with_reducible assumption | with_reducible apply State.modChan_keeps | with_reducible apply State.modCtx_keeps | with_reducible apply Keeps.ite | with_reducible apply Keeps.foldl | intro _)
    all_goals (try ((with_reducible apply Keeps.lit); (case h1 => exact rfl); (case h2 => exact rfl); (case h3 => exact rfl); (case h4 => exact rfl); (case h5 => exact rfl)))
    all_goals (try dsimp only)
    all_goals (try split))

theorem State.shuntStep_keeps {s₀ : State} (s : State) (c : CtxId) (code : Nat) (raw : Int) (hk : Keeps s₀ s) : Keeps s₀ (State.shuntStep s c code raw) := by
  unfold State.shuntStep
  iterate 5 (
    repeat (first | with_reducible assumption | with_reducible apply State.zeroStep_keeps | with_reducible apply State.declareZero_keeps | with_reducible apply State.shuntOpen_keeps | with_reducible apply State.declareCause_keeps | with_reducible apply State.confirmStep_keeps | with_reducible apply State.ledgerStep_keeps | with_reducible apply State.calSample_keeps | with_reducible apply State.modChan_keeps | with_reducible apply Keeps.ite | with_reducible apply Keeps.foldl | intro _)
    all_goals (try ((with_reducible apply Keeps.lit); (case h1 => exact rfl); (case h2 => exact rfl); (case h3 => exact rfl); (case h4 => exact rfl); (case h5 => exact rfl)))
    all_goals (try split))

theorem State.releaseImon_keeps {s₀ : State} (s : State) (p : PhaseId) (hk : Keeps s₀ s) : Keeps s₀ (State.releaseImon s p) := by
  unfold State.releaseImon
  iterate 5 (
    repeat (first | with_reducible assumption | with_reducible apply State.releasedEvent_keeps | with_reducible apply State.modPh_keeps | with_reducible apply Keeps.ite | with_reducible apply Keeps.foldl | intro _))

theorem State.azTake_keeps {s₀ : State} (s : State) (p : PhaseId) (hk : Keeps s₀ s) : Keeps s₀ (State.azTake s p) := by
  unfold State.azTake
  iterate 5 (
    repeat (first | with_reducible assumption | with_reducible apply State.releaseImon_keeps | with_reducible apply State.signalResidue_keeps | with_reducible apply State.halves_keeps | with_reducible apply State.modPh_keeps | with_reducible apply Keeps.ite | with_reducible apply Keeps.foldl | intro _))

theorem State.endSession_keeps {s₀ : State} (s : State) (reason : Nat) (hk : Keeps s₀ s) : Keeps s₀ (State.endSession s reason) := by
  unfold State.endSession
  iterate 5 (
    repeat (first | with_reducible assumption | with_reducible apply State.event_keeps | with_reducible apply Keeps.ite | with_reducible apply Keeps.foldl | intro _)
    all_goals (try ((with_reducible apply Keeps.lit); (case h1 => exact rfl); (case h2 => exact rfl); (case h3 => exact rfl); (case h4 => exact rfl); (case h5 => exact rfl)))
    repeat (first | with_reducible assumption | with_reducible apply State.event_keeps | with_reducible apply Keeps.ite | with_reducible apply Keeps.foldl | intro _))

theorem State.openSession_keeps {s₀ : State} (s : State) (hk : Keeps s₀ s) : Keeps s₀ (State.openSession s) := by
  unfold State.openSession
  iterate 5 (
    all_goals (try ((with_reducible apply Keeps.lit); (case h1 => exact rfl); (case h2 => exact rfl); (case h3 => exact rfl); (case h4 => exact rfl); (case h5 => exact rfl)))
    repeat (first | with_reducible assumption | with_reducible apply State.endSession_keeps | with_reducible apply Keeps.ite | with_reducible apply Keeps.foldl | intro _))

theorem State.authFailed_keeps {s₀ : State} (s : State) (n : Word) (hk : Keeps s₀ s) : Keeps s₀ (State.authFailed s n) := by
  unfold State.authFailed
  iterate 5 (
    repeat (first | with_reducible assumption | with_reducible apply State.event_keeps | with_reducible apply Keeps.ite | with_reducible apply Keeps.foldl | intro _)
    all_goals (try ((with_reducible apply Keeps.lit); (case h1 => exact rfl); (case h2 => exact rfl); (case h3 => exact rfl); (case h4 => exact rfl); (case h5 => exact rfl)))
    repeat (first | with_reducible assumption | with_reducible apply State.event_keeps | with_reducible apply Keeps.ite | with_reducible apply Keeps.foldl | intro _))

theorem State.violated_keeps {s₀ : State} (s : State) (v : Nat) (hseq : Nat) (hk : Keeps s₀ s) : Keeps s₀ (State.violated s v hseq) := by
  unfold State.violated
  iterate 5 (
    repeat (first | with_reducible assumption | with_reducible apply State.summaryFree_keeps | with_reducible apply Keeps.ite | with_reducible apply Keeps.foldl | intro _)
    all_goals (try ((with_reducible apply Keeps.lit); (case h1 => exact rfl); (case h2 => exact rfl); (case h3 => exact rfl); (case h4 => exact rfl); (case h5 => exact rfl)))
    repeat (first | with_reducible assumption | with_reducible apply State.summaryFree_keeps | with_reducible apply Keeps.ite | with_reducible apply Keeps.foldl | intro _))

theorem State.acceptFrame_keeps {s₀ : State} (s : State) (h : Word) (f : SpiFrame) (hk : Keeps s₀ s) : Keeps s₀ (s.acceptFrame h f) := by
  unfold State.acceptFrame
  extract_lets r now
  split
  · exact hk.same rfl rfl rfl (Mbox.modSlot_events_same _ _ _) rfl
  · exact hk.same rfl rfl rfl (Mbox.modSlot_events_same _ _ _) rfl
  · split
    · exact hk.mb _ (fun h => by simp only [List.length_drop]; omega)
    · exact hk.same rfl rfl rfl (Mbox.modSlot_events_same _ _ _) rfl
  · exact hk

theorem State.frameOk_keeps {s₀ : State} (s : State) (h : Word) (f : SpiFrame) (hk : Keeps s₀ s) : Keeps s₀ (State.frameOk s h f) := by
  unfold State.frameOk
  iterate 5 (
    repeat (first | with_reducible assumption | with_reducible apply State.acceptFrame_keeps | with_reducible apply State.violated_keeps | with_reducible apply Keeps.ite | with_reducible apply Keeps.foldl | intro _)
    all_goals (try ((with_reducible apply Keeps.lit); (case h1 => exact rfl); (case h2 => exact rfl); (case h3 => exact rfl); (case h4 => exact rfl); (case h5 => exact rfl)))
    repeat (first | with_reducible assumption | with_reducible apply State.acceptFrame_keeps | with_reducible apply State.violated_keeps | with_reducible apply Keeps.ite | with_reducible apply Keeps.foldl | intro _))

theorem State.spi_keeps {s₀ : State} (s : State) (h : Word) (f : SpiFrame) (hk : Keeps s₀ s) : Keeps s₀ (s.spi h f) := by
  unfold State.spi
  extract_lets n out l v free l1 s1
  have k1 (t : State) (l : List Word) (h : Keeps s₀ t) : Keeps s₀ (out t l) := h.same rfl rfl rfl rfl rfl
  have k2 : Keeps s₀ s1 := hk.same rfl rfl rfl rfl rfl
  clear_value s1
  refine Keeps.ite (k1 _ _ hk) (Keeps.ite (k1 _ _ hk) (Keeps.ite (State.violated_keeps _ _ _ (k1 _ _ hk)) ?_))
  exact Keeps.ite (State.frameOk_keeps _ _ _ k2) (State.violated_keeps _ _ _ k2)

theorem State.unbind_keeps {s₀ : State} (s : State) (ps : List PhaseId) (hk : Keeps s₀ s) : Keeps s₀ (State.unbind s ps) := by
  unfold State.unbind
  iterate 5 (
    repeat (first | with_reducible assumption | with_reducible apply State.halves_keeps | with_reducible apply State.modPh_keeps | with_reducible apply Keeps.ite | with_reducible apply Keeps.foldl | intro _))

theorem State.resyncStep_keeps {s₀ : State} (s : State) (h : HalfId) (hk : Keeps s₀ s) : Keeps s₀ (State.resyncStep s h) := by
  unfold State.resyncStep
  iterate 5 (
    repeat (first | with_reducible assumption | with_reducible apply State.copyHalf_keeps | with_reducible apply State.modHs_keeps | with_reducible apply Keeps.ite | with_reducible apply Keeps.foldl | intro _)
    all_goals (try ((with_reducible apply Keeps.lit); (case h1 => exact rfl); (case h2 => exact rfl); (case h3 => exact rfl); (case h4 => exact rfl); (case h5 => exact rfl)))
    all_goals (try split))

theorem State.markTag_keeps {s₀ : State} (s : State) (hk : Keeps s₀ s) : Keeps s₀ (State.markTag s) := by
  unfold State.markTag
  iterate 5 (
    repeat (first | with_reducible assumption | with_reducible apply State.resyncStep_keeps | with_reducible apply State.settle_keeps | with_reducible apply State.halves_keeps | with_reducible apply Keeps.ite | with_reducible apply Keeps.foldl | intro _))

theorem State.unattributed_keeps {s₀ : State} (s : State) (t : Nat) (hk : Keeps s₀ s) : Keeps s₀ (State.unattributed s t) := by
  unfold State.unattributed
  iterate 5 (
    repeat (first | with_reducible assumption | with_reducible apply State.loseElig_keeps | with_reducible apply State.summary_keeps | with_reducible apply State.event_keeps | with_reducible apply Keeps.ite | with_reducible apply Keeps.foldl | intro _)
    all_goals (try ((with_reducible apply Keeps.lit); (case h1 => exact rfl); (case h2 => exact rfl); (case h3 => exact rfl); (case h4 => exact rfl); (case h5 => exact rfl)))
    repeat (first | with_reducible assumption | with_reducible apply State.loseElig_keeps | with_reducible apply State.summary_keeps | with_reducible apply State.event_keeps | with_reducible apply Keeps.ite | with_reducible apply Keeps.foldl | intro _)
    all_goals (try dsimp only)
    all_goals (try split))

theorem State.retryContext_keeps {s₀ : State} (s : State) (c : CtxId) (hk : Keeps s₀ s) : Keeps s₀ (State.retryContext s c) := by
  unfold State.retryContext
  iterate 5 (
    repeat (first | with_reducible assumption | with_reducible apply State.releasedEvent_keeps | with_reducible apply State.modCtx_keeps | with_reducible apply Keeps.ite | with_reducible apply Keeps.foldl | intro _)
    all_goals (try ((with_reducible apply Keeps.lit); (case h1 => exact rfl); (case h2 => exact rfl); (case h3 => exact rfl); (case h4 => exact rfl); (case h5 => exact rfl)))
    all_goals (try dsimp only)
    all_goals (try split))

theorem State.retryChannel_keeps {s₀ : State} (s : State) (c : CtxId) (hk : Keeps s₀ s) : Keeps s₀ (State.retryChannel s c) := by
  unfold State.retryChannel
  iterate 5 (
    repeat (first | with_reducible assumption | with_reducible apply State.releasedEvent_keeps | with_reducible apply State.tryRelease_keeps | with_reducible apply State.modChan_keeps | with_reducible apply State.modCtx_keeps | with_reducible apply Keeps.ite | with_reducible apply Keeps.foldl | intro _)
    all_goals (try ((with_reducible apply Keeps.lit); (case h1 => exact rfl); (case h2 => exact rfl); (case h3 => exact rfl); (case h4 => exact rfl); (case h5 => exact rfl)))
    all_goals (try dsimp only)
    all_goals (try split))

theorem State.leaveRun_keeps {s₀ : State} (s : State) (hk : Keeps s₀ s) : Keeps s₀ (State.leaveRun s) := by
  unfold State.leaveRun
  iterate 5 (
    repeat (first | with_reducible assumption | with_reducible apply State.flushAll_keeps | with_reducible apply State.goto_keeps | with_reducible apply Keeps.ite | with_reducible apply Keeps.foldl | intro _)
    all_goals (try ((with_reducible apply Keeps.lit); (case h1 => exact rfl); (case h2 => exact rfl); (case h3 => exact rfl); (case h4 => exact rfl); (case h5 => exact rfl)))
    repeat (first | with_reducible assumption | with_reducible apply State.flushAll_keeps | with_reducible apply State.goto_keeps | with_reducible apply Keeps.ite | with_reducible apply Keeps.foldl | intro _))

theorem State.parkRails_keeps {s₀ : State} (s : State) (hk : Keeps s₀ s) : Keeps s₀ (State.parkRails s) := by
  unfold State.parkRails
  iterate 5 (
    repeat (first | with_reducible assumption | with_reducible apply State.stopReg_keeps | with_reducible apply State.halves_keeps | with_reducible apply Keeps.ite | with_reducible apply Keeps.foldl | intro _))

theorem State.modPort_keeps {s₀ : State} (s : State) (p : Port) (f : TarnPort → TarnPort) (hk : Keeps s₀ s) : Keeps s₀ (State.modPort s p f) := by
  unfold State.modPort
  iterate 5 (
    all_goals (try ((with_reducible apply Keeps.lit); (case h1 => exact rfl); (case h2 => exact rfl); (case h3 => exact rfl); (case h4 => exact rfl); (case h5 => exact rfl)))
    repeat (first | with_reducible assumption | with_reducible apply Keeps.ite | with_reducible apply Keeps.foldl | intro _)
    all_goals (try split))

theorem State.modTarn_keeps {s₀ : State} (s : State) (c : CtxId) (f : TarnS → TarnS) (hk : Keeps s₀ s) : Keeps s₀ (State.modTarn s c f) := by
  unfold State.modTarn
  iterate 5 (
    repeat (first | with_reducible assumption | with_reducible apply State.modCtx_keeps | with_reducible apply Keeps.ite | with_reducible apply Keeps.foldl | intro _))

theorem State.drive_keeps {s₀ : State} (s : State) (port : Port) (bs : List Byte) (hk : Keeps s₀ s) : Keeps s₀ (State.drive s port bs) := by
  unfold State.drive
  iterate 5 (
    repeat (first | with_reducible assumption | with_reducible apply State.modPort_keeps | with_reducible apply Keeps.ite | with_reducible apply Keeps.foldl | intro _))

theorem State.enrol_keeps {s₀ : State} (s : State) (old new : BitVec 64) (hk : Keeps s₀ s) : Keeps s₀ (State.enrol s old new) := by
  unfold State.enrol
  iterate 5 (
    repeat (first | with_reducible assumption | with_reducible apply State.modTarn_keeps | with_reducible apply Keeps.ite | with_reducible apply Keeps.foldl | intro _))

theorem State.poll_keeps {s₀ : State} (s : State) (port : Port) (a : CtxId) (kind budget : Nat) (hk : Keeps s₀ s) : Keeps s₀ (State.poll s port a kind budget) := by
  unfold State.poll
  iterate 5 (
    repeat (first | with_reducible assumption | with_reducible apply State.drive_keeps | with_reducible apply State.modTarn_keeps | with_reducible apply State.modPort_keeps | with_reducible apply State.answer_keeps | with_reducible apply Keeps.ite | with_reducible apply Keeps.foldl | intro _))

theorem State.violate_keeps {s₀ : State} (s : State) (a : CtxId) (code : Nat) (hk : Keeps s₀ s) : Keeps s₀ (State.violate s a code) := by
  unfold State.violate
  iterate 5 (
    repeat (first | with_reducible assumption | with_reducible apply State.modTarn_keeps | with_reducible apply State.declareCtx_keeps | with_reducible apply State.summaryFree_keeps | with_reducible apply State.event_keeps | with_reducible apply Keeps.ite | with_reducible apply Keeps.foldl | intro _))

theorem State.tarnViolation_keeps {s₀ : State} (s : State) (a : CtxId) (code : Nat) (hk : Keeps s₀ s) : Keeps s₀ (State.tarnViolation s a code) := by
  unfold State.tarnViolation
  iterate 5 (
    repeat (first | with_reducible assumption | with_reducible apply State.violate_keeps | with_reducible apply State.modTarn_keeps | with_reducible apply State.quarRelease_keeps | with_reducible apply Keeps.ite | with_reducible apply Keeps.foldl | intro _))

theorem State.keepReply_keeps {s₀ : State} (s : State) (port : Port) (q : Poll) (r : TarnChars) (hk : Keeps s₀ s) : Keeps s₀ (State.keepReply s port q r) := by
  unfold State.keepReply
  iterate 5 (
    repeat (first | with_reducible assumption | with_reducible apply State.modTarn_keeps | with_reducible apply State.modPort_keeps | with_reducible apply Keeps.ite | with_reducible apply Keeps.foldl | intro _))

theorem State.cleanReply_keeps {s₀ : State} (s : State) (port : Port) (q : Poll) (r : TarnChars) (err : BcastErr) (hk : Keeps s₀ s) : Keeps s₀ (State.cleanReply s port q r err) := by
  unfold State.cleanReply
  iterate 5 (
    repeat (first | with_reducible assumption | with_reducible apply State.keepReply_keeps | with_reducible apply State.modTarn_keeps | with_reducible apply State.quarRelease_keeps | with_reducible apply State.bcast_keeps | with_reducible apply Keeps.ite | with_reducible apply Keeps.foldl | intro _))

theorem State.again_keeps {s₀ : State} (s : State) (t : Trig) (hk : Keeps s₀ s) : Keeps s₀ (State.again s t) := by
  cases t <;> unfold State.again <;> dsimp only
  · exact Keeps.ite (State.move_keeps _ _ _ hk (fun _ h => State.enterHoldup_keeps _ h)) hk
  · exact Keeps.ite (State.move_keeps _ _ _ hk (fun _ h => State.toBoot_keeps _ h)) hk
  · exact Keeps.ite (State.move_keeps _ _ _ hk (fun _ h => State.enterSafe_keeps _ h)) hk
  · split
    · exact Keeps.ite (State.move_keeps _ _ _ hk (fun _ h => State.endBoot_keeps _ h)) hk
    · exact Keeps.ite (State.move_keeps _ _ _ (Keeps.ite hk (State.parkRails_keeps _ hk)) (fun _ h => State.leaveRun_keeps _ h)) hk
    · exact Keeps.ite hk (State.move_keeps _ _ _ hk (fun _ h => State.goto_keeps _ _ h))
    · exact hk
  · exact Keeps.ite (State.move_keeps _ _ _ hk (fun _ h => State.enterRun_keeps _ h)) hk

theorem State.reexamine_keeps {s₀ : State} (s : State) (hk : Keeps s₀ s) : Keeps s₀ (State.reexamine s) := by
  unfold State.reexamine
  refine Keeps.foldl (f := State.again) ?_ (fun t x h => State.again_keeps t x h) _
  exact hk.same rfl rfl rfl rfl rfl

theorem State.fabEdge_keeps {s₀ : State} (s : State) (hk : Keeps s₀ s) : Keeps s₀ (State.fabEdge s) := by
  unfold State.fabEdge
  iterate 5 (
    repeat (first | with_reducible assumption | with_reducible apply State.reexamine_keeps | with_reducible apply State.engineStep_keeps | with_reducible apply State.turnOver_keeps | with_reducible apply State.newCycle_keeps | with_reducible apply Keeps.ite | with_reducible apply Keeps.foldl | intro _))

theorem State.pass_keeps {s₀ : State} (s : State) (hk : Keeps s₀ s) : Keeps s₀ (State.pass s) := by
  unfold State.pass
  iterate 5 (
    repeat (first | with_reducible assumption | with_reducible apply State.markTag_keeps | with_reducible apply State.follow_keeps | with_reducible apply State.arbVote_keeps | with_reducible apply Keeps.ite | with_reducible apply Keeps.foldl | intro _)
    all_goals (try ((with_reducible apply Keeps.lit); (case h1 => exact rfl); (case h2 => exact rfl); (case h3 => exact rfl); (case h4 => exact rfl); (case h5 => exact rfl)))
    repeat (first | with_reducible assumption | with_reducible apply State.markTag_keeps | with_reducible apply State.follow_keeps | with_reducible apply State.arbVote_keeps | with_reducible apply Keeps.ite | with_reducible apply Keeps.foldl | intro _)
    all_goals (try dsimp only)
    all_goals (try split))

theorem State.tick_keeps {s₀ : State} (s : State) (hk : Keeps s₀ s) : Keeps s₀ (State.tick s) := by
  unfold State.tick
  iterate 5 (
    repeat (first | with_reducible assumption | with_reducible apply State.pass_keeps | with_reducible apply State.fabEdge_keeps | with_reducible apply Keeps.ite | with_reducible apply Keeps.foldl | intro _))

end Sys2Proof.Machine
end

