-- ==== Sys2Proof/Laws/State.lean ====
section
/-!
SUPPORT. The small lemmas of the named updates: what each leaves of the state, field by field, and what a table reads
after one of its entries changed. Cite these; do not unfold an update.
-/
namespace Sys2Proof.Machine

/-! ### Tables -/

@[simp] theorem upd_getElem {α : Type} {n : Nat} (v : Vector α n) (i : Fin n) (f : α → α) : (upd v i f)[i.val] = f v[i.val] := by simp [upd]
theorem upd_getElem_ne {α : Type} {n : Nat} (v : Vector α n) (i : Fin n) (j : Nat) (hj : j < n) (f : α → α) (h : i.val ≠ j) :
    (upd v i f)[j] = v[j] := by simp [upd, h]
theorem upd_get {α : Type} {n : Nat} (v : Vector α n) (i : Fin n) (f : α → α) : (upd v i f)[i] = f v[i] := by simp [upd]
theorem upd_get_ne {α : Type} {n : Nat} (v : Vector α n) (i j : Fin n) (f : α → α) (h : j ≠ i) : (upd v i f)[j] = v[j] := by
  have : i.val ≠ j.val := fun e => h (Fin.ext e.symm)
  simp [upd, this]
@[simp] theorem every_getElem {α β : Type} {n : Nat} (v : Vector α n) (f : Fin n → α → β) (j : Nat) (hj : j < n) :
    (every v f)[j] = f ⟨j, hj⟩ v[j] := by simp [every]
theorem every_get {α β : Type} {n : Nat} (v : Vector α n) (f : Fin n → α → β) (i : Fin n) : (every v f)[i] = f i v[i] := by simp [every]

/-! ### Fields of State after each update -/

@[simp] theorem State.modCtx_dev (s : State) (c : CtxId) (g : Ctx → Ctx) : (s.modCtx c g).dev = s.dev := rfl
@[simp] theorem State.modCtx_clk (s : State) (c : CtxId) (g : Ctx → Ctx) : (s.modCtx c g).clk = s.clk := rfl
@[simp] theorem State.modCtx_gAcc (s : State) (c : CtxId) (g : Ctx → Ctx) : (s.modCtx c g).gAcc = s.gAcc := rfl
@[simp] theorem State.modCtx_gInF (s : State) (c : CtxId) (g : Ctx → Ctx) : (s.modCtx c g).gInF = s.gInF := rfl
@[simp] theorem State.modCtx_east (s : State) (c : CtxId) (g : Ctx → Ctx) : (s.modCtx c g).east = s.east := rfl
@[simp] theorem State.modCtx_west (s : State) (c : CtxId) (g : Ctx → Ctx) : (s.modCtx c g).west = s.west := rfl
@[simp] theorem State.modCtx_ph (s : State) (c : CtxId) (g : Ctx → Ctx) : (s.modCtx c g).ph = s.ph := rfl
@[simp] theorem State.modCtx_sum (s : State) (c : CtxId) (g : Ctx → Ctx) : (s.modCtx c g).sum = s.sum := rfl
@[simp] theorem State.modCtx_ft (s : State) (c : CtxId) (g : Ctx → Ctx) : (s.modCtx c g).ft = s.ft := rfl
@[simp] theorem State.modCtx_cal (s : State) (c : CtxId) (g : Ctx → Ctx) : (s.modCtx c g).cal = s.cal := rfl
@[simp] theorem State.modCtx_th (s : State) (c : CtxId) (g : Ctx → Ctx) : (s.modCtx c g).th = s.th := rfl
@[simp] theorem State.modCtx_crag (s : State) (c : CtxId) (g : Ctx → Ctx) : (s.modCtx c g).crag = s.crag := rfl
@[simp] theorem State.modCtx_tokErr (s : State) (c : CtxId) (g : Ctx → Ctx) : (s.modCtx c g).tokErr = s.tokErr := rfl
@[simp] theorem State.modCtx_tokCount (s : State) (c : CtxId) (g : Ctx → Ctx) : (s.modCtx c g).tokCount = s.tokCount := rfl
@[simp] theorem State.modCtx_tokFree (s : State) (c : CtxId) (g : Ctx → Ctx) : (s.modCtx c g).tokFree = s.tokFree := rfl
@[simp] theorem State.modCtx_tokOld (s : State) (c : CtxId) (g : Ctx → Ctx) : (s.modCtx c g).tokOld = s.tokOld := rfl
@[simp] theorem State.modCtx_lastOn (s : State) (c : CtxId) (g : Ctx → Ctx) : (s.modCtx c g).lastOn = s.lastOn := rfl
@[simp] theorem State.modCtx_nv (s : State) (c : CtxId) (g : Ctx → Ctx) : (s.modCtx c g).nv = s.nv := rfl
@[simp] theorem State.modCtx_led (s : State) (c : CtxId) (g : Ctx → Ctx) : (s.modCtx c g).led = s.led := rfl
@[simp] theorem State.modCtx_cairn (s : State) (c : CtxId) (g : Ctx → Ctx) : (s.modCtx c g).cairn = s.cairn := rfl
@[simp] theorem State.modCtx_mb (s : State) (c : CtxId) (g : Ctx → Ctx) : (s.modCtx c g).mb = s.mb := rfl
@[simp] theorem State.modCtx_pmb (s : State) (c : CtxId) (g : Ctx → Ctx) : (s.modCtx c g).pmb = s.pmb := rfl
@[simp] theorem State.modCtx_tarnA (s : State) (c : CtxId) (g : Ctx → Ctx) : (s.modCtx c g).tarnA = s.tarnA := rfl
@[simp] theorem State.modCtx_tarnB (s : State) (c : CtxId) (g : Ctx → Ctx) : (s.modCtx c g).tarnB = s.tarnB := rfl
@[simp] theorem State.modCtx_jtag (s : State) (c : CtxId) (g : Ctx → Ctx) : (s.modCtx c g).jtag = s.jtag := rfl
@[simp] theorem State.modCtx_commits (s : State) (c : CtxId) (g : Ctx → Ctx) : (s.modCtx c g).commits = s.commits := rfl
@[simp] theorem State.modCtx_free (s : State) (c : CtxId) (g : Ctx → Ctx) : (s.modCtx c g).free = s.free := rfl
@[simp] theorem State.modCtx_pending (s : State) (c : CtxId) (g : Ctx → Ctx) : (s.modCtx c g).pending = s.pending := rfl

@[simp] theorem State.modPh_dev (s : State) (p : PhaseId) (g : PhaseS → PhaseS) : (s.modPh p g).dev = s.dev := rfl
@[simp] theorem State.modPh_clk (s : State) (p : PhaseId) (g : PhaseS → PhaseS) : (s.modPh p g).clk = s.clk := rfl
@[simp] theorem State.modPh_gAcc (s : State) (p : PhaseId) (g : PhaseS → PhaseS) : (s.modPh p g).gAcc = s.gAcc := rfl
@[simp] theorem State.modPh_gInF (s : State) (p : PhaseId) (g : PhaseS → PhaseS) : (s.modPh p g).gInF = s.gInF := rfl
@[simp] theorem State.modPh_east (s : State) (p : PhaseId) (g : PhaseS → PhaseS) : (s.modPh p g).east = s.east := rfl
@[simp] theorem State.modPh_west (s : State) (p : PhaseId) (g : PhaseS → PhaseS) : (s.modPh p g).west = s.west := rfl
@[simp] theorem State.modPh_ctx (s : State) (p : PhaseId) (g : PhaseS → PhaseS) : (s.modPh p g).ctx = s.ctx := rfl
@[simp] theorem State.modPh_sum (s : State) (p : PhaseId) (g : PhaseS → PhaseS) : (s.modPh p g).sum = s.sum := rfl
@[simp] theorem State.modPh_ft (s : State) (p : PhaseId) (g : PhaseS → PhaseS) : (s.modPh p g).ft = s.ft := rfl
@[simp] theorem State.modPh_cal (s : State) (p : PhaseId) (g : PhaseS → PhaseS) : (s.modPh p g).cal = s.cal := rfl
@[simp] theorem State.modPh_th (s : State) (p : PhaseId) (g : PhaseS → PhaseS) : (s.modPh p g).th = s.th := rfl
@[simp] theorem State.modPh_crag (s : State) (p : PhaseId) (g : PhaseS → PhaseS) : (s.modPh p g).crag = s.crag := rfl
@[simp] theorem State.modPh_tokErr (s : State) (p : PhaseId) (g : PhaseS → PhaseS) : (s.modPh p g).tokErr = s.tokErr := rfl
@[simp] theorem State.modPh_tokCount (s : State) (p : PhaseId) (g : PhaseS → PhaseS) : (s.modPh p g).tokCount = s.tokCount := rfl
@[simp] theorem State.modPh_tokFree (s : State) (p : PhaseId) (g : PhaseS → PhaseS) : (s.modPh p g).tokFree = s.tokFree := rfl
@[simp] theorem State.modPh_tokOld (s : State) (p : PhaseId) (g : PhaseS → PhaseS) : (s.modPh p g).tokOld = s.tokOld := rfl
@[simp] theorem State.modPh_lastOn (s : State) (p : PhaseId) (g : PhaseS → PhaseS) : (s.modPh p g).lastOn = s.lastOn := rfl
@[simp] theorem State.modPh_nv (s : State) (p : PhaseId) (g : PhaseS → PhaseS) : (s.modPh p g).nv = s.nv := rfl
@[simp] theorem State.modPh_led (s : State) (p : PhaseId) (g : PhaseS → PhaseS) : (s.modPh p g).led = s.led := rfl
@[simp] theorem State.modPh_cairn (s : State) (p : PhaseId) (g : PhaseS → PhaseS) : (s.modPh p g).cairn = s.cairn := rfl
@[simp] theorem State.modPh_mb (s : State) (p : PhaseId) (g : PhaseS → PhaseS) : (s.modPh p g).mb = s.mb := rfl
@[simp] theorem State.modPh_pmb (s : State) (p : PhaseId) (g : PhaseS → PhaseS) : (s.modPh p g).pmb = s.pmb := rfl
@[simp] theorem State.modPh_tarnA (s : State) (p : PhaseId) (g : PhaseS → PhaseS) : (s.modPh p g).tarnA = s.tarnA := rfl
@[simp] theorem State.modPh_tarnB (s : State) (p : PhaseId) (g : PhaseS → PhaseS) : (s.modPh p g).tarnB = s.tarnB := rfl
@[simp] theorem State.modPh_jtag (s : State) (p : PhaseId) (g : PhaseS → PhaseS) : (s.modPh p g).jtag = s.jtag := rfl
@[simp] theorem State.modPh_commits (s : State) (p : PhaseId) (g : PhaseS → PhaseS) : (s.modPh p g).commits = s.commits := rfl
@[simp] theorem State.modPh_free (s : State) (p : PhaseId) (g : PhaseS → PhaseS) : (s.modPh p g).free = s.free := rfl
@[simp] theorem State.modPh_pending (s : State) (p : PhaseId) (g : PhaseS → PhaseS) : (s.modPh p g).pending = s.pending := rfl

@[simp] theorem State.modChan_dev (s : State) (c : CtxId) (g : Chan → Chan) : (s.modChan c g).dev = s.dev := rfl
@[simp] theorem State.modChan_clk (s : State) (c : CtxId) (g : Chan → Chan) : (s.modChan c g).clk = s.clk := rfl
@[simp] theorem State.modChan_gAcc (s : State) (c : CtxId) (g : Chan → Chan) : (s.modChan c g).gAcc = s.gAcc := rfl
@[simp] theorem State.modChan_gInF (s : State) (c : CtxId) (g : Chan → Chan) : (s.modChan c g).gInF = s.gInF := rfl
@[simp] theorem State.modChan_east (s : State) (c : CtxId) (g : Chan → Chan) : (s.modChan c g).east = s.east := rfl
@[simp] theorem State.modChan_west (s : State) (c : CtxId) (g : Chan → Chan) : (s.modChan c g).west = s.west := rfl
@[simp] theorem State.modChan_ph (s : State) (c : CtxId) (g : Chan → Chan) : (s.modChan c g).ph = s.ph := rfl
@[simp] theorem State.modChan_sum (s : State) (c : CtxId) (g : Chan → Chan) : (s.modChan c g).sum = s.sum := rfl
@[simp] theorem State.modChan_ft (s : State) (c : CtxId) (g : Chan → Chan) : (s.modChan c g).ft = s.ft := rfl
@[simp] theorem State.modChan_cal (s : State) (c : CtxId) (g : Chan → Chan) : (s.modChan c g).cal = s.cal := rfl
@[simp] theorem State.modChan_th (s : State) (c : CtxId) (g : Chan → Chan) : (s.modChan c g).th = s.th := rfl
@[simp] theorem State.modChan_crag (s : State) (c : CtxId) (g : Chan → Chan) : (s.modChan c g).crag = s.crag := rfl
@[simp] theorem State.modChan_tokErr (s : State) (c : CtxId) (g : Chan → Chan) : (s.modChan c g).tokErr = s.tokErr := rfl
@[simp] theorem State.modChan_tokCount (s : State) (c : CtxId) (g : Chan → Chan) : (s.modChan c g).tokCount = s.tokCount := rfl
@[simp] theorem State.modChan_tokFree (s : State) (c : CtxId) (g : Chan → Chan) : (s.modChan c g).tokFree = s.tokFree := rfl
@[simp] theorem State.modChan_tokOld (s : State) (c : CtxId) (g : Chan → Chan) : (s.modChan c g).tokOld = s.tokOld := rfl
@[simp] theorem State.modChan_lastOn (s : State) (c : CtxId) (g : Chan → Chan) : (s.modChan c g).lastOn = s.lastOn := rfl
@[simp] theorem State.modChan_nv (s : State) (c : CtxId) (g : Chan → Chan) : (s.modChan c g).nv = s.nv := rfl
@[simp] theorem State.modChan_led (s : State) (c : CtxId) (g : Chan → Chan) : (s.modChan c g).led = s.led := rfl
@[simp] theorem State.modChan_cairn (s : State) (c : CtxId) (g : Chan → Chan) : (s.modChan c g).cairn = s.cairn := rfl
@[simp] theorem State.modChan_mb (s : State) (c : CtxId) (g : Chan → Chan) : (s.modChan c g).mb = s.mb := rfl
@[simp] theorem State.modChan_pmb (s : State) (c : CtxId) (g : Chan → Chan) : (s.modChan c g).pmb = s.pmb := rfl
@[simp] theorem State.modChan_tarnA (s : State) (c : CtxId) (g : Chan → Chan) : (s.modChan c g).tarnA = s.tarnA := rfl
@[simp] theorem State.modChan_tarnB (s : State) (c : CtxId) (g : Chan → Chan) : (s.modChan c g).tarnB = s.tarnB := rfl
@[simp] theorem State.modChan_jtag (s : State) (c : CtxId) (g : Chan → Chan) : (s.modChan c g).jtag = s.jtag := rfl
@[simp] theorem State.modChan_commits (s : State) (c : CtxId) (g : Chan → Chan) : (s.modChan c g).commits = s.commits := rfl
@[simp] theorem State.modChan_free (s : State) (c : CtxId) (g : Chan → Chan) : (s.modChan c g).free = s.free := rfl
@[simp] theorem State.modChan_pending (s : State) (c : CtxId) (g : Chan → Chan) : (s.modChan c g).pending = s.pending := rfl

@[simp] theorem State.modSched_dev (s : State) (c : CtxId) (g : Sched → Sched) : (s.modSched c g).dev = s.dev := rfl
@[simp] theorem State.modSched_clk (s : State) (c : CtxId) (g : Sched → Sched) : (s.modSched c g).clk = s.clk := rfl
@[simp] theorem State.modSched_gAcc (s : State) (c : CtxId) (g : Sched → Sched) : (s.modSched c g).gAcc = s.gAcc := rfl
@[simp] theorem State.modSched_gInF (s : State) (c : CtxId) (g : Sched → Sched) : (s.modSched c g).gInF = s.gInF := rfl
@[simp] theorem State.modSched_east (s : State) (c : CtxId) (g : Sched → Sched) : (s.modSched c g).east = s.east := rfl
@[simp] theorem State.modSched_west (s : State) (c : CtxId) (g : Sched → Sched) : (s.modSched c g).west = s.west := rfl
@[simp] theorem State.modSched_ph (s : State) (c : CtxId) (g : Sched → Sched) : (s.modSched c g).ph = s.ph := rfl
@[simp] theorem State.modSched_sum (s : State) (c : CtxId) (g : Sched → Sched) : (s.modSched c g).sum = s.sum := rfl
@[simp] theorem State.modSched_ft (s : State) (c : CtxId) (g : Sched → Sched) : (s.modSched c g).ft = s.ft := rfl
@[simp] theorem State.modSched_cal (s : State) (c : CtxId) (g : Sched → Sched) : (s.modSched c g).cal = s.cal := rfl
@[simp] theorem State.modSched_th (s : State) (c : CtxId) (g : Sched → Sched) : (s.modSched c g).th = s.th := rfl
@[simp] theorem State.modSched_crag (s : State) (c : CtxId) (g : Sched → Sched) : (s.modSched c g).crag = s.crag := rfl
@[simp] theorem State.modSched_tokErr (s : State) (c : CtxId) (g : Sched → Sched) : (s.modSched c g).tokErr = s.tokErr := rfl
@[simp] theorem State.modSched_tokCount (s : State) (c : CtxId) (g : Sched → Sched) : (s.modSched c g).tokCount = s.tokCount := rfl
@[simp] theorem State.modSched_tokFree (s : State) (c : CtxId) (g : Sched → Sched) : (s.modSched c g).tokFree = s.tokFree := rfl
@[simp] theorem State.modSched_tokOld (s : State) (c : CtxId) (g : Sched → Sched) : (s.modSched c g).tokOld = s.tokOld := rfl
@[simp] theorem State.modSched_lastOn (s : State) (c : CtxId) (g : Sched → Sched) : (s.modSched c g).lastOn = s.lastOn := rfl
@[simp] theorem State.modSched_nv (s : State) (c : CtxId) (g : Sched → Sched) : (s.modSched c g).nv = s.nv := rfl
@[simp] theorem State.modSched_led (s : State) (c : CtxId) (g : Sched → Sched) : (s.modSched c g).led = s.led := rfl
@[simp] theorem State.modSched_cairn (s : State) (c : CtxId) (g : Sched → Sched) : (s.modSched c g).cairn = s.cairn := rfl
@[simp] theorem State.modSched_mb (s : State) (c : CtxId) (g : Sched → Sched) : (s.modSched c g).mb = s.mb := rfl
@[simp] theorem State.modSched_pmb (s : State) (c : CtxId) (g : Sched → Sched) : (s.modSched c g).pmb = s.pmb := rfl
@[simp] theorem State.modSched_tarnA (s : State) (c : CtxId) (g : Sched → Sched) : (s.modSched c g).tarnA = s.tarnA := rfl
@[simp] theorem State.modSched_tarnB (s : State) (c : CtxId) (g : Sched → Sched) : (s.modSched c g).tarnB = s.tarnB := rfl
@[simp] theorem State.modSched_jtag (s : State) (c : CtxId) (g : Sched → Sched) : (s.modSched c g).jtag = s.jtag := rfl
@[simp] theorem State.modSched_commits (s : State) (c : CtxId) (g : Sched → Sched) : (s.modSched c g).commits = s.commits := rfl
@[simp] theorem State.modSched_free (s : State) (c : CtxId) (g : Sched → Sched) : (s.modSched c g).free = s.free := rfl
@[simp] theorem State.modSched_pending (s : State) (c : CtxId) (g : Sched → Sched) : (s.modSched c g).pending = s.pending := rfl

@[simp] theorem State.modTarn_dev (s : State) (c : CtxId) (g : TarnS → TarnS) : (s.modTarn c g).dev = s.dev := rfl
@[simp] theorem State.modTarn_clk (s : State) (c : CtxId) (g : TarnS → TarnS) : (s.modTarn c g).clk = s.clk := rfl
@[simp] theorem State.modTarn_gAcc (s : State) (c : CtxId) (g : TarnS → TarnS) : (s.modTarn c g).gAcc = s.gAcc := rfl
@[simp] theorem State.modTarn_gInF (s : State) (c : CtxId) (g : TarnS → TarnS) : (s.modTarn c g).gInF = s.gInF := rfl
@[simp] theorem State.modTarn_east (s : State) (c : CtxId) (g : TarnS → TarnS) : (s.modTarn c g).east = s.east := rfl
@[simp] theorem State.modTarn_west (s : State) (c : CtxId) (g : TarnS → TarnS) : (s.modTarn c g).west = s.west := rfl
@[simp] theorem State.modTarn_ph (s : State) (c : CtxId) (g : TarnS → TarnS) : (s.modTarn c g).ph = s.ph := rfl
@[simp] theorem State.modTarn_sum (s : State) (c : CtxId) (g : TarnS → TarnS) : (s.modTarn c g).sum = s.sum := rfl
@[simp] theorem State.modTarn_ft (s : State) (c : CtxId) (g : TarnS → TarnS) : (s.modTarn c g).ft = s.ft := rfl
@[simp] theorem State.modTarn_cal (s : State) (c : CtxId) (g : TarnS → TarnS) : (s.modTarn c g).cal = s.cal := rfl
@[simp] theorem State.modTarn_th (s : State) (c : CtxId) (g : TarnS → TarnS) : (s.modTarn c g).th = s.th := rfl
@[simp] theorem State.modTarn_crag (s : State) (c : CtxId) (g : TarnS → TarnS) : (s.modTarn c g).crag = s.crag := rfl
@[simp] theorem State.modTarn_tokErr (s : State) (c : CtxId) (g : TarnS → TarnS) : (s.modTarn c g).tokErr = s.tokErr := rfl
@[simp] theorem State.modTarn_tokCount (s : State) (c : CtxId) (g : TarnS → TarnS) : (s.modTarn c g).tokCount = s.tokCount := rfl
@[simp] theorem State.modTarn_tokFree (s : State) (c : CtxId) (g : TarnS → TarnS) : (s.modTarn c g).tokFree = s.tokFree := rfl
@[simp] theorem State.modTarn_tokOld (s : State) (c : CtxId) (g : TarnS → TarnS) : (s.modTarn c g).tokOld = s.tokOld := rfl
@[simp] theorem State.modTarn_lastOn (s : State) (c : CtxId) (g : TarnS → TarnS) : (s.modTarn c g).lastOn = s.lastOn := rfl
@[simp] theorem State.modTarn_nv (s : State) (c : CtxId) (g : TarnS → TarnS) : (s.modTarn c g).nv = s.nv := rfl
@[simp] theorem State.modTarn_led (s : State) (c : CtxId) (g : TarnS → TarnS) : (s.modTarn c g).led = s.led := rfl
@[simp] theorem State.modTarn_cairn (s : State) (c : CtxId) (g : TarnS → TarnS) : (s.modTarn c g).cairn = s.cairn := rfl
@[simp] theorem State.modTarn_mb (s : State) (c : CtxId) (g : TarnS → TarnS) : (s.modTarn c g).mb = s.mb := rfl
@[simp] theorem State.modTarn_pmb (s : State) (c : CtxId) (g : TarnS → TarnS) : (s.modTarn c g).pmb = s.pmb := rfl
@[simp] theorem State.modTarn_tarnA (s : State) (c : CtxId) (g : TarnS → TarnS) : (s.modTarn c g).tarnA = s.tarnA := rfl
@[simp] theorem State.modTarn_tarnB (s : State) (c : CtxId) (g : TarnS → TarnS) : (s.modTarn c g).tarnB = s.tarnB := rfl
@[simp] theorem State.modTarn_jtag (s : State) (c : CtxId) (g : TarnS → TarnS) : (s.modTarn c g).jtag = s.jtag := rfl
@[simp] theorem State.modTarn_commits (s : State) (c : CtxId) (g : TarnS → TarnS) : (s.modTarn c g).commits = s.commits := rfl
@[simp] theorem State.modTarn_free (s : State) (c : CtxId) (g : TarnS → TarnS) : (s.modTarn c g).free = s.free := rfl
@[simp] theorem State.modTarn_pending (s : State) (c : CtxId) (g : TarnS → TarnS) : (s.modTarn c g).pending = s.pending := rfl

@[simp] theorem State.modProbe_dev (s : State) (c : CtxId) (g : Probe → Probe) : (s.modProbe c g).dev = s.dev := rfl
@[simp] theorem State.modProbe_clk (s : State) (c : CtxId) (g : Probe → Probe) : (s.modProbe c g).clk = s.clk := rfl
@[simp] theorem State.modProbe_gAcc (s : State) (c : CtxId) (g : Probe → Probe) : (s.modProbe c g).gAcc = s.gAcc := rfl
@[simp] theorem State.modProbe_gInF (s : State) (c : CtxId) (g : Probe → Probe) : (s.modProbe c g).gInF = s.gInF := rfl
@[simp] theorem State.modProbe_east (s : State) (c : CtxId) (g : Probe → Probe) : (s.modProbe c g).east = s.east := rfl
@[simp] theorem State.modProbe_west (s : State) (c : CtxId) (g : Probe → Probe) : (s.modProbe c g).west = s.west := rfl
@[simp] theorem State.modProbe_ph (s : State) (c : CtxId) (g : Probe → Probe) : (s.modProbe c g).ph = s.ph := rfl
@[simp] theorem State.modProbe_sum (s : State) (c : CtxId) (g : Probe → Probe) : (s.modProbe c g).sum = s.sum := rfl
@[simp] theorem State.modProbe_ft (s : State) (c : CtxId) (g : Probe → Probe) : (s.modProbe c g).ft = s.ft := rfl
@[simp] theorem State.modProbe_cal (s : State) (c : CtxId) (g : Probe → Probe) : (s.modProbe c g).cal = s.cal := rfl
@[simp] theorem State.modProbe_th (s : State) (c : CtxId) (g : Probe → Probe) : (s.modProbe c g).th = s.th := rfl
@[simp] theorem State.modProbe_crag (s : State) (c : CtxId) (g : Probe → Probe) : (s.modProbe c g).crag = s.crag := rfl
@[simp] theorem State.modProbe_tokErr (s : State) (c : CtxId) (g : Probe → Probe) : (s.modProbe c g).tokErr = s.tokErr := rfl
@[simp] theorem State.modProbe_tokCount (s : State) (c : CtxId) (g : Probe → Probe) : (s.modProbe c g).tokCount = s.tokCount := rfl
@[simp] theorem State.modProbe_tokFree (s : State) (c : CtxId) (g : Probe → Probe) : (s.modProbe c g).tokFree = s.tokFree := rfl
@[simp] theorem State.modProbe_tokOld (s : State) (c : CtxId) (g : Probe → Probe) : (s.modProbe c g).tokOld = s.tokOld := rfl
@[simp] theorem State.modProbe_lastOn (s : State) (c : CtxId) (g : Probe → Probe) : (s.modProbe c g).lastOn = s.lastOn := rfl
@[simp] theorem State.modProbe_nv (s : State) (c : CtxId) (g : Probe → Probe) : (s.modProbe c g).nv = s.nv := rfl
@[simp] theorem State.modProbe_led (s : State) (c : CtxId) (g : Probe → Probe) : (s.modProbe c g).led = s.led := rfl
@[simp] theorem State.modProbe_cairn (s : State) (c : CtxId) (g : Probe → Probe) : (s.modProbe c g).cairn = s.cairn := rfl
@[simp] theorem State.modProbe_mb (s : State) (c : CtxId) (g : Probe → Probe) : (s.modProbe c g).mb = s.mb := rfl
@[simp] theorem State.modProbe_pmb (s : State) (c : CtxId) (g : Probe → Probe) : (s.modProbe c g).pmb = s.pmb := rfl
@[simp] theorem State.modProbe_tarnA (s : State) (c : CtxId) (g : Probe → Probe) : (s.modProbe c g).tarnA = s.tarnA := rfl
@[simp] theorem State.modProbe_tarnB (s : State) (c : CtxId) (g : Probe → Probe) : (s.modProbe c g).tarnB = s.tarnB := rfl
@[simp] theorem State.modProbe_jtag (s : State) (c : CtxId) (g : Probe → Probe) : (s.modProbe c g).jtag = s.jtag := rfl
@[simp] theorem State.modProbe_commits (s : State) (c : CtxId) (g : Probe → Probe) : (s.modProbe c g).commits = s.commits := rfl
@[simp] theorem State.modProbe_free (s : State) (c : CtxId) (g : Probe → Probe) : (s.modProbe c g).free = s.free := rfl
@[simp] theorem State.modProbe_pending (s : State) (c : CtxId) (g : Probe → Probe) : (s.modProbe c g).pending = s.pending := rfl

@[simp] theorem State.halves_dev (s : State) (g : Half → Half) : (s.halves g).dev = s.dev := rfl
@[simp] theorem State.halves_clk (s : State) (g : Half → Half) : (s.halves g).clk = s.clk := rfl
@[simp] theorem State.halves_gAcc (s : State) (g : Half → Half) : (s.halves g).gAcc = s.gAcc := rfl
@[simp] theorem State.halves_gInF (s : State) (g : Half → Half) : (s.halves g).gInF = s.gInF := rfl
@[simp] theorem State.halves_ctx (s : State) (g : Half → Half) : (s.halves g).ctx = s.ctx := rfl
@[simp] theorem State.halves_ph (s : State) (g : Half → Half) : (s.halves g).ph = s.ph := rfl
@[simp] theorem State.halves_sum (s : State) (g : Half → Half) : (s.halves g).sum = s.sum := rfl
@[simp] theorem State.halves_ft (s : State) (g : Half → Half) : (s.halves g).ft = s.ft := rfl
@[simp] theorem State.halves_cal (s : State) (g : Half → Half) : (s.halves g).cal = s.cal := rfl
@[simp] theorem State.halves_th (s : State) (g : Half → Half) : (s.halves g).th = s.th := rfl
@[simp] theorem State.halves_crag (s : State) (g : Half → Half) : (s.halves g).crag = s.crag := rfl
@[simp] theorem State.halves_tokErr (s : State) (g : Half → Half) : (s.halves g).tokErr = s.tokErr := rfl
@[simp] theorem State.halves_tokCount (s : State) (g : Half → Half) : (s.halves g).tokCount = s.tokCount := rfl
@[simp] theorem State.halves_tokFree (s : State) (g : Half → Half) : (s.halves g).tokFree = s.tokFree := rfl
@[simp] theorem State.halves_tokOld (s : State) (g : Half → Half) : (s.halves g).tokOld = s.tokOld := rfl
@[simp] theorem State.halves_lastOn (s : State) (g : Half → Half) : (s.halves g).lastOn = s.lastOn := rfl
@[simp] theorem State.halves_nv (s : State) (g : Half → Half) : (s.halves g).nv = s.nv := rfl
@[simp] theorem State.halves_led (s : State) (g : Half → Half) : (s.halves g).led = s.led := rfl
@[simp] theorem State.halves_cairn (s : State) (g : Half → Half) : (s.halves g).cairn = s.cairn := rfl
@[simp] theorem State.halves_mb (s : State) (g : Half → Half) : (s.halves g).mb = s.mb := rfl
@[simp] theorem State.halves_pmb (s : State) (g : Half → Half) : (s.halves g).pmb = s.pmb := rfl
@[simp] theorem State.halves_tarnA (s : State) (g : Half → Half) : (s.halves g).tarnA = s.tarnA := rfl
@[simp] theorem State.halves_tarnB (s : State) (g : Half → Half) : (s.halves g).tarnB = s.tarnB := rfl
@[simp] theorem State.halves_jtag (s : State) (g : Half → Half) : (s.halves g).jtag = s.jtag := rfl
@[simp] theorem State.halves_commits (s : State) (g : Half → Half) : (s.halves g).commits = s.commits := rfl
@[simp] theorem State.halves_free (s : State) (g : Half → Half) : (s.halves g).free = s.free := rfl
@[simp] theorem State.halves_pending (s : State) (g : Half → Half) : (s.halves g).pending = s.pending := rfl

@[simp] theorem State.setHalf_dev (s : State) (h : HalfId) (x : Half) : (s.setHalf h x).dev = s.dev := by cases h <;> rfl
@[simp] theorem State.setHalf_clk (s : State) (h : HalfId) (x : Half) : (s.setHalf h x).clk = s.clk := by cases h <;> rfl
@[simp] theorem State.setHalf_gAcc (s : State) (h : HalfId) (x : Half) : (s.setHalf h x).gAcc = s.gAcc := by cases h <;> rfl
@[simp] theorem State.setHalf_gInF (s : State) (h : HalfId) (x : Half) : (s.setHalf h x).gInF = s.gInF := by cases h <;> rfl
@[simp] theorem State.setHalf_ctx (s : State) (h : HalfId) (x : Half) : (s.setHalf h x).ctx = s.ctx := by cases h <;> rfl
@[simp] theorem State.setHalf_ph (s : State) (h : HalfId) (x : Half) : (s.setHalf h x).ph = s.ph := by cases h <;> rfl
@[simp] theorem State.setHalf_sum (s : State) (h : HalfId) (x : Half) : (s.setHalf h x).sum = s.sum := by cases h <;> rfl
@[simp] theorem State.setHalf_ft (s : State) (h : HalfId) (x : Half) : (s.setHalf h x).ft = s.ft := by cases h <;> rfl
@[simp] theorem State.setHalf_cal (s : State) (h : HalfId) (x : Half) : (s.setHalf h x).cal = s.cal := by cases h <;> rfl
@[simp] theorem State.setHalf_th (s : State) (h : HalfId) (x : Half) : (s.setHalf h x).th = s.th := by cases h <;> rfl
@[simp] theorem State.setHalf_crag (s : State) (h : HalfId) (x : Half) : (s.setHalf h x).crag = s.crag := by cases h <;> rfl
@[simp] theorem State.setHalf_tokErr (s : State) (h : HalfId) (x : Half) : (s.setHalf h x).tokErr = s.tokErr := by cases h <;> rfl
@[simp] theorem State.setHalf_tokCount (s : State) (h : HalfId) (x : Half) : (s.setHalf h x).tokCount = s.tokCount := by cases h <;> rfl
@[simp] theorem State.setHalf_tokFree (s : State) (h : HalfId) (x : Half) : (s.setHalf h x).tokFree = s.tokFree := by cases h <;> rfl
@[simp] theorem State.setHalf_tokOld (s : State) (h : HalfId) (x : Half) : (s.setHalf h x).tokOld = s.tokOld := by cases h <;> rfl
@[simp] theorem State.setHalf_lastOn (s : State) (h : HalfId) (x : Half) : (s.setHalf h x).lastOn = s.lastOn := by cases h <;> rfl
@[simp] theorem State.setHalf_nv (s : State) (h : HalfId) (x : Half) : (s.setHalf h x).nv = s.nv := by cases h <;> rfl
@[simp] theorem State.setHalf_led (s : State) (h : HalfId) (x : Half) : (s.setHalf h x).led = s.led := by cases h <;> rfl
@[simp] theorem State.setHalf_cairn (s : State) (h : HalfId) (x : Half) : (s.setHalf h x).cairn = s.cairn := by cases h <;> rfl
@[simp] theorem State.setHalf_mb (s : State) (h : HalfId) (x : Half) : (s.setHalf h x).mb = s.mb := by cases h <;> rfl
@[simp] theorem State.setHalf_pmb (s : State) (h : HalfId) (x : Half) : (s.setHalf h x).pmb = s.pmb := by cases h <;> rfl
@[simp] theorem State.setHalf_tarnA (s : State) (h : HalfId) (x : Half) : (s.setHalf h x).tarnA = s.tarnA := by cases h <;> rfl
@[simp] theorem State.setHalf_tarnB (s : State) (h : HalfId) (x : Half) : (s.setHalf h x).tarnB = s.tarnB := by cases h <;> rfl
@[simp] theorem State.setHalf_jtag (s : State) (h : HalfId) (x : Half) : (s.setHalf h x).jtag = s.jtag := by cases h <;> rfl
@[simp] theorem State.setHalf_commits (s : State) (h : HalfId) (x : Half) : (s.setHalf h x).commits = s.commits := by cases h <;> rfl
@[simp] theorem State.setHalf_free (s : State) (h : HalfId) (x : Half) : (s.setHalf h x).free = s.free := by cases h <;> rfl
@[simp] theorem State.setHalf_pending (s : State) (h : HalfId) (x : Half) : (s.setHalf h x).pending = s.pending := by cases h <;> rfl

@[simp] theorem State.modHs_dev (s : State) (h : HalfId) (g : HalfS → HalfS) : (s.modHs h g).dev = s.dev := rfl
@[simp] theorem State.modHs_clk (s : State) (h : HalfId) (g : HalfS → HalfS) : (s.modHs h g).clk = s.clk := rfl
@[simp] theorem State.modHs_gAcc (s : State) (h : HalfId) (g : HalfS → HalfS) : (s.modHs h g).gAcc = s.gAcc := rfl
@[simp] theorem State.modHs_gInF (s : State) (h : HalfId) (g : HalfS → HalfS) : (s.modHs h g).gInF = s.gInF := rfl
@[simp] theorem State.modHs_east (s : State) (h : HalfId) (g : HalfS → HalfS) : (s.modHs h g).east = s.east := rfl
@[simp] theorem State.modHs_west (s : State) (h : HalfId) (g : HalfS → HalfS) : (s.modHs h g).west = s.west := rfl
@[simp] theorem State.modHs_ctx (s : State) (h : HalfId) (g : HalfS → HalfS) : (s.modHs h g).ctx = s.ctx := rfl
@[simp] theorem State.modHs_ph (s : State) (h : HalfId) (g : HalfS → HalfS) : (s.modHs h g).ph = s.ph := rfl
@[simp] theorem State.modHs_ft (s : State) (h : HalfId) (g : HalfS → HalfS) : (s.modHs h g).ft = s.ft := rfl
@[simp] theorem State.modHs_cal (s : State) (h : HalfId) (g : HalfS → HalfS) : (s.modHs h g).cal = s.cal := rfl
@[simp] theorem State.modHs_th (s : State) (h : HalfId) (g : HalfS → HalfS) : (s.modHs h g).th = s.th := rfl
@[simp] theorem State.modHs_crag (s : State) (h : HalfId) (g : HalfS → HalfS) : (s.modHs h g).crag = s.crag := rfl
@[simp] theorem State.modHs_tokErr (s : State) (h : HalfId) (g : HalfS → HalfS) : (s.modHs h g).tokErr = s.tokErr := rfl
@[simp] theorem State.modHs_tokCount (s : State) (h : HalfId) (g : HalfS → HalfS) : (s.modHs h g).tokCount = s.tokCount := rfl
@[simp] theorem State.modHs_tokFree (s : State) (h : HalfId) (g : HalfS → HalfS) : (s.modHs h g).tokFree = s.tokFree := rfl
@[simp] theorem State.modHs_tokOld (s : State) (h : HalfId) (g : HalfS → HalfS) : (s.modHs h g).tokOld = s.tokOld := rfl
@[simp] theorem State.modHs_lastOn (s : State) (h : HalfId) (g : HalfS → HalfS) : (s.modHs h g).lastOn = s.lastOn := rfl
@[simp] theorem State.modHs_nv (s : State) (h : HalfId) (g : HalfS → HalfS) : (s.modHs h g).nv = s.nv := rfl
@[simp] theorem State.modHs_led (s : State) (h : HalfId) (g : HalfS → HalfS) : (s.modHs h g).led = s.led := rfl
@[simp] theorem State.modHs_cairn (s : State) (h : HalfId) (g : HalfS → HalfS) : (s.modHs h g).cairn = s.cairn := rfl
@[simp] theorem State.modHs_mb (s : State) (h : HalfId) (g : HalfS → HalfS) : (s.modHs h g).mb = s.mb := rfl
@[simp] theorem State.modHs_pmb (s : State) (h : HalfId) (g : HalfS → HalfS) : (s.modHs h g).pmb = s.pmb := rfl
@[simp] theorem State.modHs_tarnA (s : State) (h : HalfId) (g : HalfS → HalfS) : (s.modHs h g).tarnA = s.tarnA := rfl
@[simp] theorem State.modHs_tarnB (s : State) (h : HalfId) (g : HalfS → HalfS) : (s.modHs h g).tarnB = s.tarnB := rfl
@[simp] theorem State.modHs_jtag (s : State) (h : HalfId) (g : HalfS → HalfS) : (s.modHs h g).jtag = s.jtag := rfl
@[simp] theorem State.modHs_commits (s : State) (h : HalfId) (g : HalfS → HalfS) : (s.modHs h g).commits = s.commits := rfl
@[simp] theorem State.modHs_free (s : State) (h : HalfId) (g : HalfS → HalfS) : (s.modHs h g).free = s.free := rfl
@[simp] theorem State.modHs_pending (s : State) (h : HalfId) (g : HalfS → HalfS) : (s.modHs h g).pending = s.pending := rfl

@[simp] theorem State.setHolder_dev (s : State) (h : Option HalfId) : (s.setHolder h).dev = s.dev := rfl
@[simp] theorem State.setHolder_clk (s : State) (h : Option HalfId) : (s.setHolder h).clk = s.clk := rfl
@[simp] theorem State.setHolder_gAcc (s : State) (h : Option HalfId) : (s.setHolder h).gAcc = s.gAcc := rfl
@[simp] theorem State.setHolder_gInF (s : State) (h : Option HalfId) : (s.setHolder h).gInF = s.gInF := rfl
@[simp] theorem State.setHolder_east (s : State) (h : Option HalfId) : (s.setHolder h).east = s.east := rfl
@[simp] theorem State.setHolder_west (s : State) (h : Option HalfId) : (s.setHolder h).west = s.west := rfl
@[simp] theorem State.setHolder_ctx (s : State) (h : Option HalfId) : (s.setHolder h).ctx = s.ctx := rfl
@[simp] theorem State.setHolder_ph (s : State) (h : Option HalfId) : (s.setHolder h).ph = s.ph := rfl
@[simp] theorem State.setHolder_ft (s : State) (h : Option HalfId) : (s.setHolder h).ft = s.ft := rfl
@[simp] theorem State.setHolder_cal (s : State) (h : Option HalfId) : (s.setHolder h).cal = s.cal := rfl
@[simp] theorem State.setHolder_th (s : State) (h : Option HalfId) : (s.setHolder h).th = s.th := rfl
@[simp] theorem State.setHolder_crag (s : State) (h : Option HalfId) : (s.setHolder h).crag = s.crag := rfl
@[simp] theorem State.setHolder_tokErr (s : State) (h : Option HalfId) : (s.setHolder h).tokErr = s.tokErr := rfl
@[simp] theorem State.setHolder_tokCount (s : State) (h : Option HalfId) : (s.setHolder h).tokCount = s.tokCount := rfl
@[simp] theorem State.setHolder_tokFree (s : State) (h : Option HalfId) : (s.setHolder h).tokFree = s.tokFree := rfl
@[simp] theorem State.setHolder_tokOld (s : State) (h : Option HalfId) : (s.setHolder h).tokOld = s.tokOld := rfl
@[simp] theorem State.setHolder_lastOn (s : State) (h : Option HalfId) : (s.setHolder h).lastOn = s.lastOn := rfl
@[simp] theorem State.setHolder_nv (s : State) (h : Option HalfId) : (s.setHolder h).nv = s.nv := rfl
@[simp] theorem State.setHolder_led (s : State) (h : Option HalfId) : (s.setHolder h).led = s.led := rfl
@[simp] theorem State.setHolder_cairn (s : State) (h : Option HalfId) : (s.setHolder h).cairn = s.cairn := rfl
@[simp] theorem State.setHolder_mb (s : State) (h : Option HalfId) : (s.setHolder h).mb = s.mb := rfl
@[simp] theorem State.setHolder_pmb (s : State) (h : Option HalfId) : (s.setHolder h).pmb = s.pmb := rfl
@[simp] theorem State.setHolder_tarnA (s : State) (h : Option HalfId) : (s.setHolder h).tarnA = s.tarnA := rfl
@[simp] theorem State.setHolder_tarnB (s : State) (h : Option HalfId) : (s.setHolder h).tarnB = s.tarnB := rfl
@[simp] theorem State.setHolder_jtag (s : State) (h : Option HalfId) : (s.setHolder h).jtag = s.jtag := rfl
@[simp] theorem State.setHolder_commits (s : State) (h : Option HalfId) : (s.setHolder h).commits = s.commits := rfl
@[simp] theorem State.setHolder_free (s : State) (h : Option HalfId) : (s.setHolder h).free = s.free := rfl
@[simp] theorem State.setHolder_pending (s : State) (h : Option HalfId) : (s.setHolder h).pending = s.pending := rfl

@[simp] theorem State.commit_dev (s : State) (n : Nat) (a : Act) : (s.commit n a).dev = s.dev := rfl
@[simp] theorem State.commit_clk (s : State) (n : Nat) (a : Act) : (s.commit n a).clk = s.clk := rfl
@[simp] theorem State.commit_gAcc (s : State) (n : Nat) (a : Act) : (s.commit n a).gAcc = s.gAcc := rfl
@[simp] theorem State.commit_gInF (s : State) (n : Nat) (a : Act) : (s.commit n a).gInF = s.gInF := rfl
@[simp] theorem State.commit_east (s : State) (n : Nat) (a : Act) : (s.commit n a).east = s.east := rfl
@[simp] theorem State.commit_west (s : State) (n : Nat) (a : Act) : (s.commit n a).west = s.west := rfl
@[simp] theorem State.commit_ctx (s : State) (n : Nat) (a : Act) : (s.commit n a).ctx = s.ctx := rfl
@[simp] theorem State.commit_ph (s : State) (n : Nat) (a : Act) : (s.commit n a).ph = s.ph := rfl
@[simp] theorem State.commit_sum (s : State) (n : Nat) (a : Act) : (s.commit n a).sum = s.sum := rfl
@[simp] theorem State.commit_ft (s : State) (n : Nat) (a : Act) : (s.commit n a).ft = s.ft := rfl
@[simp] theorem State.commit_cal (s : State) (n : Nat) (a : Act) : (s.commit n a).cal = s.cal := rfl
@[simp] theorem State.commit_th (s : State) (n : Nat) (a : Act) : (s.commit n a).th = s.th := rfl
@[simp] theorem State.commit_crag (s : State) (n : Nat) (a : Act) : (s.commit n a).crag = s.crag := rfl
@[simp] theorem State.commit_tokErr (s : State) (n : Nat) (a : Act) : (s.commit n a).tokErr = s.tokErr := rfl
@[simp] theorem State.commit_tokCount (s : State) (n : Nat) (a : Act) : (s.commit n a).tokCount = s.tokCount := rfl
@[simp] theorem State.commit_tokFree (s : State) (n : Nat) (a : Act) : (s.commit n a).tokFree = s.tokFree := rfl
@[simp] theorem State.commit_tokOld (s : State) (n : Nat) (a : Act) : (s.commit n a).tokOld = s.tokOld := rfl
@[simp] theorem State.commit_lastOn (s : State) (n : Nat) (a : Act) : (s.commit n a).lastOn = s.lastOn := rfl
@[simp] theorem State.commit_nv (s : State) (n : Nat) (a : Act) : (s.commit n a).nv = s.nv := rfl
@[simp] theorem State.commit_led (s : State) (n : Nat) (a : Act) : (s.commit n a).led = s.led := rfl
@[simp] theorem State.commit_cairn (s : State) (n : Nat) (a : Act) : (s.commit n a).cairn = s.cairn := rfl
@[simp] theorem State.commit_mb (s : State) (n : Nat) (a : Act) : (s.commit n a).mb = s.mb := rfl
@[simp] theorem State.commit_pmb (s : State) (n : Nat) (a : Act) : (s.commit n a).pmb = s.pmb := rfl
@[simp] theorem State.commit_tarnA (s : State) (n : Nat) (a : Act) : (s.commit n a).tarnA = s.tarnA := rfl
@[simp] theorem State.commit_tarnB (s : State) (n : Nat) (a : Act) : (s.commit n a).tarnB = s.tarnB := rfl
@[simp] theorem State.commit_jtag (s : State) (n : Nat) (a : Act) : (s.commit n a).jtag = s.jtag := rfl
@[simp] theorem State.commit_free (s : State) (n : Nat) (a : Act) : (s.commit n a).free = s.free := rfl
@[simp] theorem State.commit_pending (s : State) (n : Nat) (a : Act) : (s.commit n a).pending = s.pending := rfl

@[simp] theorem State.modPort_dev (s : State) (p : Port) (g : TarnPort → TarnPort) : (s.modPort p g).dev = s.dev := by cases p <;> rfl
@[simp] theorem State.modPort_clk (s : State) (p : Port) (g : TarnPort → TarnPort) : (s.modPort p g).clk = s.clk := by cases p <;> rfl
@[simp] theorem State.modPort_gAcc (s : State) (p : Port) (g : TarnPort → TarnPort) : (s.modPort p g).gAcc = s.gAcc := by cases p <;> rfl
@[simp] theorem State.modPort_gInF (s : State) (p : Port) (g : TarnPort → TarnPort) : (s.modPort p g).gInF = s.gInF := by cases p <;> rfl
@[simp] theorem State.modPort_east (s : State) (p : Port) (g : TarnPort → TarnPort) : (s.modPort p g).east = s.east := by cases p <;> rfl
@[simp] theorem State.modPort_west (s : State) (p : Port) (g : TarnPort → TarnPort) : (s.modPort p g).west = s.west := by cases p <;> rfl
@[simp] theorem State.modPort_ctx (s : State) (p : Port) (g : TarnPort → TarnPort) : (s.modPort p g).ctx = s.ctx := by cases p <;> rfl
@[simp] theorem State.modPort_ph (s : State) (p : Port) (g : TarnPort → TarnPort) : (s.modPort p g).ph = s.ph := by cases p <;> rfl
@[simp] theorem State.modPort_sum (s : State) (p : Port) (g : TarnPort → TarnPort) : (s.modPort p g).sum = s.sum := by cases p <;> rfl
@[simp] theorem State.modPort_ft (s : State) (p : Port) (g : TarnPort → TarnPort) : (s.modPort p g).ft = s.ft := by cases p <;> rfl
@[simp] theorem State.modPort_cal (s : State) (p : Port) (g : TarnPort → TarnPort) : (s.modPort p g).cal = s.cal := by cases p <;> rfl
@[simp] theorem State.modPort_th (s : State) (p : Port) (g : TarnPort → TarnPort) : (s.modPort p g).th = s.th := by cases p <;> rfl
@[simp] theorem State.modPort_crag (s : State) (p : Port) (g : TarnPort → TarnPort) : (s.modPort p g).crag = s.crag := by cases p <;> rfl
@[simp] theorem State.modPort_tokErr (s : State) (p : Port) (g : TarnPort → TarnPort) : (s.modPort p g).tokErr = s.tokErr := by cases p <;> rfl
@[simp] theorem State.modPort_tokCount (s : State) (p : Port) (g : TarnPort → TarnPort) : (s.modPort p g).tokCount = s.tokCount := by cases p <;> rfl
@[simp] theorem State.modPort_tokFree (s : State) (p : Port) (g : TarnPort → TarnPort) : (s.modPort p g).tokFree = s.tokFree := by cases p <;> rfl
@[simp] theorem State.modPort_tokOld (s : State) (p : Port) (g : TarnPort → TarnPort) : (s.modPort p g).tokOld = s.tokOld := by cases p <;> rfl
@[simp] theorem State.modPort_lastOn (s : State) (p : Port) (g : TarnPort → TarnPort) : (s.modPort p g).lastOn = s.lastOn := by cases p <;> rfl
@[simp] theorem State.modPort_nv (s : State) (p : Port) (g : TarnPort → TarnPort) : (s.modPort p g).nv = s.nv := by cases p <;> rfl
@[simp] theorem State.modPort_led (s : State) (p : Port) (g : TarnPort → TarnPort) : (s.modPort p g).led = s.led := by cases p <;> rfl
@[simp] theorem State.modPort_cairn (s : State) (p : Port) (g : TarnPort → TarnPort) : (s.modPort p g).cairn = s.cairn := by cases p <;> rfl
@[simp] theorem State.modPort_mb (s : State) (p : Port) (g : TarnPort → TarnPort) : (s.modPort p g).mb = s.mb := by cases p <;> rfl
@[simp] theorem State.modPort_pmb (s : State) (p : Port) (g : TarnPort → TarnPort) : (s.modPort p g).pmb = s.pmb := by cases p <;> rfl
@[simp] theorem State.modPort_jtag (s : State) (p : Port) (g : TarnPort → TarnPort) : (s.modPort p g).jtag = s.jtag := by cases p <;> rfl
@[simp] theorem State.modPort_commits (s : State) (p : Port) (g : TarnPort → TarnPort) : (s.modPort p g).commits = s.commits := by cases p <;> rfl
@[simp] theorem State.modPort_free (s : State) (p : Port) (g : TarnPort → TarnPort) : (s.modPort p g).free = s.free := by cases p <;> rfl
@[simp] theorem State.modPort_pending (s : State) (p : Port) (g : TarnPort → TarnPort) : (s.modPort p g).pending = s.pending := by cases p <;> rfl

@[simp] theorem State.respond_dev (s : State) (r : Req) (a d : Nat) (l : List Word) : (s.respond r a d l).dev = s.dev := rfl
@[simp] theorem State.respond_clk (s : State) (r : Req) (a d : Nat) (l : List Word) : (s.respond r a d l).clk = s.clk := rfl
@[simp] theorem State.respond_gAcc (s : State) (r : Req) (a d : Nat) (l : List Word) : (s.respond r a d l).gAcc = s.gAcc := rfl
@[simp] theorem State.respond_gInF (s : State) (r : Req) (a d : Nat) (l : List Word) : (s.respond r a d l).gInF = s.gInF := rfl
@[simp] theorem State.respond_east (s : State) (r : Req) (a d : Nat) (l : List Word) : (s.respond r a d l).east = s.east := rfl
@[simp] theorem State.respond_west (s : State) (r : Req) (a d : Nat) (l : List Word) : (s.respond r a d l).west = s.west := rfl
@[simp] theorem State.respond_ctx (s : State) (r : Req) (a d : Nat) (l : List Word) : (s.respond r a d l).ctx = s.ctx := rfl
@[simp] theorem State.respond_ph (s : State) (r : Req) (a d : Nat) (l : List Word) : (s.respond r a d l).ph = s.ph := rfl
@[simp] theorem State.respond_sum (s : State) (r : Req) (a d : Nat) (l : List Word) : (s.respond r a d l).sum = s.sum := rfl
@[simp] theorem State.respond_ft (s : State) (r : Req) (a d : Nat) (l : List Word) : (s.respond r a d l).ft = s.ft := rfl
@[simp] theorem State.respond_cal (s : State) (r : Req) (a d : Nat) (l : List Word) : (s.respond r a d l).cal = s.cal := rfl
@[simp] theorem State.respond_th (s : State) (r : Req) (a d : Nat) (l : List Word) : (s.respond r a d l).th = s.th := rfl
@[simp] theorem State.respond_crag (s : State) (r : Req) (a d : Nat) (l : List Word) : (s.respond r a d l).crag = s.crag := rfl
@[simp] theorem State.respond_tokErr (s : State) (r : Req) (a d : Nat) (l : List Word) : (s.respond r a d l).tokErr = s.tokErr := rfl
@[simp] theorem State.respond_tokCount (s : State) (r : Req) (a d : Nat) (l : List Word) : (s.respond r a d l).tokCount = s.tokCount := rfl
@[simp] theorem State.respond_tokFree (s : State) (r : Req) (a d : Nat) (l : List Word) : (s.respond r a d l).tokFree = s.tokFree := rfl
@[simp] theorem State.respond_tokOld (s : State) (r : Req) (a d : Nat) (l : List Word) : (s.respond r a d l).tokOld = s.tokOld := rfl
@[simp] theorem State.respond_lastOn (s : State) (r : Req) (a d : Nat) (l : List Word) : (s.respond r a d l).lastOn = s.lastOn := rfl
@[simp] theorem State.respond_nv (s : State) (r : Req) (a d : Nat) (l : List Word) : (s.respond r a d l).nv = s.nv := rfl
@[simp] theorem State.respond_led (s : State) (r : Req) (a d : Nat) (l : List Word) : (s.respond r a d l).led = s.led := rfl
@[simp] theorem State.respond_cairn (s : State) (r : Req) (a d : Nat) (l : List Word) : (s.respond r a d l).cairn = s.cairn := rfl
@[simp] theorem State.respond_pmb (s : State) (r : Req) (a d : Nat) (l : List Word) : (s.respond r a d l).pmb = s.pmb := rfl
@[simp] theorem State.respond_tarnA (s : State) (r : Req) (a d : Nat) (l : List Word) : (s.respond r a d l).tarnA = s.tarnA := rfl
@[simp] theorem State.respond_tarnB (s : State) (r : Req) (a d : Nat) (l : List Word) : (s.respond r a d l).tarnB = s.tarnB := rfl
@[simp] theorem State.respond_jtag (s : State) (r : Req) (a d : Nat) (l : List Word) : (s.respond r a d l).jtag = s.jtag := rfl
@[simp] theorem State.respond_commits (s : State) (r : Req) (a d : Nat) (l : List Word) : (s.respond r a d l).commits = s.commits := rfl
@[simp] theorem State.respond_free (s : State) (r : Req) (a d : Nat) (l : List Word) : (s.respond r a d l).free = s.free := rfl
@[simp] theorem State.respond_pending (s : State) (r : Req) (a d : Nat) (l : List Word) : (s.respond r a d l).pending = s.pending := rfl

@[simp] theorem State.setForce_dev (s : State) (c : CtxId) (e : CP) (v : Int) : (s.setForce c e v).dev = s.dev := rfl
@[simp] theorem State.setForce_clk (s : State) (c : CtxId) (e : CP) (v : Int) : (s.setForce c e v).clk = s.clk := rfl
@[simp] theorem State.setForce_gAcc (s : State) (c : CtxId) (e : CP) (v : Int) : (s.setForce c e v).gAcc = s.gAcc := rfl
@[simp] theorem State.setForce_gInF (s : State) (c : CtxId) (e : CP) (v : Int) : (s.setForce c e v).gInF = s.gInF := rfl
@[simp] theorem State.setForce_east (s : State) (c : CtxId) (e : CP) (v : Int) : (s.setForce c e v).east = s.east := rfl
@[simp] theorem State.setForce_west (s : State) (c : CtxId) (e : CP) (v : Int) : (s.setForce c e v).west = s.west := rfl
@[simp] theorem State.setForce_ph (s : State) (c : CtxId) (e : CP) (v : Int) : (s.setForce c e v).ph = s.ph := rfl
@[simp] theorem State.setForce_sum (s : State) (c : CtxId) (e : CP) (v : Int) : (s.setForce c e v).sum = s.sum := rfl
@[simp] theorem State.setForce_ft (s : State) (c : CtxId) (e : CP) (v : Int) : (s.setForce c e v).ft = s.ft := rfl
@[simp] theorem State.setForce_cal (s : State) (c : CtxId) (e : CP) (v : Int) : (s.setForce c e v).cal = s.cal := rfl
@[simp] theorem State.setForce_th (s : State) (c : CtxId) (e : CP) (v : Int) : (s.setForce c e v).th = s.th := rfl
@[simp] theorem State.setForce_crag (s : State) (c : CtxId) (e : CP) (v : Int) : (s.setForce c e v).crag = s.crag := rfl
@[simp] theorem State.setForce_tokErr (s : State) (c : CtxId) (e : CP) (v : Int) : (s.setForce c e v).tokErr = s.tokErr := rfl
@[simp] theorem State.setForce_tokCount (s : State) (c : CtxId) (e : CP) (v : Int) : (s.setForce c e v).tokCount = s.tokCount := rfl
@[simp] theorem State.setForce_tokFree (s : State) (c : CtxId) (e : CP) (v : Int) : (s.setForce c e v).tokFree = s.tokFree := rfl
@[simp] theorem State.setForce_tokOld (s : State) (c : CtxId) (e : CP) (v : Int) : (s.setForce c e v).tokOld = s.tokOld := rfl
@[simp] theorem State.setForce_lastOn (s : State) (c : CtxId) (e : CP) (v : Int) : (s.setForce c e v).lastOn = s.lastOn := rfl
@[simp] theorem State.setForce_nv (s : State) (c : CtxId) (e : CP) (v : Int) : (s.setForce c e v).nv = s.nv := rfl
@[simp] theorem State.setForce_led (s : State) (c : CtxId) (e : CP) (v : Int) : (s.setForce c e v).led = s.led := rfl
@[simp] theorem State.setForce_cairn (s : State) (c : CtxId) (e : CP) (v : Int) : (s.setForce c e v).cairn = s.cairn := rfl
@[simp] theorem State.setForce_mb (s : State) (c : CtxId) (e : CP) (v : Int) : (s.setForce c e v).mb = s.mb := rfl
@[simp] theorem State.setForce_pmb (s : State) (c : CtxId) (e : CP) (v : Int) : (s.setForce c e v).pmb = s.pmb := rfl
@[simp] theorem State.setForce_tarnA (s : State) (c : CtxId) (e : CP) (v : Int) : (s.setForce c e v).tarnA = s.tarnA := rfl
@[simp] theorem State.setForce_tarnB (s : State) (c : CtxId) (e : CP) (v : Int) : (s.setForce c e v).tarnB = s.tarnB := rfl
@[simp] theorem State.setForce_jtag (s : State) (c : CtxId) (e : CP) (v : Int) : (s.setForce c e v).jtag = s.jtag := rfl
@[simp] theorem State.setForce_commits (s : State) (c : CtxId) (e : CP) (v : Int) : (s.setForce c e v).commits = s.commits := rfl
@[simp] theorem State.setForce_free (s : State) (c : CtxId) (e : CP) (v : Int) : (s.setForce c e v).free = s.free := rfl
@[simp] theorem State.setForce_pending (s : State) (c : CtxId) (e : CP) (v : Int) : (s.setForce c e v).pending = s.pending := rfl

@[simp] theorem State.setPhForce_dev (s : State) (p : PhaseId) (e : PP) (v : Int) : (s.setPhForce p e v).dev = s.dev := rfl
@[simp] theorem State.setPhForce_clk (s : State) (p : PhaseId) (e : PP) (v : Int) : (s.setPhForce p e v).clk = s.clk := rfl
@[simp] theorem State.setPhForce_gAcc (s : State) (p : PhaseId) (e : PP) (v : Int) : (s.setPhForce p e v).gAcc = s.gAcc := rfl
@[simp] theorem State.setPhForce_gInF (s : State) (p : PhaseId) (e : PP) (v : Int) : (s.setPhForce p e v).gInF = s.gInF := rfl
@[simp] theorem State.setPhForce_east (s : State) (p : PhaseId) (e : PP) (v : Int) : (s.setPhForce p e v).east = s.east := rfl
@[simp] theorem State.setPhForce_west (s : State) (p : PhaseId) (e : PP) (v : Int) : (s.setPhForce p e v).west = s.west := rfl
@[simp] theorem State.setPhForce_ctx (s : State) (p : PhaseId) (e : PP) (v : Int) : (s.setPhForce p e v).ctx = s.ctx := rfl
@[simp] theorem State.setPhForce_sum (s : State) (p : PhaseId) (e : PP) (v : Int) : (s.setPhForce p e v).sum = s.sum := rfl
@[simp] theorem State.setPhForce_ft (s : State) (p : PhaseId) (e : PP) (v : Int) : (s.setPhForce p e v).ft = s.ft := rfl
@[simp] theorem State.setPhForce_cal (s : State) (p : PhaseId) (e : PP) (v : Int) : (s.setPhForce p e v).cal = s.cal := rfl
@[simp] theorem State.setPhForce_th (s : State) (p : PhaseId) (e : PP) (v : Int) : (s.setPhForce p e v).th = s.th := rfl
@[simp] theorem State.setPhForce_crag (s : State) (p : PhaseId) (e : PP) (v : Int) : (s.setPhForce p e v).crag = s.crag := rfl
@[simp] theorem State.setPhForce_tokErr (s : State) (p : PhaseId) (e : PP) (v : Int) : (s.setPhForce p e v).tokErr = s.tokErr := rfl
@[simp] theorem State.setPhForce_tokCount (s : State) (p : PhaseId) (e : PP) (v : Int) : (s.setPhForce p e v).tokCount = s.tokCount := rfl
@[simp] theorem State.setPhForce_tokFree (s : State) (p : PhaseId) (e : PP) (v : Int) : (s.setPhForce p e v).tokFree = s.tokFree := rfl
@[simp] theorem State.setPhForce_tokOld (s : State) (p : PhaseId) (e : PP) (v : Int) : (s.setPhForce p e v).tokOld = s.tokOld := rfl
@[simp] theorem State.setPhForce_lastOn (s : State) (p : PhaseId) (e : PP) (v : Int) : (s.setPhForce p e v).lastOn = s.lastOn := rfl
@[simp] theorem State.setPhForce_nv (s : State) (p : PhaseId) (e : PP) (v : Int) : (s.setPhForce p e v).nv = s.nv := rfl
@[simp] theorem State.setPhForce_led (s : State) (p : PhaseId) (e : PP) (v : Int) : (s.setPhForce p e v).led = s.led := rfl
@[simp] theorem State.setPhForce_cairn (s : State) (p : PhaseId) (e : PP) (v : Int) : (s.setPhForce p e v).cairn = s.cairn := rfl
@[simp] theorem State.setPhForce_mb (s : State) (p : PhaseId) (e : PP) (v : Int) : (s.setPhForce p e v).mb = s.mb := rfl
@[simp] theorem State.setPhForce_pmb (s : State) (p : PhaseId) (e : PP) (v : Int) : (s.setPhForce p e v).pmb = s.pmb := rfl
@[simp] theorem State.setPhForce_tarnA (s : State) (p : PhaseId) (e : PP) (v : Int) : (s.setPhForce p e v).tarnA = s.tarnA := rfl
@[simp] theorem State.setPhForce_tarnB (s : State) (p : PhaseId) (e : PP) (v : Int) : (s.setPhForce p e v).tarnB = s.tarnB := rfl
@[simp] theorem State.setPhForce_jtag (s : State) (p : PhaseId) (e : PP) (v : Int) : (s.setPhForce p e v).jtag = s.jtag := rfl
@[simp] theorem State.setPhForce_commits (s : State) (p : PhaseId) (e : PP) (v : Int) : (s.setPhForce p e v).commits = s.commits := rfl
@[simp] theorem State.setPhForce_free (s : State) (p : PhaseId) (e : PP) (v : Int) : (s.setPhForce p e v).free = s.free := rfl
@[simp] theorem State.setPhForce_pending (s : State) (p : PhaseId) (e : PP) (v : Int) : (s.setPhForce p e v).pending = s.pending := rfl

@[simp] theorem State.setGlobForce_dev (s : State) (g : GP) (v : Int) : (s.setGlobForce g v).dev = s.dev := rfl
@[simp] theorem State.setGlobForce_clk (s : State) (g : GP) (v : Int) : (s.setGlobForce g v).clk = s.clk := rfl
@[simp] theorem State.setGlobForce_gAcc (s : State) (g : GP) (v : Int) : (s.setGlobForce g v).gAcc = s.gAcc := rfl
@[simp] theorem State.setGlobForce_east (s : State) (g : GP) (v : Int) : (s.setGlobForce g v).east = s.east := rfl
@[simp] theorem State.setGlobForce_west (s : State) (g : GP) (v : Int) : (s.setGlobForce g v).west = s.west := rfl
@[simp] theorem State.setGlobForce_ctx (s : State) (g : GP) (v : Int) : (s.setGlobForce g v).ctx = s.ctx := rfl
@[simp] theorem State.setGlobForce_ph (s : State) (g : GP) (v : Int) : (s.setGlobForce g v).ph = s.ph := rfl
@[simp] theorem State.setGlobForce_sum (s : State) (g : GP) (v : Int) : (s.setGlobForce g v).sum = s.sum := rfl
@[simp] theorem State.setGlobForce_ft (s : State) (g : GP) (v : Int) : (s.setGlobForce g v).ft = s.ft := rfl
@[simp] theorem State.setGlobForce_cal (s : State) (g : GP) (v : Int) : (s.setGlobForce g v).cal = s.cal := rfl
@[simp] theorem State.setGlobForce_th (s : State) (g : GP) (v : Int) : (s.setGlobForce g v).th = s.th := rfl
@[simp] theorem State.setGlobForce_crag (s : State) (g : GP) (v : Int) : (s.setGlobForce g v).crag = s.crag := rfl
@[simp] theorem State.setGlobForce_tokErr (s : State) (g : GP) (v : Int) : (s.setGlobForce g v).tokErr = s.tokErr := rfl
@[simp] theorem State.setGlobForce_tokCount (s : State) (g : GP) (v : Int) : (s.setGlobForce g v).tokCount = s.tokCount := rfl
@[simp] theorem State.setGlobForce_tokFree (s : State) (g : GP) (v : Int) : (s.setGlobForce g v).tokFree = s.tokFree := rfl
@[simp] theorem State.setGlobForce_tokOld (s : State) (g : GP) (v : Int) : (s.setGlobForce g v).tokOld = s.tokOld := rfl
@[simp] theorem State.setGlobForce_lastOn (s : State) (g : GP) (v : Int) : (s.setGlobForce g v).lastOn = s.lastOn := rfl
@[simp] theorem State.setGlobForce_nv (s : State) (g : GP) (v : Int) : (s.setGlobForce g v).nv = s.nv := rfl
@[simp] theorem State.setGlobForce_led (s : State) (g : GP) (v : Int) : (s.setGlobForce g v).led = s.led := rfl
@[simp] theorem State.setGlobForce_cairn (s : State) (g : GP) (v : Int) : (s.setGlobForce g v).cairn = s.cairn := rfl
@[simp] theorem State.setGlobForce_mb (s : State) (g : GP) (v : Int) : (s.setGlobForce g v).mb = s.mb := rfl
@[simp] theorem State.setGlobForce_pmb (s : State) (g : GP) (v : Int) : (s.setGlobForce g v).pmb = s.pmb := rfl
@[simp] theorem State.setGlobForce_tarnA (s : State) (g : GP) (v : Int) : (s.setGlobForce g v).tarnA = s.tarnA := rfl
@[simp] theorem State.setGlobForce_tarnB (s : State) (g : GP) (v : Int) : (s.setGlobForce g v).tarnB = s.tarnB := rfl
@[simp] theorem State.setGlobForce_jtag (s : State) (g : GP) (v : Int) : (s.setGlobForce g v).jtag = s.jtag := rfl
@[simp] theorem State.setGlobForce_commits (s : State) (g : GP) (v : Int) : (s.setGlobForce g v).commits = s.commits := rfl
@[simp] theorem State.setGlobForce_free (s : State) (g : GP) (v : Int) : (s.setGlobForce g v).free = s.free := rfl
@[simp] theorem State.setGlobForce_pending (s : State) (g : GP) (v : Int) : (s.setGlobForce g v).pending = s.pending := rfl

@[simp] theorem State.setNew_dev (s : State) (c : CtxId) (e : CP) (v : Int) : (s.setNew c e v).dev = s.dev := rfl
@[simp] theorem State.setNew_clk (s : State) (c : CtxId) (e : CP) (v : Int) : (s.setNew c e v).clk = s.clk := rfl
@[simp] theorem State.setNew_gAcc (s : State) (c : CtxId) (e : CP) (v : Int) : (s.setNew c e v).gAcc = s.gAcc := rfl
@[simp] theorem State.setNew_gInF (s : State) (c : CtxId) (e : CP) (v : Int) : (s.setNew c e v).gInF = s.gInF := rfl
@[simp] theorem State.setNew_east (s : State) (c : CtxId) (e : CP) (v : Int) : (s.setNew c e v).east = s.east := rfl
@[simp] theorem State.setNew_west (s : State) (c : CtxId) (e : CP) (v : Int) : (s.setNew c e v).west = s.west := rfl
@[simp] theorem State.setNew_ph (s : State) (c : CtxId) (e : CP) (v : Int) : (s.setNew c e v).ph = s.ph := rfl
@[simp] theorem State.setNew_sum (s : State) (c : CtxId) (e : CP) (v : Int) : (s.setNew c e v).sum = s.sum := rfl
@[simp] theorem State.setNew_ft (s : State) (c : CtxId) (e : CP) (v : Int) : (s.setNew c e v).ft = s.ft := rfl
@[simp] theorem State.setNew_cal (s : State) (c : CtxId) (e : CP) (v : Int) : (s.setNew c e v).cal = s.cal := rfl
@[simp] theorem State.setNew_th (s : State) (c : CtxId) (e : CP) (v : Int) : (s.setNew c e v).th = s.th := rfl
@[simp] theorem State.setNew_crag (s : State) (c : CtxId) (e : CP) (v : Int) : (s.setNew c e v).crag = s.crag := rfl
@[simp] theorem State.setNew_tokErr (s : State) (c : CtxId) (e : CP) (v : Int) : (s.setNew c e v).tokErr = s.tokErr := rfl
@[simp] theorem State.setNew_tokCount (s : State) (c : CtxId) (e : CP) (v : Int) : (s.setNew c e v).tokCount = s.tokCount := rfl
@[simp] theorem State.setNew_tokFree (s : State) (c : CtxId) (e : CP) (v : Int) : (s.setNew c e v).tokFree = s.tokFree := rfl
@[simp] theorem State.setNew_tokOld (s : State) (c : CtxId) (e : CP) (v : Int) : (s.setNew c e v).tokOld = s.tokOld := rfl
@[simp] theorem State.setNew_lastOn (s : State) (c : CtxId) (e : CP) (v : Int) : (s.setNew c e v).lastOn = s.lastOn := rfl
@[simp] theorem State.setNew_nv (s : State) (c : CtxId) (e : CP) (v : Int) : (s.setNew c e v).nv = s.nv := rfl
@[simp] theorem State.setNew_led (s : State) (c : CtxId) (e : CP) (v : Int) : (s.setNew c e v).led = s.led := rfl
@[simp] theorem State.setNew_cairn (s : State) (c : CtxId) (e : CP) (v : Int) : (s.setNew c e v).cairn = s.cairn := rfl
@[simp] theorem State.setNew_mb (s : State) (c : CtxId) (e : CP) (v : Int) : (s.setNew c e v).mb = s.mb := rfl
@[simp] theorem State.setNew_pmb (s : State) (c : CtxId) (e : CP) (v : Int) : (s.setNew c e v).pmb = s.pmb := rfl
@[simp] theorem State.setNew_tarnA (s : State) (c : CtxId) (e : CP) (v : Int) : (s.setNew c e v).tarnA = s.tarnA := rfl
@[simp] theorem State.setNew_tarnB (s : State) (c : CtxId) (e : CP) (v : Int) : (s.setNew c e v).tarnB = s.tarnB := rfl
@[simp] theorem State.setNew_jtag (s : State) (c : CtxId) (e : CP) (v : Int) : (s.setNew c e v).jtag = s.jtag := rfl
@[simp] theorem State.setNew_commits (s : State) (c : CtxId) (e : CP) (v : Int) : (s.setNew c e v).commits = s.commits := rfl
@[simp] theorem State.setNew_free (s : State) (c : CtxId) (e : CP) (v : Int) : (s.setNew c e v).free = s.free := rfl
@[simp] theorem State.setNew_pending (s : State) (c : CtxId) (e : CP) (v : Int) : (s.setNew c e v).pending = s.pending := rfl

@[simp] theorem State.setPhNew_dev (s : State) (p : PhaseId) (e : PP) (v : Int) : (s.setPhNew p e v).dev = s.dev := rfl
@[simp] theorem State.setPhNew_clk (s : State) (p : PhaseId) (e : PP) (v : Int) : (s.setPhNew p e v).clk = s.clk := rfl
@[simp] theorem State.setPhNew_gAcc (s : State) (p : PhaseId) (e : PP) (v : Int) : (s.setPhNew p e v).gAcc = s.gAcc := rfl
@[simp] theorem State.setPhNew_gInF (s : State) (p : PhaseId) (e : PP) (v : Int) : (s.setPhNew p e v).gInF = s.gInF := rfl
@[simp] theorem State.setPhNew_east (s : State) (p : PhaseId) (e : PP) (v : Int) : (s.setPhNew p e v).east = s.east := rfl
@[simp] theorem State.setPhNew_west (s : State) (p : PhaseId) (e : PP) (v : Int) : (s.setPhNew p e v).west = s.west := rfl
@[simp] theorem State.setPhNew_ctx (s : State) (p : PhaseId) (e : PP) (v : Int) : (s.setPhNew p e v).ctx = s.ctx := rfl
@[simp] theorem State.setPhNew_sum (s : State) (p : PhaseId) (e : PP) (v : Int) : (s.setPhNew p e v).sum = s.sum := rfl
@[simp] theorem State.setPhNew_ft (s : State) (p : PhaseId) (e : PP) (v : Int) : (s.setPhNew p e v).ft = s.ft := rfl
@[simp] theorem State.setPhNew_cal (s : State) (p : PhaseId) (e : PP) (v : Int) : (s.setPhNew p e v).cal = s.cal := rfl
@[simp] theorem State.setPhNew_th (s : State) (p : PhaseId) (e : PP) (v : Int) : (s.setPhNew p e v).th = s.th := rfl
@[simp] theorem State.setPhNew_crag (s : State) (p : PhaseId) (e : PP) (v : Int) : (s.setPhNew p e v).crag = s.crag := rfl
@[simp] theorem State.setPhNew_tokErr (s : State) (p : PhaseId) (e : PP) (v : Int) : (s.setPhNew p e v).tokErr = s.tokErr := rfl
@[simp] theorem State.setPhNew_tokCount (s : State) (p : PhaseId) (e : PP) (v : Int) : (s.setPhNew p e v).tokCount = s.tokCount := rfl
@[simp] theorem State.setPhNew_tokFree (s : State) (p : PhaseId) (e : PP) (v : Int) : (s.setPhNew p e v).tokFree = s.tokFree := rfl
@[simp] theorem State.setPhNew_tokOld (s : State) (p : PhaseId) (e : PP) (v : Int) : (s.setPhNew p e v).tokOld = s.tokOld := rfl
@[simp] theorem State.setPhNew_lastOn (s : State) (p : PhaseId) (e : PP) (v : Int) : (s.setPhNew p e v).lastOn = s.lastOn := rfl
@[simp] theorem State.setPhNew_nv (s : State) (p : PhaseId) (e : PP) (v : Int) : (s.setPhNew p e v).nv = s.nv := rfl
@[simp] theorem State.setPhNew_led (s : State) (p : PhaseId) (e : PP) (v : Int) : (s.setPhNew p e v).led = s.led := rfl
@[simp] theorem State.setPhNew_cairn (s : State) (p : PhaseId) (e : PP) (v : Int) : (s.setPhNew p e v).cairn = s.cairn := rfl
@[simp] theorem State.setPhNew_mb (s : State) (p : PhaseId) (e : PP) (v : Int) : (s.setPhNew p e v).mb = s.mb := rfl
@[simp] theorem State.setPhNew_pmb (s : State) (p : PhaseId) (e : PP) (v : Int) : (s.setPhNew p e v).pmb = s.pmb := rfl
@[simp] theorem State.setPhNew_tarnA (s : State) (p : PhaseId) (e : PP) (v : Int) : (s.setPhNew p e v).tarnA = s.tarnA := rfl
@[simp] theorem State.setPhNew_tarnB (s : State) (p : PhaseId) (e : PP) (v : Int) : (s.setPhNew p e v).tarnB = s.tarnB := rfl
@[simp] theorem State.setPhNew_jtag (s : State) (p : PhaseId) (e : PP) (v : Int) : (s.setPhNew p e v).jtag = s.jtag := rfl
@[simp] theorem State.setPhNew_commits (s : State) (p : PhaseId) (e : PP) (v : Int) : (s.setPhNew p e v).commits = s.commits := rfl
@[simp] theorem State.setPhNew_free (s : State) (p : PhaseId) (e : PP) (v : Int) : (s.setPhNew p e v).free = s.free := rfl
@[simp] theorem State.setPhNew_pending (s : State) (p : PhaseId) (e : PP) (v : Int) : (s.setPhNew p e v).pending = s.pending := rfl

@[simp] theorem State.setGlobNew_dev (s : State) (g : GP) (v : Int) : (s.setGlobNew g v).dev = s.dev := rfl
@[simp] theorem State.setGlobNew_clk (s : State) (g : GP) (v : Int) : (s.setGlobNew g v).clk = s.clk := rfl
@[simp] theorem State.setGlobNew_gInF (s : State) (g : GP) (v : Int) : (s.setGlobNew g v).gInF = s.gInF := rfl
@[simp] theorem State.setGlobNew_east (s : State) (g : GP) (v : Int) : (s.setGlobNew g v).east = s.east := rfl
@[simp] theorem State.setGlobNew_west (s : State) (g : GP) (v : Int) : (s.setGlobNew g v).west = s.west := rfl
@[simp] theorem State.setGlobNew_ctx (s : State) (g : GP) (v : Int) : (s.setGlobNew g v).ctx = s.ctx := rfl
@[simp] theorem State.setGlobNew_ph (s : State) (g : GP) (v : Int) : (s.setGlobNew g v).ph = s.ph := rfl
@[simp] theorem State.setGlobNew_sum (s : State) (g : GP) (v : Int) : (s.setGlobNew g v).sum = s.sum := rfl
@[simp] theorem State.setGlobNew_ft (s : State) (g : GP) (v : Int) : (s.setGlobNew g v).ft = s.ft := rfl
@[simp] theorem State.setGlobNew_cal (s : State) (g : GP) (v : Int) : (s.setGlobNew g v).cal = s.cal := rfl
@[simp] theorem State.setGlobNew_th (s : State) (g : GP) (v : Int) : (s.setGlobNew g v).th = s.th := rfl
@[simp] theorem State.setGlobNew_crag (s : State) (g : GP) (v : Int) : (s.setGlobNew g v).crag = s.crag := rfl
@[simp] theorem State.setGlobNew_tokErr (s : State) (g : GP) (v : Int) : (s.setGlobNew g v).tokErr = s.tokErr := rfl
@[simp] theorem State.setGlobNew_tokCount (s : State) (g : GP) (v : Int) : (s.setGlobNew g v).tokCount = s.tokCount := rfl
@[simp] theorem State.setGlobNew_tokFree (s : State) (g : GP) (v : Int) : (s.setGlobNew g v).tokFree = s.tokFree := rfl
@[simp] theorem State.setGlobNew_tokOld (s : State) (g : GP) (v : Int) : (s.setGlobNew g v).tokOld = s.tokOld := rfl
@[simp] theorem State.setGlobNew_lastOn (s : State) (g : GP) (v : Int) : (s.setGlobNew g v).lastOn = s.lastOn := rfl
@[simp] theorem State.setGlobNew_nv (s : State) (g : GP) (v : Int) : (s.setGlobNew g v).nv = s.nv := rfl
@[simp] theorem State.setGlobNew_led (s : State) (g : GP) (v : Int) : (s.setGlobNew g v).led = s.led := rfl
@[simp] theorem State.setGlobNew_cairn (s : State) (g : GP) (v : Int) : (s.setGlobNew g v).cairn = s.cairn := rfl
@[simp] theorem State.setGlobNew_mb (s : State) (g : GP) (v : Int) : (s.setGlobNew g v).mb = s.mb := rfl
@[simp] theorem State.setGlobNew_pmb (s : State) (g : GP) (v : Int) : (s.setGlobNew g v).pmb = s.pmb := rfl
@[simp] theorem State.setGlobNew_tarnA (s : State) (g : GP) (v : Int) : (s.setGlobNew g v).tarnA = s.tarnA := rfl
@[simp] theorem State.setGlobNew_tarnB (s : State) (g : GP) (v : Int) : (s.setGlobNew g v).tarnB = s.tarnB := rfl
@[simp] theorem State.setGlobNew_jtag (s : State) (g : GP) (v : Int) : (s.setGlobNew g v).jtag = s.jtag := rfl
@[simp] theorem State.setGlobNew_commits (s : State) (g : GP) (v : Int) : (s.setGlobNew g v).commits = s.commits := rfl
@[simp] theorem State.setGlobNew_free (s : State) (g : GP) (v : Int) : (s.setGlobNew g v).free = s.free := rfl
@[simp] theorem State.setGlobNew_pending (s : State) (g : GP) (v : Int) : (s.setGlobNew g v).pending = s.pending := rfl

theorem State.event_mb (s : State) (i k : Nat) (a b : Word) : ∃ m : Mbox, s.event i k a b = { s with mb := m } := by
  unfold State.event; dsimp only
  split
  · exact ⟨_, rfl⟩
  · split <;> exact ⟨_, rfl⟩
theorem State.request_cairn (s : State) (r : CairnReq) : ∃ m : CairnS, s.request r = { s with cairn := m } := by
  unfold State.request; dsimp only
  split <;> split <;> exact ⟨_, rfl⟩
@[simp] theorem State.event_dev (s : State) (i k : Nat) (a b : Word) : (s.event i k a b).dev = s.dev := by
  obtain ⟨m, h⟩ := s.event_mb i k a b; rw [h]
@[simp] theorem State.event_clk (s : State) (i k : Nat) (a b : Word) : (s.event i k a b).clk = s.clk := by
  obtain ⟨m, h⟩ := s.event_mb i k a b; rw [h]
@[simp] theorem State.event_gAcc (s : State) (i k : Nat) (a b : Word) : (s.event i k a b).gAcc = s.gAcc := by
  obtain ⟨m, h⟩ := s.event_mb i k a b; rw [h]
@[simp] theorem State.event_gInF (s : State) (i k : Nat) (a b : Word) : (s.event i k a b).gInF = s.gInF := by
  obtain ⟨m, h⟩ := s.event_mb i k a b; rw [h]
@[simp] theorem State.event_east (s : State) (i k : Nat) (a b : Word) : (s.event i k a b).east = s.east := by
  obtain ⟨m, h⟩ := s.event_mb i k a b; rw [h]
@[simp] theorem State.event_west (s : State) (i k : Nat) (a b : Word) : (s.event i k a b).west = s.west := by
  obtain ⟨m, h⟩ := s.event_mb i k a b; rw [h]
@[simp] theorem State.event_ctx (s : State) (i k : Nat) (a b : Word) : (s.event i k a b).ctx = s.ctx := by
  obtain ⟨m, h⟩ := s.event_mb i k a b; rw [h]
@[simp] theorem State.event_ph (s : State) (i k : Nat) (a b : Word) : (s.event i k a b).ph = s.ph := by
  obtain ⟨m, h⟩ := s.event_mb i k a b; rw [h]
@[simp] theorem State.event_sum (s : State) (i k : Nat) (a b : Word) : (s.event i k a b).sum = s.sum := by
  obtain ⟨m, h⟩ := s.event_mb i k a b; rw [h]
@[simp] theorem State.event_ft (s : State) (i k : Nat) (a b : Word) : (s.event i k a b).ft = s.ft := by
  obtain ⟨m, h⟩ := s.event_mb i k a b; rw [h]
@[simp] theorem State.event_cal (s : State) (i k : Nat) (a b : Word) : (s.event i k a b).cal = s.cal := by
  obtain ⟨m, h⟩ := s.event_mb i k a b; rw [h]
@[simp] theorem State.event_th (s : State) (i k : Nat) (a b : Word) : (s.event i k a b).th = s.th := by
  obtain ⟨m, h⟩ := s.event_mb i k a b; rw [h]
@[simp] theorem State.event_crag (s : State) (i k : Nat) (a b : Word) : (s.event i k a b).crag = s.crag := by
  obtain ⟨m, h⟩ := s.event_mb i k a b; rw [h]
@[simp] theorem State.event_tokErr (s : State) (i k : Nat) (a b : Word) : (s.event i k a b).tokErr = s.tokErr := by
  obtain ⟨m, h⟩ := s.event_mb i k a b; rw [h]
@[simp] theorem State.event_tokCount (s : State) (i k : Nat) (a b : Word) : (s.event i k a b).tokCount = s.tokCount := by
  obtain ⟨m, h⟩ := s.event_mb i k a b; rw [h]
@[simp] theorem State.event_tokFree (s : State) (i k : Nat) (a b : Word) : (s.event i k a b).tokFree = s.tokFree := by
  obtain ⟨m, h⟩ := s.event_mb i k a b; rw [h]
@[simp] theorem State.event_tokOld (s : State) (i k : Nat) (a b : Word) : (s.event i k a b).tokOld = s.tokOld := by
  obtain ⟨m, h⟩ := s.event_mb i k a b; rw [h]
@[simp] theorem State.event_lastOn (s : State) (i k : Nat) (a b : Word) : (s.event i k a b).lastOn = s.lastOn := by
  obtain ⟨m, h⟩ := s.event_mb i k a b; rw [h]
@[simp] theorem State.event_nv (s : State) (i k : Nat) (a b : Word) : (s.event i k a b).nv = s.nv := by
  obtain ⟨m, h⟩ := s.event_mb i k a b; rw [h]
@[simp] theorem State.event_led (s : State) (i k : Nat) (a b : Word) : (s.event i k a b).led = s.led := by
  obtain ⟨m, h⟩ := s.event_mb i k a b; rw [h]
@[simp] theorem State.event_cairn (s : State) (i k : Nat) (a b : Word) : (s.event i k a b).cairn = s.cairn := by
  obtain ⟨m, h⟩ := s.event_mb i k a b; rw [h]
@[simp] theorem State.event_pmb (s : State) (i k : Nat) (a b : Word) : (s.event i k a b).pmb = s.pmb := by
  obtain ⟨m, h⟩ := s.event_mb i k a b; rw [h]
@[simp] theorem State.event_tarnA (s : State) (i k : Nat) (a b : Word) : (s.event i k a b).tarnA = s.tarnA := by
  obtain ⟨m, h⟩ := s.event_mb i k a b; rw [h]
@[simp] theorem State.event_tarnB (s : State) (i k : Nat) (a b : Word) : (s.event i k a b).tarnB = s.tarnB := by
  obtain ⟨m, h⟩ := s.event_mb i k a b; rw [h]
@[simp] theorem State.event_jtag (s : State) (i k : Nat) (a b : Word) : (s.event i k a b).jtag = s.jtag := by
  obtain ⟨m, h⟩ := s.event_mb i k a b; rw [h]
@[simp] theorem State.event_commits (s : State) (i k : Nat) (a b : Word) : (s.event i k a b).commits = s.commits := by
  obtain ⟨m, h⟩ := s.event_mb i k a b; rw [h]
@[simp] theorem State.event_free (s : State) (i k : Nat) (a b : Word) : (s.event i k a b).free = s.free := by
  obtain ⟨m, h⟩ := s.event_mb i k a b; rw [h]
@[simp] theorem State.event_pending (s : State) (i k : Nat) (a b : Word) : (s.event i k a b).pending = s.pending := by
  obtain ⟨m, h⟩ := s.event_mb i k a b; rw [h]

@[simp] theorem State.request_dev (s : State) (r : CairnReq) : (s.request r).dev = s.dev := by
  obtain ⟨m, h⟩ := s.request_cairn r; rw [h]
@[simp] theorem State.request_clk (s : State) (r : CairnReq) : (s.request r).clk = s.clk := by
  obtain ⟨m, h⟩ := s.request_cairn r; rw [h]
@[simp] theorem State.request_gAcc (s : State) (r : CairnReq) : (s.request r).gAcc = s.gAcc := by
  obtain ⟨m, h⟩ := s.request_cairn r; rw [h]
@[simp] theorem State.request_gInF (s : State) (r : CairnReq) : (s.request r).gInF = s.gInF := by
  obtain ⟨m, h⟩ := s.request_cairn r; rw [h]
@[simp] theorem State.request_east (s : State) (r : CairnReq) : (s.request r).east = s.east := by
  obtain ⟨m, h⟩ := s.request_cairn r; rw [h]
@[simp] theorem State.request_west (s : State) (r : CairnReq) : (s.request r).west = s.west := by
  obtain ⟨m, h⟩ := s.request_cairn r; rw [h]
@[simp] theorem State.request_ctx (s : State) (r : CairnReq) : (s.request r).ctx = s.ctx := by
  obtain ⟨m, h⟩ := s.request_cairn r; rw [h]
@[simp] theorem State.request_ph (s : State) (r : CairnReq) : (s.request r).ph = s.ph := by
  obtain ⟨m, h⟩ := s.request_cairn r; rw [h]
@[simp] theorem State.request_sum (s : State) (r : CairnReq) : (s.request r).sum = s.sum := by
  obtain ⟨m, h⟩ := s.request_cairn r; rw [h]
@[simp] theorem State.request_ft (s : State) (r : CairnReq) : (s.request r).ft = s.ft := by
  obtain ⟨m, h⟩ := s.request_cairn r; rw [h]
@[simp] theorem State.request_cal (s : State) (r : CairnReq) : (s.request r).cal = s.cal := by
  obtain ⟨m, h⟩ := s.request_cairn r; rw [h]
@[simp] theorem State.request_th (s : State) (r : CairnReq) : (s.request r).th = s.th := by
  obtain ⟨m, h⟩ := s.request_cairn r; rw [h]
@[simp] theorem State.request_crag (s : State) (r : CairnReq) : (s.request r).crag = s.crag := by
  obtain ⟨m, h⟩ := s.request_cairn r; rw [h]
@[simp] theorem State.request_tokErr (s : State) (r : CairnReq) : (s.request r).tokErr = s.tokErr := by
  obtain ⟨m, h⟩ := s.request_cairn r; rw [h]
@[simp] theorem State.request_tokCount (s : State) (r : CairnReq) : (s.request r).tokCount = s.tokCount := by
  obtain ⟨m, h⟩ := s.request_cairn r; rw [h]
@[simp] theorem State.request_tokFree (s : State) (r : CairnReq) : (s.request r).tokFree = s.tokFree := by
  obtain ⟨m, h⟩ := s.request_cairn r; rw [h]
@[simp] theorem State.request_tokOld (s : State) (r : CairnReq) : (s.request r).tokOld = s.tokOld := by
  obtain ⟨m, h⟩ := s.request_cairn r; rw [h]
@[simp] theorem State.request_lastOn (s : State) (r : CairnReq) : (s.request r).lastOn = s.lastOn := by
  obtain ⟨m, h⟩ := s.request_cairn r; rw [h]
@[simp] theorem State.request_nv (s : State) (r : CairnReq) : (s.request r).nv = s.nv := by
  obtain ⟨m, h⟩ := s.request_cairn r; rw [h]
@[simp] theorem State.request_led (s : State) (r : CairnReq) : (s.request r).led = s.led := by
  obtain ⟨m, h⟩ := s.request_cairn r; rw [h]
@[simp] theorem State.request_mb (s : State) (r : CairnReq) : (s.request r).mb = s.mb := by
  obtain ⟨m, h⟩ := s.request_cairn r; rw [h]
@[simp] theorem State.request_pmb (s : State) (r : CairnReq) : (s.request r).pmb = s.pmb := by
  obtain ⟨m, h⟩ := s.request_cairn r; rw [h]
@[simp] theorem State.request_tarnA (s : State) (r : CairnReq) : (s.request r).tarnA = s.tarnA := by
  obtain ⟨m, h⟩ := s.request_cairn r; rw [h]
@[simp] theorem State.request_tarnB (s : State) (r : CairnReq) : (s.request r).tarnB = s.tarnB := by
  obtain ⟨m, h⟩ := s.request_cairn r; rw [h]
@[simp] theorem State.request_jtag (s : State) (r : CairnReq) : (s.request r).jtag = s.jtag := by
  obtain ⟨m, h⟩ := s.request_cairn r; rw [h]
@[simp] theorem State.request_commits (s : State) (r : CairnReq) : (s.request r).commits = s.commits := by
  obtain ⟨m, h⟩ := s.request_cairn r; rw [h]
@[simp] theorem State.request_free (s : State) (r : CairnReq) : (s.request r).free = s.free := by
  obtain ⟨m, h⟩ := s.request_cairn r; rw [h]
@[simp] theorem State.request_pending (s : State) (r : CairnReq) : (s.request r).pending = s.pending := by
  obtain ⟨m, h⟩ := s.request_cairn r; rw [h]

@[simp] theorem State.summary_dev (s : State) (i : Fin 69) (k q : Nat) (z : Option Int) (v : Word) : (s.summary i k q z v).dev = s.dev := by simp [State.summary]
@[simp] theorem State.summary_clk (s : State) (i : Fin 69) (k q : Nat) (z : Option Int) (v : Word) : (s.summary i k q z v).clk = s.clk := by simp [State.summary]
@[simp] theorem State.summary_gAcc (s : State) (i : Fin 69) (k q : Nat) (z : Option Int) (v : Word) : (s.summary i k q z v).gAcc = s.gAcc := by simp [State.summary]
@[simp] theorem State.summary_gInF (s : State) (i : Fin 69) (k q : Nat) (z : Option Int) (v : Word) : (s.summary i k q z v).gInF = s.gInF := by simp [State.summary]
@[simp] theorem State.summary_east (s : State) (i : Fin 69) (k q : Nat) (z : Option Int) (v : Word) : (s.summary i k q z v).east = s.east := by simp [State.summary]
@[simp] theorem State.summary_west (s : State) (i : Fin 69) (k q : Nat) (z : Option Int) (v : Word) : (s.summary i k q z v).west = s.west := by simp [State.summary]
@[simp] theorem State.summary_ctx (s : State) (i : Fin 69) (k q : Nat) (z : Option Int) (v : Word) : (s.summary i k q z v).ctx = s.ctx := by simp [State.summary]
@[simp] theorem State.summary_ph (s : State) (i : Fin 69) (k q : Nat) (z : Option Int) (v : Word) : (s.summary i k q z v).ph = s.ph := by simp [State.summary]
@[simp] theorem State.summary_sum (s : State) (i : Fin 69) (k q : Nat) (z : Option Int) (v : Word) : (s.summary i k q z v).sum = s.sum := by simp [State.summary]
@[simp] theorem State.summary_ft (s : State) (i : Fin 69) (k q : Nat) (z : Option Int) (v : Word) : (s.summary i k q z v).ft = s.ft := by simp [State.summary]
@[simp] theorem State.summary_cal (s : State) (i : Fin 69) (k q : Nat) (z : Option Int) (v : Word) : (s.summary i k q z v).cal = s.cal := by simp [State.summary]
@[simp] theorem State.summary_th (s : State) (i : Fin 69) (k q : Nat) (z : Option Int) (v : Word) : (s.summary i k q z v).th = s.th := by simp [State.summary]
@[simp] theorem State.summary_crag (s : State) (i : Fin 69) (k q : Nat) (z : Option Int) (v : Word) : (s.summary i k q z v).crag = s.crag := by simp [State.summary]
@[simp] theorem State.summary_tokErr (s : State) (i : Fin 69) (k q : Nat) (z : Option Int) (v : Word) : (s.summary i k q z v).tokErr = s.tokErr := by simp [State.summary]
@[simp] theorem State.summary_tokCount (s : State) (i : Fin 69) (k q : Nat) (z : Option Int) (v : Word) : (s.summary i k q z v).tokCount = s.tokCount := by simp [State.summary]
@[simp] theorem State.summary_tokFree (s : State) (i : Fin 69) (k q : Nat) (z : Option Int) (v : Word) : (s.summary i k q z v).tokFree = s.tokFree := by simp [State.summary]
@[simp] theorem State.summary_tokOld (s : State) (i : Fin 69) (k q : Nat) (z : Option Int) (v : Word) : (s.summary i k q z v).tokOld = s.tokOld := by simp [State.summary]
@[simp] theorem State.summary_lastOn (s : State) (i : Fin 69) (k q : Nat) (z : Option Int) (v : Word) : (s.summary i k q z v).lastOn = s.lastOn := by simp [State.summary]
@[simp] theorem State.summary_nv (s : State) (i : Fin 69) (k q : Nat) (z : Option Int) (v : Word) : (s.summary i k q z v).nv = s.nv := by simp [State.summary]
@[simp] theorem State.summary_led (s : State) (i : Fin 69) (k q : Nat) (z : Option Int) (v : Word) : (s.summary i k q z v).led = s.led := by simp [State.summary]
@[simp] theorem State.summary_mb (s : State) (i : Fin 69) (k q : Nat) (z : Option Int) (v : Word) : (s.summary i k q z v).mb = s.mb := by simp [State.summary]
@[simp] theorem State.summary_pmb (s : State) (i : Fin 69) (k q : Nat) (z : Option Int) (v : Word) : (s.summary i k q z v).pmb = s.pmb := by simp [State.summary]
@[simp] theorem State.summary_tarnA (s : State) (i : Fin 69) (k q : Nat) (z : Option Int) (v : Word) : (s.summary i k q z v).tarnA = s.tarnA := by simp [State.summary]
@[simp] theorem State.summary_tarnB (s : State) (i : Fin 69) (k q : Nat) (z : Option Int) (v : Word) : (s.summary i k q z v).tarnB = s.tarnB := by simp [State.summary]
@[simp] theorem State.summary_jtag (s : State) (i : Fin 69) (k q : Nat) (z : Option Int) (v : Word) : (s.summary i k q z v).jtag = s.jtag := by simp [State.summary]
@[simp] theorem State.summary_commits (s : State) (i : Fin 69) (k q : Nat) (z : Option Int) (v : Word) : (s.summary i k q z v).commits = s.commits := by simp [State.summary]
@[simp] theorem State.summary_pending (s : State) (i : Fin 69) (k q : Nat) (z : Option Int) (v : Word) : (s.summary i k q z v).pending = s.pending := by simp [State.summary]

@[simp] theorem State.summaryFree_dev (s : State) (i : Fin 69) (v : Word) : (s.summaryFree i v).dev = s.dev := by simp [State.summaryFree]
@[simp] theorem State.summaryFree_clk (s : State) (i : Fin 69) (v : Word) : (s.summaryFree i v).clk = s.clk := by simp [State.summaryFree]
@[simp] theorem State.summaryFree_gAcc (s : State) (i : Fin 69) (v : Word) : (s.summaryFree i v).gAcc = s.gAcc := by simp [State.summaryFree]
@[simp] theorem State.summaryFree_gInF (s : State) (i : Fin 69) (v : Word) : (s.summaryFree i v).gInF = s.gInF := by simp [State.summaryFree]
@[simp] theorem State.summaryFree_east (s : State) (i : Fin 69) (v : Word) : (s.summaryFree i v).east = s.east := by simp [State.summaryFree]
@[simp] theorem State.summaryFree_west (s : State) (i : Fin 69) (v : Word) : (s.summaryFree i v).west = s.west := by simp [State.summaryFree]
@[simp] theorem State.summaryFree_ctx (s : State) (i : Fin 69) (v : Word) : (s.summaryFree i v).ctx = s.ctx := by simp [State.summaryFree]
@[simp] theorem State.summaryFree_ph (s : State) (i : Fin 69) (v : Word) : (s.summaryFree i v).ph = s.ph := by simp [State.summaryFree]
@[simp] theorem State.summaryFree_sum (s : State) (i : Fin 69) (v : Word) : (s.summaryFree i v).sum = s.sum := by simp [State.summaryFree]
@[simp] theorem State.summaryFree_ft (s : State) (i : Fin 69) (v : Word) : (s.summaryFree i v).ft = s.ft := by simp [State.summaryFree]
@[simp] theorem State.summaryFree_cal (s : State) (i : Fin 69) (v : Word) : (s.summaryFree i v).cal = s.cal := by simp [State.summaryFree]
@[simp] theorem State.summaryFree_th (s : State) (i : Fin 69) (v : Word) : (s.summaryFree i v).th = s.th := by simp [State.summaryFree]
@[simp] theorem State.summaryFree_crag (s : State) (i : Fin 69) (v : Word) : (s.summaryFree i v).crag = s.crag := by simp [State.summaryFree]
@[simp] theorem State.summaryFree_tokErr (s : State) (i : Fin 69) (v : Word) : (s.summaryFree i v).tokErr = s.tokErr := by simp [State.summaryFree]
@[simp] theorem State.summaryFree_tokCount (s : State) (i : Fin 69) (v : Word) : (s.summaryFree i v).tokCount = s.tokCount := by simp [State.summaryFree]
@[simp] theorem State.summaryFree_tokFree (s : State) (i : Fin 69) (v : Word) : (s.summaryFree i v).tokFree = s.tokFree := by simp [State.summaryFree]
@[simp] theorem State.summaryFree_tokOld (s : State) (i : Fin 69) (v : Word) : (s.summaryFree i v).tokOld = s.tokOld := by simp [State.summaryFree]
@[simp] theorem State.summaryFree_lastOn (s : State) (i : Fin 69) (v : Word) : (s.summaryFree i v).lastOn = s.lastOn := by simp [State.summaryFree]
@[simp] theorem State.summaryFree_nv (s : State) (i : Fin 69) (v : Word) : (s.summaryFree i v).nv = s.nv := by simp [State.summaryFree]
@[simp] theorem State.summaryFree_led (s : State) (i : Fin 69) (v : Word) : (s.summaryFree i v).led = s.led := by simp [State.summaryFree]
@[simp] theorem State.summaryFree_mb (s : State) (i : Fin 69) (v : Word) : (s.summaryFree i v).mb = s.mb := by simp [State.summaryFree]
@[simp] theorem State.summaryFree_pmb (s : State) (i : Fin 69) (v : Word) : (s.summaryFree i v).pmb = s.pmb := by simp [State.summaryFree]
@[simp] theorem State.summaryFree_tarnA (s : State) (i : Fin 69) (v : Word) : (s.summaryFree i v).tarnA = s.tarnA := by simp [State.summaryFree]
@[simp] theorem State.summaryFree_tarnB (s : State) (i : Fin 69) (v : Word) : (s.summaryFree i v).tarnB = s.tarnB := by simp [State.summaryFree]
@[simp] theorem State.summaryFree_jtag (s : State) (i : Fin 69) (v : Word) : (s.summaryFree i v).jtag = s.jtag := by simp [State.summaryFree]
@[simp] theorem State.summaryFree_commits (s : State) (i : Fin 69) (v : Word) : (s.summaryFree i v).commits = s.commits := by simp [State.summaryFree]
@[simp] theorem State.summaryFree_pending (s : State) (i : Fin 69) (v : Word) : (s.summaryFree i v).pending = s.pending := by simp [State.summaryFree]

/-! ### The changed field -/

@[simp] theorem State.modCtx_ctx (s : State) (c : CtxId) (g : Ctx → Ctx) : (s.modCtx c g).ctx = upd s.ctx c g := rfl
@[simp] theorem State.modPh_ph (s : State) (p : PhaseId) (g : PhaseS → PhaseS) : (s.modPh p g).ph = upd s.ph p g := rfl
@[simp] theorem State.modChan_ctx (s : State) (c : CtxId) (g : Chan → Chan) :
    (s.modChan c g).ctx = upd s.ctx c (fun x => { x with chan := g x.chan }) := rfl
@[simp] theorem State.modSched_ctx (s : State) (c : CtxId) (g : Sched → Sched) :
    (s.modSched c g).ctx = upd s.ctx c (fun x => { x with sched := g x.sched }) := rfl
@[simp] theorem State.modTarn_ctx (s : State) (c : CtxId) (g : TarnS → TarnS) :
    (s.modTarn c g).ctx = upd s.ctx c (fun x => { x with tarn := g x.tarn }) := rfl
@[simp] theorem Half.modCell_cell (x : Half) (c : CtxId) (g : Cell → Cell) : (x.modCell c g).cell = upd x.cell c g := rfl
@[simp] theorem Half.modPh_ph (x : Half) (p : PhaseId) (g : HPhase → HPhase) : (x.modPh p g).ph = upd x.ph p g := rfl
theorem State.modCtx_get (s : State) (c : CtxId) (g : Ctx → Ctx) : (s.modCtx c g).ctx[c] = g s.ctx[c] := upd_get _ _ _
theorem State.modCtx_get_ne (s : State) (c d : CtxId) (g : Ctx → Ctx) (h : d ≠ c) : (s.modCtx c g).ctx[d] = s.ctx[d] := upd_get_ne _ _ _ _ h
theorem State.modPh_get (s : State) (p : PhaseId) (g : PhaseS → PhaseS) : (s.modPh p g).ph[p] = g s.ph[p] := upd_get _ _ _
theorem State.modPh_get_ne (s : State) (p q : PhaseId) (g : PhaseS → PhaseS) (h : q ≠ p) : (s.modPh p g).ph[q] = s.ph[q] := upd_get_ne _ _ _ _ h
theorem State.modChan_get (s : State) (c : CtxId) (g : Chan → Chan) :
    (s.modChan c g).ctx[c] = { s.ctx[c] with chan := g s.ctx[c].chan } := upd_get _ _ _
theorem State.modChan_get_ne (s : State) (c d : CtxId) (g : Chan → Chan) (h : d ≠ c) : (s.modChan c g).ctx[d] = s.ctx[d] := upd_get_ne _ _ _ _ h
theorem State.modSched_get (s : State) (c : CtxId) (g : Sched → Sched) :
    (s.modSched c g).ctx[c] = { s.ctx[c] with sched := g s.ctx[c].sched } := upd_get _ _ _
theorem State.modSched_get_ne (s : State) (c d : CtxId) (g : Sched → Sched) (h : d ≠ c) : (s.modSched c g).ctx[d] = s.ctx[d] := upd_get_ne _ _ _ _ h
theorem State.modTarn_get (s : State) (c : CtxId) (g : TarnS → TarnS) :
    (s.modTarn c g).ctx[c] = { s.ctx[c] with tarn := g s.ctx[c].tarn } := upd_get _ _ _
theorem State.modTarn_get_ne (s : State) (c d : CtxId) (g : TarnS → TarnS) (h : d ≠ c) : (s.modTarn c g).ctx[d] = s.ctx[d] := upd_get_ne _ _ _ _ h
theorem Half.modCell_get (x : Half) (c : CtxId) (g : Cell → Cell) : (x.modCell c g).cell[c] = g x.cell[c] := upd_get _ _ _
theorem Half.modCell_get_ne (x : Half) (c d : CtxId) (g : Cell → Cell) (h : d ≠ c) : (x.modCell c g).cell[d] = x.cell[d] := upd_get_ne _ _ _ _ h
@[simp] theorem Half.modCell_ph (x : Half) (c : CtxId) (g : Cell → Cell) : (x.modCell c g).ph = x.ph := rfl
theorem Half.modPh_get (x : Half) (p : PhaseId) (g : HPhase → HPhase) : (x.modPh p g).ph[p] = g x.ph[p] := upd_get _ _ _
theorem Half.modPh_get_ne (x : Half) (p q : PhaseId) (g : HPhase → HPhase) (h : q ≠ p) : (x.modPh p g).ph[q] = x.ph[q] := upd_get_ne _ _ _ _ h
@[simp] theorem Half.modPh_cell (x : Half) (p : PhaseId) (g : HPhase → HPhase) : (x.modPh p g).cell = x.cell := rfl
@[simp] theorem State.halves_east (s : State) (g : Half → Half) : (s.halves g).east = g s.east := rfl
@[simp] theorem State.halves_west (s : State) (g : Half → Half) : (s.halves g).west = g s.west := rfl
@[simp] theorem State.halves_half (s : State) (g : Half → Half) (h : HalfId) : (s.halves g).half h = g (s.half h) := by cases h <;> rfl
@[simp] theorem State.setHalf_half (s : State) (h : HalfId) (x : Half) : (s.setHalf h x).half h = x := by cases h <;> rfl
theorem State.setHalf_half_ne (s : State) (h k : HalfId) (x : Half) (hk : k ≠ h) : (s.setHalf h x).half k = s.half k := by
  cases h <;> cases k <;> first | rfl | exact absurd rfl hk
@[simp] theorem State.modHs_half (s : State) (h : HalfId) (g : HalfS → HalfS) : (s.modHs h g).sum.half h = g (s.sum.half h) := by cases h <;> rfl
theorem State.modHs_half_ne (s : State) (h k : HalfId) (g : HalfS → HalfS) (hk : k ≠ h) : (s.modHs h g).sum.half k = s.sum.half k := by
  cases h <;> cases k <;> first | rfl | exact absurd rfl hk
@[simp] theorem State.setHolder_holder (s : State) (h : Option HalfId) : (s.setHolder h).holder = h := by simp [State.setHolder, State.holder, Summit.holder, vote]
@[simp] theorem State.commit_commits (s : State) (n : Nat) (a : Act) : (s.commit n a).commits = s.commits ++ [⟨n, a⟩] := rfl
@[simp] theorem State.modPort_port (s : State) (p : Port) (g : TarnPort → TarnPort) : (s.modPort p g).port p = g (s.port p) := by cases p <;> rfl
theorem State.modPort_port_ne (s : State) (p q : Port) (g : TarnPort → TarnPort) (hq : q ≠ p) : (s.modPort p g).port q = s.port q := by
  cases p <;> cases q <;> first | rfl | exact absurd rfl hq
@[simp] theorem State.respond_mb (s : State) (r : Req) (a d : Nat) (l : List Word) : (s.respond r a d l).mb = s.mb.respond r a d l := rfl
@[simp] theorem Mbox.modSlot_slot (m : Mbox) (r : Req) (g : Slot64 → Slot64) : (m.modSlot r g).slot r = g (m.slot r) := by
  unfold Mbox.modSlot Mbox.slot; cases r.box <;> exact upd_get _ _ _
@[simp] theorem Mbox.modSlot_queue (m : Mbox) (r : Req) (g : Slot64 → Slot64) : (m.modSlot r g).queue = m.queue := by
  unfold Mbox.modSlot; split <;> rfl
@[simp] theorem Mbox.modSlot_events (m : Mbox) (r : Req) (g : Slot64 → Slot64) : (m.modSlot r g).events = m.events := by
  unfold Mbox.modSlot; split <;> rfl
@[simp] theorem Mbox.respond_queue (m : Mbox) (r : Req) (a d : Nat) (l : List Word) : (m.respond r a d l).queue = m.queue := by simp [Mbox.respond]
@[simp] theorem Mbox.respond_events (m : Mbox) (r : Req) (a d : Nat) (l : List Word) : (m.respond r a d l).events = m.events := by simp [Mbox.respond]
theorem Mbox.respond_slot (m : Mbox) (r : Req) (a d : Nat) (l : List Word) : ((m.respond r a d l).slot r).st = .done := by simp [Mbox.respond]

end Sys2Proof.Machine
end

