-- ==== Sys2Proof/Laws/Stays.lean ====
section
/-!
SUPPORT. The device state across every operation but the transitions themselves: it stays, or SAFE is entered. One lemma an
operation, cited in place of unfolding it.
-/
namespace Sys2Proof.Machine

/-- The device state stays, or an entry to SAFE was taken (R33). -/
structure Stays (s t : State) : Prop where
  or : t.dev.st = s.dev.st ∨ (t.dev.st = .safe ∧ (s.dev.st = .boot ∨ s.dev.st = .standby ∨ s.dev.st = .run))

theorem Stays.refl (s : State) : Stays s s := ⟨.inl rfl⟩
theorem Stays.same {s t u : State} (h : Stays s t) (h1 : u.dev.st = t.dev.st) : Stays s u := ⟨by rw [h1]; exact h.or⟩
theorem Stays.trans {s t u : State} (h : Stays s t) (k : Stays t u) : Stays s u := by
  refine ⟨?_⟩
  rcases h.or with h | ⟨h1, h2⟩
  · rw [← h]; exact k.or
  · rcases k.or with k | ⟨k1, -⟩
    · exact .inr ⟨k.trans h1, h2⟩
    · exact .inr ⟨k1, h2⟩
theorem Stays.lit {s t : State} {dev clk gAcc gInF east west ctx ph sum ft cal th crag tokErr tokCount tokFree tokOld lastOn nv led cairn mb pmb tarnA tarnB jtag commits free pending} (h1 : dev.st = t.dev.st) (h : Stays s t) :
    Stays s ⟨dev, clk, gAcc, gInF, east, west, ctx, ph, sum, ft, cal, th, crag, tokErr, tokCount, tokFree, tokOld, lastOn, nv, led, cairn, mb, pmb, tarnA, tarnB, jtag, commits, free, pending⟩ := h.same h1
theorem Stays.ite {s a b : State} {c : Prop} [Decidable c] (ha : Stays s a) (hb : Stays s b) :
    Stays s (if c then a else b) := by split <;> assumption
theorem Stays.foldl {α : Type} {f : State → α → State} {s : State} (h : Stays s a)
   (hf : ∀ t x, Stays s t → Stays s (f t x)) (l : List α) : Stays s (l.foldl f a) := by
  induction l generalizing a with
  | nil => exact h
  | cons x l ih => exact ih (hf _ _ h)

theorem State.modCtx_stays {s₀ : State} (s : State) (c : CtxId) (f : Ctx → Ctx) (hk : Stays s₀ s) : Stays s₀ (State.modCtx s c f) := by
  unfold State.modCtx
  iterate 5 (
    all_goals (try ((with_reducible apply Stays.lit); (case h1 => exact rfl)))
    repeat (first | with_reducible assumption | with_reducible apply Stays.ite | with_reducible apply Stays.foldl | with_reducible exact (rfl : _ = _) | intro _))

theorem State.modPh_stays {s₀ : State} (s : State) (p : PhaseId) (f : PhaseS → PhaseS) (hk : Stays s₀ s) : Stays s₀ (State.modPh s p f) := by
  unfold State.modPh
  iterate 5 (
    all_goals (try ((with_reducible apply Stays.lit); (case h1 => exact rfl)))
    repeat (first | with_reducible assumption | with_reducible apply Stays.ite | with_reducible apply Stays.foldl | with_reducible exact (rfl : _ = _) | intro _))

theorem State.modChan_stays {s₀ : State} (s : State) (c : CtxId) (f : Chan → Chan) (hk : Stays s₀ s) : Stays s₀ (State.modChan s c f) := by
  unfold State.modChan
  iterate 5 (
    repeat (first | with_reducible assumption | with_reducible apply State.modCtx_stays | with_reducible apply Stays.ite | with_reducible apply Stays.foldl | with_reducible exact (rfl : _ = _) | intro _))

theorem State.setHalf_stays {s₀ : State} (s : State) (h : HalfId) (x : Half) (hk : Stays s₀ s) : Stays s₀ (s.setHalf h x) := by
  cases h <;> exact hk.same rfl

theorem State.halves_stays {s₀ : State} (s : State) (f : Half → Half) (hk : Stays s₀ s) : Stays s₀ (State.halves s f) := by
  unfold State.halves
  iterate 5 (
    all_goals (try ((with_reducible apply Stays.lit); (case h1 => exact rfl)))
    repeat (first | with_reducible assumption | with_reducible apply Stays.ite | with_reducible apply Stays.foldl | with_reducible exact (rfl : _ = _) | intro _))

theorem State.modHs_stays {s₀ : State} (s : State) (h : HalfId) (f : HalfS → HalfS) (hk : Stays s₀ s) :
    Stays s₀ (s.modHs h f) := by
  cases h <;> exact hk.same rfl

theorem State.commit_stays {s₀ : State} (s : State) (t : Nat) (a : Act) (hk : Stays s₀ s) : Stays s₀ (State.commit s t a) := by
  unfold State.commit
  iterate 5 (
    all_goals (try ((with_reducible apply Stays.lit); (case h1 => exact rfl)))
    repeat (first | with_reducible assumption | with_reducible apply Stays.ite | with_reducible apply Stays.foldl | with_reducible exact (rfl : _ = _) | intro _))

theorem State.fresh_stays {s₀ : State} (s : State) (hk : Stays s₀ s) : Stays s₀ (State.fresh s).2 := by
  unfold State.fresh
  iterate 5 (
    all_goals (try ((with_reducible apply Stays.lit); (case h1 => exact rfl)))
    repeat (first | with_reducible assumption | with_reducible apply Stays.ite | with_reducible apply Stays.foldl | with_reducible exact (rfl : _ = _) | intro _))

theorem State.tempSample_stays {s₀ : State} (s : State) (x : TempSample) (hk : Stays s₀ s) : Stays s₀ (State.tempSample s x) := by
  unfold State.tempSample
  iterate 5 (
    all_goals (try ((with_reducible apply Stays.lit); (case h1 => exact rfl)))
    repeat (first | with_reducible assumption | with_reducible apply Stays.ite | with_reducible apply Stays.foldl | with_reducible exact (rfl : _ = _) | intro _)
    all_goals (try dsimp only)
    all_goals (try split))

theorem State.sampleAt_stays {s₀ : State} (s : State) (x : TempSample) (hk : Stays s₀ s) : Stays s₀ (State.sampleAt s x) := by
  unfold State.sampleAt
  iterate 5 (
    repeat (first | with_reducible assumption | with_reducible apply State.tempSample_stays | with_reducible apply Stays.ite | with_reducible apply Stays.foldl | with_reducible exact (rfl : _ = _) | intro _)
    all_goals (try ((with_reducible apply Stays.lit); (case h1 => exact rfl)))
    repeat (first | with_reducible assumption | with_reducible apply State.tempSample_stays | with_reducible apply Stays.ite | with_reducible apply Stays.foldl | with_reducible exact (rfl : _ = _) | intro _))

theorem State.lose_stays {s₀ : State} (s : State) (t : Trig) (hk : Stays s₀ s) : Stays s₀ (State.lose s t) := by
  unfold State.lose
  iterate 5 (
    all_goals (try ((with_reducible apply Stays.lit); (case h1 => exact rfl)))
    repeat (first | with_reducible assumption | with_reducible apply Stays.ite | with_reducible apply Stays.foldl | with_reducible exact (rfl : _ = _) | intro _))

theorem State.w1cCtx_stays {s₀ : State} (s : State) (c : CtxId) (r : CReg) (w : Word) (hk : Stays s₀ s) : Stays s₀ (State.w1cCtx s c r w) := by
  unfold State.w1cCtx
  iterate 5 (
    repeat (first | with_reducible assumption | with_reducible apply State.halves_stays | with_reducible apply State.modCtx_stays | with_reducible apply Stays.ite | with_reducible apply Stays.foldl | with_reducible exact (rfl : _ = _) | intro _)
    all_goals (try ((with_reducible apply Stays.lit); (case h1 => exact rfl)))
    all_goals (try split))

theorem State.w1cGlob_stays {s₀ : State} (s : State) (r : GReg) (w : Word) (hk : Stays s₀ s) : Stays s₀ (State.w1cGlob s r w) := by
  unfold State.w1cGlob
  iterate 5 (
    all_goals (try ((with_reducible apply Stays.lit); (case h1 => exact rfl)))
    repeat (first | with_reducible assumption | with_reducible apply State.imonFault_stays | with_reducible apply Stays.ite | with_reducible apply Stays.foldl | with_reducible exact (rfl : _ = _) | intro _)
    all_goals (try dsimp only)
    all_goals (try split))

theorem State.newCycle_stays {s₀ : State} (s : State) (hk : Stays s₀ s) : Stays s₀ (State.newCycle s) := by
  unfold State.newCycle
  iterate 5 (
    all_goals (try ((with_reducible apply Stays.lit); (case h1 => exact rfl)))
    repeat (first | with_reducible assumption | with_reducible apply State.halves_stays | with_reducible apply Stays.ite | with_reducible apply Stays.foldl | with_reducible exact (rfl : _ = _) | intro _))

theorem State.event_dev_same (s : State) (src code : Nat) (a b : Word) : (s.event src code a b).dev = s.dev := by
  unfold State.event
  dsimp only
  split
  · rfl
  · split <;> rfl

theorem State.event_stays {s₀ : State} (s : State) (src code : Nat) (a b : Word) (hk : Stays s₀ s) :
    Stays s₀ (s.event src code a b) := hk.same (by rw [State.event_dev_same])

theorem State.request_stays {s₀ : State} (s : State) (r : CairnReq) (hk : Stays s₀ s) : Stays s₀ (s.request r) := by
  unfold State.request
  extract_lets y x
  clear_value x
  split <;> exact hk.same rfl

theorem State.summary_stays {s₀ : State} (s : State) (src : Fin 69) (code fclass : Nat) (zone : Option Int) (value : Word) (hk : Stays s₀ s) : Stays s₀ (State.summary s src code fclass zone value) := by
  unfold State.summary
  iterate 5 (
    all_goals (try ((with_reducible apply Stays.lit); (case h1 => exact rfl)))
    repeat (first | with_reducible assumption | with_reducible apply State.request_stays | with_reducible apply Stays.ite | with_reducible apply Stays.foldl | with_reducible exact (rfl : _ = _) | intro _))

theorem State.summaryFree_stays {s₀ : State} (s : State) (src : Fin 69) (value : Word) (hk : Stays s₀ s) : Stays s₀ (State.summaryFree s src value) := by
  unfold State.summaryFree
  iterate 5 (
    repeat (first | with_reducible assumption | with_reducible apply State.summary_stays | with_reducible apply Stays.ite | with_reducible apply Stays.foldl | with_reducible exact (rfl : _ = _) | intro _)
    all_goals (try ((with_reducible apply Stays.lit); (case h1 => exact rfl)))
    repeat (first | with_reducible assumption | with_reducible apply State.summary_stays | with_reducible apply Stays.ite | with_reducible apply Stays.foldl | with_reducible exact (rfl : _ = _) | intro _))

theorem State.snapshotReq_stays {s₀ : State} (s : State) (c : CtxId) (k : Fin 4) (hk : Stays s₀ s) : Stays s₀ (State.snapshotReq s c k) := by
  unfold State.snapshotReq
  iterate 5 (
    repeat (first | with_reducible assumption | with_reducible apply State.request_stays | with_reducible apply State.modCtx_stays | with_reducible apply Stays.ite | with_reducible apply Stays.foldl | with_reducible exact (rfl : _ = _) | intro _))

theorem State.snapshots_stays {s₀ : State} (s : State) (c : CtxId) (hk : Stays s₀ s) : Stays s₀ (State.snapshots s c) := by
  unfold State.snapshots
  iterate 5 (
    repeat (first | with_reducible assumption | with_reducible apply State.snapshotReq_stays | with_reducible apply State.modCtx_stays | with_reducible apply Stays.ite | with_reducible apply Stays.foldl | with_reducible exact (rfl : _ = _) | intro _))

theorem State.modSched_stays {s₀ : State} (s : State) (c : CtxId) (f : Sched → Sched) (hk : Stays s₀ s) : Stays s₀ (State.modSched s c f) := by
  unfold State.modSched
  iterate 5 (
    repeat (first | with_reducible assumption | with_reducible apply State.modCtx_stays | with_reducible apply Stays.ite | with_reducible apply Stays.foldl | with_reducible exact (rfl : _ = _) | intro _))

theorem State.endEntry_stays {s₀ : State} (s : State) (c : CtxId) (e : Event) (hk : Stays s₀ s) : Stays s₀ (State.endEntry s c e) := by
  unfold State.endEntry
  iterate 5 (
    repeat (first | with_reducible assumption | with_reducible apply State.event_stays | with_reducible apply Stays.ite | with_reducible apply Stays.foldl | with_reducible exact (rfl : _ = _) | intro _))

theorem State.missEvent_stays {s₀ : State} (s : State) (c : CtxId) (serial : Nat) (o : EvOutcome) (hk : Stays s₀ s) : Stays s₀ (State.missEvent s c serial o) := by
  unfold State.missEvent
  iterate 5 (
    repeat (first | with_reducible assumption | with_reducible apply State.modSched_stays | with_reducible apply State.summary_stays | with_reducible apply Stays.ite | with_reducible apply Stays.foldl | with_reducible exact (rfl : _ = _) | intro _)
    all_goals (try ((with_reducible apply Stays.lit); (case h1 => exact rfl)))
    all_goals (try dsimp only)
    all_goals (try split))

theorem State.supersede_stays {s₀ : State} (s : State) (c : CtxId) (serial : Nat) (hk : Stays s₀ s) : Stays s₀ (State.supersede s c serial) := by
  unfold State.supersede
  iterate 5 (
    repeat (first | with_reducible assumption | with_reducible apply State.modSched_stays | with_reducible apply Stays.ite | with_reducible apply Stays.foldl | with_reducible exact (rfl : _ = _) | intro _))

theorem State.flush_stays {s₀ : State} (s : State) (c : CtxId) (hk : Stays s₀ s) : Stays s₀ (State.flush s c) := by
  unfold State.flush
  iterate 5 (
    repeat (first | with_reducible assumption | with_reducible apply State.halves_stays | with_reducible apply State.modCtx_stays | with_reducible apply State.endEntry_stays | with_reducible apply State.modSched_stays | with_reducible apply Stays.ite | with_reducible apply Stays.foldl | with_reducible exact (rfl : _ = _) | intro _)
    all_goals (try ((with_reducible apply Stays.lit); (case h1 => exact rfl)))
    all_goals (try dsimp only)
    all_goals (try split))

theorem State.traceTrigger_stays {s₀ : State} (s : State) (c : CtxId) (trig : Nat) (hk : Stays s₀ s) : Stays s₀ (State.traceTrigger s c trig) := by
  unfold State.traceTrigger
  iterate 5 (
    repeat (first | with_reducible assumption | with_reducible apply State.modCtx_stays | with_reducible apply Stays.ite | with_reducible apply Stays.foldl | with_reducible exact (rfl : _ = _) | intro _))

theorem State.gateRamp_stays {s₀ : State} (s : State) (c : CtxId) (hk : Stays s₀ s) : Stays s₀ (State.gateRamp s c) := by
  unfold State.gateRamp
  iterate 5 (
    repeat (first | with_reducible assumption | with_reducible apply State.traceTrigger_stays | with_reducible apply State.modChan_stays | with_reducible apply Stays.ite | with_reducible apply Stays.foldl | with_reducible exact (rfl : _ = _) | intro _)
    all_goals (try ((with_reducible apply Stays.lit); (case h1 => exact rfl)))
    repeat (first | with_reducible assumption | with_reducible apply State.traceTrigger_stays | with_reducible apply State.modChan_stays | with_reducible apply Stays.ite | with_reducible apply Stays.foldl | with_reducible exact (rfl : _ = _) | intro _))

theorem State.delayEvent_stays {s₀ : State} (s : State) (c : CtxId) (n ticks : Nat) (hk : Stays s₀ s) : Stays s₀ (State.delayEvent s c n ticks) := by
  unfold State.delayEvent
  iterate 5 (
    repeat (first | with_reducible assumption | with_reducible apply State.modSched_stays | with_reducible apply Stays.ite | with_reducible apply Stays.foldl | with_reducible exact (rfl : _ = _) | intro _))

theorem State.deferFurther_stays {s₀ : State} (s : State) (c : CtxId) (hk : Stays s₀ s) : Stays s₀ (State.deferFurther s c) := by
  unfold State.deferFurther
  iterate 5 (
    repeat (first | with_reducible assumption | with_reducible apply State.gateRamp_stays | with_reducible apply State.modSched_stays | with_reducible apply State.event_stays | with_reducible apply State.modChan_stays | with_reducible apply Stays.ite | with_reducible apply Stays.foldl | with_reducible exact (rfl : _ = _) | intro _)
    all_goals (try ((with_reducible apply Stays.lit); (case h1 => exact rfl)))
    all_goals (try dsimp only)
    all_goals (try split))

theorem State.deferTo_stays {s₀ : State} (s : State) (c : CtxId) (ev : Option Nat) (last : Nat) (hk : Stays s₀ s) : Stays s₀ (State.deferTo s c ev last) := by
  unfold State.deferTo
  iterate 5 (
    repeat (first | with_reducible assumption | with_reducible apply State.deferFurther_stays | with_reducible apply State.delayEvent_stays | with_reducible apply State.event_stays | with_reducible apply State.modChan_stays | with_reducible apply Stays.ite | with_reducible apply Stays.foldl | with_reducible exact (rfl : _ = _) | intro _)
    all_goals (try ((with_reducible apply Stays.lit); (case h1 => exact rfl)))
    all_goals (try split))

theorem State.startOrDefer_stays {s₀ : State} (s : State) (c : CtxId) (ev : Option Nat) (hk : Stays s₀ s) : Stays s₀ (State.startOrDefer s c ev) := by
  unfold State.startOrDefer
  iterate 5 (
    repeat (first | with_reducible assumption | with_reducible apply State.gateRamp_stays | with_reducible apply State.deferTo_stays | with_reducible apply State.modSched_stays | with_reducible apply State.event_stays | with_reducible apply State.modChan_stays | with_reducible apply Stays.ite | with_reducible apply Stays.foldl | with_reducible exact (rfl : _ = _) | intro _)
    all_goals (try ((with_reducible apply Stays.lit); (case h1 => exact rfl)))
    all_goals (try split))

theorem State.heldStart_stays {s₀ : State} (s : State) (c : CtxId) (ev : Option Nat) (hk : Stays s₀ s) : Stays s₀ (State.heldStart s c ev) := by
  unfold State.heldStart
  iterate 5 (
    repeat (first | with_reducible assumption | with_reducible apply State.startOrDefer_stays | with_reducible apply State.supersede_stays | with_reducible apply State.missEvent_stays | with_reducible apply State.modChan_stays | with_reducible apply Stays.ite | with_reducible apply Stays.foldl | with_reducible exact (rfl : _ = _) | intro _)
    all_goals (try ((with_reducible apply Stays.lit); (case h1 => exact rfl)))
    all_goals (try split))

theorem State.onCmd_stays {s₀ : State} (s : State) (c : CtxId) (hk : Stays s₀ s) : Stays s₀ (State.onCmd s c) := by
  unfold State.onCmd
  iterate 5 (
    repeat (first | with_reducible assumption | with_reducible apply State.startOrDefer_stays | with_reducible apply State.modChan_stays | with_reducible apply Stays.ite | with_reducible apply Stays.foldl | with_reducible exact (rfl : _ = _) | intro _)
    all_goals (try ((with_reducible apply Stays.lit); (case h1 => exact rfl)))
    all_goals (try split))

theorem State.offCmd_stays {s₀ : State} (s : State) (c : CtxId) (hk : Stays s₀ s) : Stays s₀ (State.offCmd s c) := by
  unfold State.offCmd
  iterate 5 (
    repeat (first | with_reducible assumption | with_reducible apply State.traceTrigger_stays | with_reducible apply State.missEvent_stays | with_reducible apply State.event_stays | with_reducible apply State.modChan_stays | with_reducible apply Stays.ite | with_reducible apply Stays.foldl | with_reducible exact (rfl : _ = _) | intro _)
    all_goals (try ((with_reducible apply Stays.lit); (case h1 => exact rfl)))
    all_goals (try split))

theorem State.chanFault_stays {s₀ : State} (s : State) (c : CtxId) (k : ChCause) (hk : Stays s₀ s) : Stays s₀ (State.chanFault s c k) := by
  unfold State.chanFault
  iterate 5 (
    repeat (first | with_reducible assumption | with_reducible apply State.missEvent_stays | with_reducible apply State.event_stays | with_reducible apply State.modChan_stays | with_reducible apply Stays.ite | with_reducible apply Stays.foldl | with_reducible exact (rfl : _ = _) | intro _)
    all_goals (try ((with_reducible apply Stays.lit); (case h1 => exact rfl)))
    all_goals (try split))

theorem State.raiseCause_stays {s₀ : State} (s : State) (c : CtxId) (k : ChCause) (hk : Stays s₀ s) : Stays s₀ (State.raiseCause s c k) := by
  unfold State.raiseCause
  iterate 5 (
    repeat (first | with_reducible assumption | with_reducible apply State.chanFault_stays | with_reducible apply State.modChan_stays | with_reducible apply Stays.ite | with_reducible apply Stays.foldl | with_reducible exact (rfl : _ = _) | intro _)
    all_goals (try ((with_reducible apply Stays.lit); (case h1 => exact rfl)))
    all_goals (try dsimp only)
    all_goals (try split))

theorem State.tripFollow_stays {s₀ : State} (s : State) (c : CtxId) (hk : Stays s₀ s) : Stays s₀ (State.tripFollow s c) := by
  unfold State.tripFollow
  iterate 5 (
    repeat (first | with_reducible assumption | with_reducible apply State.raiseCause_stays | with_reducible apply State.modChan_stays | with_reducible apply Stays.ite | with_reducible apply Stays.foldl | with_reducible exact (rfl : _ = _) | intro _)
    all_goals (try ((with_reducible apply Stays.lit); (case h1 => exact rfl)))
    all_goals (try dsimp only)
    all_goals (try split))

theorem State.tryRelease_stays {s₀ : State} (s : State) (c : CtxId) (hk : Stays s₀ s) : Stays s₀ (State.tryRelease s c) := by
  unfold State.tryRelease
  iterate 5 (
    repeat (first | with_reducible assumption | with_reducible apply State.onCmd_stays | with_reducible apply State.modChan_stays | with_reducible apply Stays.ite | with_reducible apply Stays.foldl | with_reducible exact (rfl : _ = _) | intro _))

theorem State.goto_st (s : State) (st : DevState) : (s.goto st).dev.st = st := by
  unfold State.goto
  split
  · assumption
  · extract_lets old l1 s1
    rw [State.event_dev_same]

theorem State.pgDrop_stays {s₀ : State} (s : State) (c : CtxId) (hk : Stays s₀ s) : Stays s₀ (State.pgDrop s c) := by
  unfold State.pgDrop
  iterate 5 (
    repeat (first | with_reducible assumption | with_reducible apply State.event_stays | with_reducible apply State.modCtx_stays | with_reducible apply Stays.ite | with_reducible apply Stays.foldl | with_reducible exact (rfl : _ = _) | intro _))

theorem State.parkAll_stays {s₀ : State} (s : State) (c : CtxId) (hk : Stays s₀ s) : Stays s₀ (State.parkAll s c) := by
  unfold State.parkAll
  iterate 5 (
    repeat (first | with_reducible assumption | with_reducible apply State.halves_stays | with_reducible apply Stays.ite | with_reducible apply Stays.foldl | with_reducible exact (rfl : _ = _) | intro _))

theorem State.dropHeld_stays {s₀ : State} (s : State) (c : CtxId) (hk : Stays s₀ s) : Stays s₀ (State.dropHeld s c) := by
  unfold State.dropHeld
  iterate 5 (
    repeat (first | with_reducible assumption | with_reducible apply State.halves_stays | with_reducible apply Stays.ite | with_reducible apply Stays.foldl | with_reducible exact (rfl : _ = _) | intro _))

theorem State.stopReg_stays {s₀ : State} (s : State) (c : CtxId) (hk : Stays s₀ s) : Stays s₀ (State.stopReg s c) := by
  unfold State.stopReg
  iterate 5 (
    repeat (first | with_reducible assumption | with_reducible apply State.dropHeld_stays | with_reducible apply State.parkAll_stays | with_reducible apply State.pgDrop_stays | with_reducible apply State.flush_stays | with_reducible apply State.modCtx_stays | with_reducible apply Stays.ite | with_reducible apply Stays.foldl | with_reducible exact (rfl : _ = _) | intro _))

theorem State.forceCtx_stays {s₀ : State} (s : State) (c : CtxId) (hk : Stays s₀ s) : Stays s₀ (State.forceCtx s c) := by
  unfold State.forceCtx
  iterate 5 (
    all_goals (try ((with_reducible apply Stays.lit); (case h1 => exact rfl)))
    repeat (first | with_reducible assumption | with_reducible apply Stays.ite | with_reducible apply Stays.foldl | with_reducible exact (rfl : _ = _) | intro _))

theorem State.flushAll_stays {s₀ : State} (s : State) (hk : Stays s₀ s) : Stays s₀ (State.flushAll s) := by
  unfold State.flushAll
  iterate 5 (
    repeat (first | with_reducible assumption | with_reducible apply State.flush_stays | with_reducible apply Stays.ite | with_reducible apply Stays.foldl | with_reducible exact (rfl : _ = _) | intro _))

theorem State.stopRails_stays {s₀ : State} (s : State) (hk : Stays s₀ s) : Stays s₀ (State.stopRails s) := by
  unfold State.stopRails
  iterate 5 (
    repeat (first | with_reducible assumption | with_reducible apply State.stopReg_stays | with_reducible apply State.offCmd_stays | with_reducible apply Stays.ite | with_reducible apply Stays.foldl | with_reducible exact (rfl : _ = _) | intro _))

theorem State.safeInputStep_stays {s₀ : State} (s : State) (hk : Stays s₀ s) : Stays s₀ (State.safeInputStep s) := by
  unfold State.safeInputStep
  iterate 5 (
    repeat (first | with_reducible assumption | with_reducible apply State.offCmd_stays | with_reducible apply Stays.ite | with_reducible apply Stays.foldl | with_reducible exact (rfl : _ = _) | intro _))

theorem State.applySafe_stays {s₀ : State} (s : State) (hk : Stays s₀ s) : Stays s₀ (State.applySafe s) := by
  unfold State.applySafe
  iterate 5 (
    repeat (first | with_reducible assumption | with_reducible apply State.safeInputStep_stays | with_reducible apply State.stopRails_stays | with_reducible apply State.flushAll_stays | with_reducible apply Stays.ite | with_reducible apply Stays.foldl | with_reducible exact (rfl : _ = _) | intro _)
    all_goals (try ((with_reducible apply Stays.lit); (case h1 => exact rfl)))
    repeat (first | with_reducible assumption | with_reducible apply State.safeInputStep_stays | with_reducible apply State.stopRails_stays | with_reducible apply State.flushAll_stays | with_reducible apply Stays.ite | with_reducible apply Stays.foldl | with_reducible exact (rfl : _ = _) | intro _))

theorem State.safeTrigger_stays {s₀ : State} (s : State) (k : SafeCause) (hk : Stays s₀ s) : Stays s₀ (s.safeTrigger k) := by
  refine hk.trans ?_
  unfold State.safeTrigger
  extract_lets s1
  have h1 : s1.dev.st = s.dev.st := by cases k <;> rfl
  clear_value s1
  split
  · rename_i h
    have h2 : s1.dev.st = .boot ∨ s1.dev.st = .standby ∨ s1.dev.st = .run := by
      unfold State.safeFrom at h
      split at h
      · rename_i e; exact .inr (.inl e)
      · rename_i e; exact .inr (.inr e)
      · rename_i e; exact .inl e
      · cases h
    unfold State.move
    split
    · unfold State.enterSafe
      have h3 := State.goto_st s1.applySafe .safe
      generalize s1.applySafe.goto .safe = u at h3 ⊢
      exact ⟨.inr ⟨h3, h1 ▸ h2⟩⟩
    · exact State.lose_stays _ _ ⟨.inl h1⟩
  · exact ⟨.inl h1⟩

theorem State.latchCtx_stays {s₀ : State} (s : State) (c : CtxId) (hk : Stays s₀ s) : Stays s₀ (State.latchCtx s c) := by
  unfold State.latchCtx
  iterate 5 (
    repeat (first | with_reducible assumption | with_reducible apply State.safeTrigger_stays | with_reducible apply State.forceCtx_stays | with_reducible apply State.stopReg_stays | with_reducible apply State.parkAll_stays | with_reducible apply State.offCmd_stays | with_reducible apply State.modCtx_stays | with_reducible apply Stays.ite | with_reducible apply Stays.foldl | with_reducible exact (rfl : _ = _) | intro _))

theorem State.declareFlag_stays {s₀ : State} (s : State) (c : CtxId) (k : FClass) (hk : Stays s₀ s) : Stays s₀ (State.declareFlag s c k) := by
  unfold State.declareFlag
  iterate 5 (
    repeat (first | with_reducible assumption | with_reducible apply State.pgDrop_stays | with_reducible apply State.traceTrigger_stays | with_reducible apply State.snapshots_stays | with_reducible apply State.summary_stays | with_reducible apply State.event_stays | with_reducible apply State.modCtx_stays | with_reducible apply Stays.ite | with_reducible apply Stays.foldl | with_reducible exact (rfl : _ = _) | intro _))

theorem State.retryCtx_stays {s₀ : State} (s : State) (c : CtxId) (hk : Stays s₀ s) : Stays s₀ (State.retryCtx s c) := by
  unfold State.retryCtx
  iterate 5 (
    repeat (first | with_reducible assumption | with_reducible apply State.latchCtx_stays | with_reducible apply State.modCtx_stays | with_reducible apply Stays.ite | with_reducible apply Stays.foldl | with_reducible exact (rfl : _ = _) | intro _))

theorem State.takeRelease_stays {s₀ : State} (s : State) (h : HalfId) (hk : Stays s₀ s) : Stays s₀ (State.takeRelease s h) := by
  unfold State.takeRelease
  iterate 5 (
    all_goals (try ((with_reducible apply Stays.lit); (case h1 => exact rfl)))
    repeat (first | with_reducible assumption | with_reducible apply State.modHs_stays | with_reducible apply Stays.ite | with_reducible apply Stays.foldl | with_reducible exact (rfl : _ = _) | intro _))

theorem State.failoverCtx_stays {s₀ : State} (s : State) (c : CtxId) (k : FClass) (hk : Stays s₀ s) : Stays s₀ (State.failoverCtx s c k) := by
  unfold State.failoverCtx
  iterate 5 (
    repeat (first | with_reducible assumption | with_reducible apply State.takeRelease_stays | with_reducible apply State.latchCtx_stays | with_reducible apply State.modCtx_stays | with_reducible apply Stays.ite | with_reducible apply Stays.foldl | with_reducible exact (rfl : _ = _) | intro _)
    all_goals (try ((with_reducible apply Stays.lit); (case h1 => exact rfl)))
    all_goals (try dsimp only)
    all_goals (try split))

theorem State.setLast_stays {s₀ : State} (s : State) (c : CtxId) (k : FClass) (hk : Stays s₀ s) : Stays s₀ (State.setLast s c k) := by
  unfold State.setLast
  iterate 5 (
    repeat (first | with_reducible assumption | with_reducible apply State.modCtx_stays | with_reducible apply Stays.ite | with_reducible apply Stays.foldl | with_reducible exact (rfl : _ = _) | intro _))

theorem State.actCtx_stays {s₀ : State} (s : State) (c : CtxId) (k : FClass) (hk : Stays s₀ s) : Stays s₀ (State.actCtx s c k) := by
  unfold State.actCtx
  iterate 5 (
    repeat (first | with_reducible assumption | with_reducible apply State.setLast_stays | with_reducible apply State.failoverCtx_stays | with_reducible apply State.retryCtx_stays | with_reducible apply State.latchCtx_stays | with_reducible apply Stays.ite | with_reducible apply Stays.foldl | with_reducible exact (rfl : _ = _) | intro _)
    all_goals (try ((with_reducible apply Stays.lit); (case h1 => exact rfl)))
    all_goals (try split))

theorem State.declareCtx_stays {s₀ : State} (s : State) (c : CtxId) (ks : List FClass) (hk : Stays s₀ s) : Stays s₀ (State.declareCtx s c ks) := by
  unfold State.declareCtx
  iterate 5 (
    repeat (first | with_reducible assumption | with_reducible apply State.actCtx_stays | with_reducible apply State.declareFlag_stays | with_reducible apply Stays.ite | with_reducible apply Stays.foldl | with_reducible exact (rfl : _ = _) | intro _)
    all_goals (try ((with_reducible apply Stays.lit); (case h1 => exact rfl)))
    all_goals (try split))

theorem State.declareChan_stays {s₀ : State} (s : State) (c : CtxId) (k : FClass) (hk : Stays s₀ s) : Stays s₀ (State.declareChan s c k) := by
  unfold State.declareChan
  iterate 5 (
    repeat (first | with_reducible assumption | with_reducible apply State.setLast_stays | with_reducible apply State.declareFlag_stays | with_reducible apply State.safeTrigger_stays | with_reducible apply State.tryRelease_stays | with_reducible apply State.chanFault_stays | with_reducible apply State.modChan_stays | with_reducible apply State.modCtx_stays | with_reducible apply Stays.ite | with_reducible apply Stays.foldl | with_reducible exact (rfl : _ = _) | intro _)
    all_goals (try ((with_reducible apply Stays.lit); (case h1 => exact rfl)))
    all_goals (try dsimp only)
    all_goals (try split))

theorem State.imonFault_stays {s₀ : State} (s : State) (p : PhaseId) (hk : Stays s₀ s) : Stays s₀ (State.imonFault s p) := by
  unfold State.imonFault
  iterate 5 (
    repeat (first | with_reducible assumption | with_reducible apply State.declareCtx_stays | with_reducible apply State.modPh_stays | with_reducible apply State.modCtx_stays | with_reducible apply Stays.ite | with_reducible apply Stays.foldl | with_reducible exact (rfl : _ = _) | intro _))

theorem State.releasedEvent_stays {s₀ : State} (s : State) (c : CtxId) (k : FClass) (hk : Stays s₀ s) : Stays s₀ (State.releasedEvent s c k) := by
  unfold State.releasedEvent
  iterate 5 (
    repeat (first | with_reducible assumption | with_reducible apply State.event_stays | with_reducible apply Stays.ite | with_reducible apply Stays.foldl | with_reducible exact (rfl : _ = _) | intro _))

theorem State.calEnd_stays {s₀ : State} (s : State) (code : Nat) (hk : Stays s₀ s) : Stays s₀ (State.calEnd s code) := by
  unfold State.calEnd
  iterate 5 (
    repeat (first | with_reducible assumption | with_reducible apply State.event_stays | with_reducible apply Stays.ite | with_reducible apply Stays.foldl | with_reducible exact (rfl : _ = _) | intro _)
    all_goals (try ((with_reducible apply Stays.lit); (case h1 => exact rfl)))
    repeat (first | with_reducible assumption | with_reducible apply State.event_stays | with_reducible apply Stays.ite | with_reducible apply Stays.foldl | with_reducible exact (rfl : _ = _) | intro _))

theorem State.calSample_stays {s₀ : State} (s : State) (t : CalTarget) (code : Int) (hk : Stays s₀ s) : Stays s₀ (State.calSample s t code) := by
  unfold State.calSample
  iterate 5 (
    repeat (first | with_reducible assumption | with_reducible apply State.calEnd_stays | with_reducible apply Stays.ite | with_reducible apply Stays.foldl | with_reducible exact (rfl : _ = _) | intro _)
    all_goals (try ((with_reducible apply Stays.lit); (case h1 => exact rfl)))
    repeat (first | with_reducible assumption | with_reducible apply State.calEnd_stays | with_reducible apply Stays.ite | with_reducible apply Stays.foldl | with_reducible exact (rfl : _ = _) | intro _))

theorem State.loseElig_stays {s₀ : State} (s : State) (h : HalfId) (f : HalfS → HalfS) (hk : Stays s₀ s) : Stays s₀ (State.loseElig s h f) := by
  unfold State.loseElig
  iterate 5 (
    repeat (first | with_reducible assumption | with_reducible apply State.modHs_stays | with_reducible apply Stays.ite | with_reducible apply Stays.foldl | with_reducible exact (rfl : _ = _) | intro _))

theorem State.retire_stays {s₀ : State} (s : State) (h : HalfId) (hk : Stays s₀ s) : Stays s₀ (State.retire s h) := by
  unfold State.retire
  iterate 5 (
    repeat (first | with_reducible assumption | with_reducible apply State.loseElig_stays | with_reducible apply State.summary_stays | with_reducible apply State.event_stays | with_reducible apply Stays.ite | with_reducible apply Stays.foldl | with_reducible exact (rfl : _ = _) | intro _))

theorem State.attribError_stays {s₀ : State} (s : State) (h : HalfId) (f : HalfS → HalfS) (hk : Stays s₀ s) : Stays s₀ (State.attribError s h f) := by
  unfold State.attribError
  iterate 5 (
    repeat (first | with_reducible assumption | with_reducible apply State.retire_stays | with_reducible apply State.loseElig_stays | with_reducible apply Stays.ite | with_reducible apply Stays.foldl | with_reducible exact (rfl : _ = _) | intro _))

theorem State.residueError_stays {s₀ : State} (s : State) (h : HalfId) (c : CtxId) (hk : Stays s₀ s) : Stays s₀ (State.residueError s h c) := by
  unfold State.residueError
  iterate 5 (
    repeat (first | with_reducible assumption | with_reducible apply State.attribError_stays | with_reducible apply State.setLast_stays | with_reducible apply State.declareFlag_stays | with_reducible apply Stays.ite | with_reducible apply Stays.foldl | with_reducible exact (rfl : _ = _) | intro _))

theorem State.signalResidue_stays {s₀ : State} (t s : State) (c : CtxId) (hk : Stays s₀ s) : Stays s₀ (State.signalResidue t s c) := by
  have k1 : Stays s₀ (if t.east.cell[c].residueErrors < s.east.cell[c].residueErrors then s.residueError .east c else s) :=
    Stays.ite (State.residueError_stays _ _ _ hk) hk
  exact Stays.ite (State.residueError_stays _ _ _ k1) k1

theorem State.countCorr_stays {s₀ : State} (s : State) (h : HalfId) (c : CtxId) (hk : Stays s₀ s) : Stays s₀ (State.countCorr s h c) := by
  unfold State.countCorr
  iterate 5 (
    repeat (first | with_reducible assumption | with_reducible apply State.modHs_stays | with_reducible apply State.modCtx_stays | with_reducible apply Stays.ite | with_reducible apply Stays.foldl | with_reducible exact (rfl : _ = _) | intro _))

theorem State.bcast_stays {s₀ : State} (s : State) (c : CtxId) (e : BcastErr) (hk : Stays s₀ s) : Stays s₀ (State.bcast s c e) := by
  have k1 : Stays s₀ (if e.east = .single then s.countCorr .east c else s) := Stays.ite (State.countCorr_stays s _ _ hk) hk
  unfold State.bcast
  extract_lets s1 s2
  have k2 : Stays s₀ s2 := Stays.ite (State.countCorr_stays s1 _ _ k1) k1
  clear_value s2
  split
  · exact State.summaryFree_stays _ _ _ (k2.same rfl)
  · exact State.residueError_stays _ _ _ k2
  · exact State.residueError_stays _ _ _ k2
  · exact k2

theorem State.toPorts_stays {s₀ : State} (s : State) (c : CtxId) (e : BcastErr) (f : Cell → Cell) (hk : Stays s₀ s) : Stays s₀ (State.toPorts s c e f) := by
  unfold State.toPorts
  iterate 5 (
    all_goals (try ((with_reducible apply Stays.lit); (case h1 => exact rfl)))
    repeat (first | with_reducible assumption | with_reducible apply Stays.ite | with_reducible apply Stays.foldl | with_reducible exact (rfl : _ = _) | intro _))

theorem State.keepStopped_stays {s₀ : State} (before s : State) (hk : Stays s₀ s) : Stays s₀ (State.keepStopped before s) := by
  unfold State.keepStopped
  dsimp only
  split <;> split <;> exact hk.same rfl

theorem State.capRead_stays {s₀ : State} (s : State) (c : CtxId) (a : Nat) (hk : Stays s₀ s) : Stays s₀ (State.capRead s c a).1 := by
  unfold State.capRead
  iterate 5 (
    repeat (first | with_reducible assumption | with_reducible apply State.modCtx_stays | with_reducible apply Stays.ite | with_reducible apply Stays.foldl | with_reducible exact (rfl : _ = _) | intro _)
    all_goals (try ((with_reducible apply Stays.lit); (case h1 => exact rfl)))
    all_goals (try dsimp only)
    all_goals (try split))

theorem State.capReads_stays {s₀ : State} (s : State) (c : CtxId) (l : List Nat) (hk : Stays s₀ s) : Stays s₀ (State.capReads s c l).1 := by
  induction l generalizing s with
  | nil => exact hk
  | cons a l ih => exact ih _ (State.capRead_stays s c a hk)

theorem State.storeTo_stays {s₀ : State} (s : State) (x : Store) (hk : Stays s₀ s) : Stays s₀ (State.storeTo s x) := by
  unfold State.storeTo
  iterate 5 (
    repeat (first | with_reducible assumption | with_reducible apply State.summary_stays | with_reducible apply State.event_stays | with_reducible apply Stays.ite | with_reducible apply Stays.foldl | with_reducible exact (rfl : _ = _) | intro _)
    all_goals (try ((with_reducible apply Stays.lit); (case h1 => exact rfl)))
    repeat (first | with_reducible assumption | with_reducible apply State.summary_stays | with_reducible apply State.event_stays | with_reducible apply Stays.ite | with_reducible apply Stays.foldl | with_reducible exact (rfl : _ = _) | intro _))

theorem State.reclaim_stays {s₀ : State} (s : State) (a : Area) (hk : Stays s₀ s) : Stays s₀ (State.reclaim s a) := by
  unfold State.reclaim
  iterate 5 (
    repeat (first | with_reducible assumption | with_reducible apply State.storeTo_stays | with_reducible apply Stays.ite | with_reducible apply Stays.foldl | with_reducible exact (rfl : _ = _) | intro _))

theorem State.makeRoom_stays {s₀ : State} (s : State) (a : Area) (hk : Stays s₀ s) : Stays s₀ (State.makeRoom s a) := by
  unfold State.makeRoom
  iterate 5 (
    repeat (first | with_reducible assumption | with_reducible apply State.storeTo_stays | with_reducible apply Stays.ite | with_reducible apply Stays.foldl | with_reducible exact (rfl : _ = _) | intro _))

theorem State.eraseAhead_stays {s₀ : State} (s : State) (a : Area) (n : Nat) (hk : Stays s₀ s) : Stays s₀ (State.eraseAhead s a n) := by
  unfold State.eraseAhead
  iterate 5 (
    repeat (first | with_reducible assumption | with_reducible apply State.storeTo_stays | with_reducible apply Stays.ite | with_reducible apply Stays.foldl | with_reducible exact (rfl : _ = _) | intro _))

theorem State.putRecord_stays {s₀ : State} (s : State) (a : Area) (typ ident len : Nat) (payload : List Byte) (hk : Stays s₀ s) : Stays s₀ (State.putRecord s a typ ident len payload) := by
  unfold State.putRecord
  iterate 5 (
    repeat (first | with_reducible assumption | with_reducible apply State.makeRoom_stays | with_reducible apply State.storeTo_stays | with_reducible apply Stays.ite | with_reducible apply Stays.foldl | with_reducible exact (rfl : _ = _) | intro _))

theorem State.putBp_stays {s₀ : State} (s : State) (hk : Stays s₀ s) : Stays s₀ (State.putBp s) := by
  unfold State.putBp
  iterate 5 (
    repeat (first | with_reducible assumption | with_reducible apply State.putRecord_stays | with_reducible apply Stays.ite | with_reducible apply Stays.foldl | with_reducible exact (rfl : _ = _) | intro _))

theorem State.ringWords_stays {s₀ : State} (s : State) (c : CtxId) (k : Nat) (hk : Stays s₀ s) : Stays s₀ (State.ringWords s c k).1 :=
  State.capReads_stays _ _ _ hk

theorem State.snapshotPayload_stays {s₀ : State} (s : State) (c : CtxId) (k : Nat) (hk : Stays s₀ s) : Stays s₀ (State.snapshotPayload s c k).1 := by
  have h := State.ringWords_stays s c k hk
  delta State.snapshotPayload
  dsimp only
  exact h

theorem State.cairnPut_stays {s₀ : State} (s : State) (typ ident len : Nat) (payload : List Byte) (hk : Stays s₀ s) :
    Stays s₀ (State.cairnPut s typ ident len payload) := by
  unfold State.cairnPut
  exact (State.storeTo_stays _ _ hk).same rfl

theorem State.respond_stays {s₀ : State} (s : State) (r : Req) (answer detail : Nat) (data : List Word) (hk : Stays s₀ s) :
    Stays s₀ (s.respond r answer detail data) := hk.same rfl

theorem State.cml_stays {s₀ : State} (s : State) (k : Nat) (hk : Stays s₀ s) : Stays s₀ (State.cml s k) := by
  unfold State.cml
  iterate 5 (
    all_goals (try ((with_reducible apply Stays.lit); (case h1 => exact rfl)))
    repeat (first | with_reducible assumption | with_reducible apply Stays.ite | with_reducible apply Stays.foldl | with_reducible exact (rfl : _ = _) | intro _))

theorem State.pmbRefuse_stays {s₀ : State} (s : State) (code answer : Nat) (hk : Stays s₀ s) : Stays s₀ (State.pmbRefuse s code answer) := by
  unfold State.pmbRefuse
  iterate 5 (
    all_goals (try ((with_reducible apply Stays.lit); (case h1 => exact rfl)))
    repeat (first | with_reducible assumption | with_reducible apply State.cml_stays | with_reducible apply Stays.ite | with_reducible apply Stays.foldl | with_reducible exact (rfl : _ = _) | intro _))

theorem State.interrupt_stays {s₀ : State} (s : State) (hk : Stays s₀ s) : Stays s₀ (State.interrupt s) := by
  unfold State.interrupt
  extract_lets l js x1 x2 s1 s2
  have k1 : Stays s₀ s1 := hk.same rfl
  have k2 : Stays s₀ s2 := Stays.foldl k1 (fun t j h => State.pmbRefuse_stays _ _ _ h) _
  clear_value s2
  exact Stays.foldl k2 (fun t r h => Stays.ite h (State.respond_stays _ _ _ _ _ h)) _

theorem State.tallySub_stays {s₀ : State} (s : State) (a : Fin 128) (v : Int) (hk : Stays s₀ s) : Stays s₀ (State.tallySub s a v) := by
  unfold State.tallySub
  iterate 5 (
    repeat (first | with_reducible assumption | with_reducible apply State.halves_stays | with_reducible apply State.modCtx_stays | with_reducible apply Stays.ite | with_reducible apply Stays.foldl | with_reducible exact (rfl : _ = _) | intro _))

theorem State.takeCounts_stays {s₀ : State} (s : State) (hk : Stays s₀ s) : Stays s₀ (State.takeCounts s) := by
  unfold State.takeCounts
  iterate 5 (
    all_goals (try ((with_reducible apply Stays.lit); (case h1 => exact rfl)))
    repeat (first | with_reducible assumption | with_reducible apply State.halves_stays | with_reducible apply Stays.ite | with_reducible apply Stays.foldl | with_reducible exact (rfl : _ = _) | intro _))

theorem State.queueEntries_stays {s₀ : State} (s : State) (hk : Stays s₀ s) : Stays s₀ (State.queueEntries s) := by
  unfold State.queueEntries
  iterate 5 (
    all_goals (try ((with_reducible apply Stays.lit); (case h1 => exact rfl)))
    repeat (first | with_reducible assumption | with_reducible apply Stays.ite | with_reducible apply Stays.foldl | with_reducible exact (rfl : _ = _) | intro _))

theorem State.await_stays {s₀ : State} (s : State) (r : Routine) (hk : Stays s₀ s) : Stays s₀ (State.await s r) := by
  unfold State.await
  iterate 5 (
    all_goals (try ((with_reducible apply Stays.lit); (case h1 => exact rfl)))
    repeat (first | with_reducible assumption | with_reducible apply Stays.ite | with_reducible apply Stays.foldl | with_reducible exact (rfl : _ = _) | intro _))

theorem State.take_stays {s₀ : State} (s : State) (hk : Stays s₀ s) : Stays s₀ (State.take s) := by
  unfold State.take
  iterate 5 (
    repeat (first | with_reducible assumption | with_reducible apply State.await_stays | with_reducible apply State.takeCounts_stays | with_reducible apply Stays.ite | with_reducible apply Stays.foldl | with_reducible exact (rfl : _ = _) | intro _))

theorem State.programEntry_stays {s₀ : State} (s : State) (a : Fin 128) (hk : Stays s₀ s) : Stays s₀ (s.programEntry a) := by
  unfold State.programEntry
  extract_lets v b more l1 s1 s2
  have k1 : Stays s₀ s1 := hk.same rfl
  have k2 : Stays s₀ s2 := Stays.ite (State.modCtx_stays _ _ _ k1) k1
  split
  · exact hk
  · exact State.commit_stays _ _ _ (Stays.ite k2 (State.modCtx_stays _ _ _ k2))

theorem State.workDone_stays {s₀ : State} (s : State) (hk : Stays s₀ s) : Stays s₀ (State.workDone s) := by
  unfold State.workDone
  iterate 5 (
    all_goals (try ((with_reducible apply Stays.lit); (case h1 => exact rfl)))
    repeat (first | with_reducible assumption | with_reducible apply Stays.ite | with_reducible apply Stays.foldl | with_reducible exact (rfl : _ = _) | intro _))

theorem State.tallyRoom_stays {s₀ : State} (s : State) (hk : Stays s₀ s) : Stays s₀ (State.tallyRoom s) := by
  unfold State.tallyRoom
  iterate 5 (
    repeat (first | with_reducible assumption | with_reducible apply State.storeTo_stays | with_reducible apply State.retire_stays | with_reducible apply Stays.ite | with_reducible apply Stays.foldl | with_reducible exact (rfl : _ = _) | intro _))

theorem State.consolidate_stays {s₀ : State} (s : State) (hk : Stays s₀ s) : Stays s₀ s.consolidate :=
  Stays.foldl (Stays.foldl hk (fun _ _ h => State.putRecord_stays _ _ _ _ _ _ h) _)
    (fun _ _ h => Stays.ite (State.storeTo_stays _ _ h) h) _

theorem State.openItem_stays {s₀ : State} (s : State) (kind field run : Nat) (raw : List Byte) (lost : Nat) (hk : Stays s₀ s) :
    Stays s₀ (s.openItem kind field run raw lost) := by
  unfold State.openItem
  extract_lets b l1 s1
  have k1 : Stays s₀ s1 := by
    unfold s1
    split <;> exact hk.same rfl
  clear_value s1
  split
  · exact State.event_stays _ _ _ _ _ (State.putRecord_stays _ _ _ _ _ _ (k1.same rfl))
  · exact State.request_stays _ _ (k1.same rfl)

theorem State.recordDone_stays {s₀ : State} (s : State) (typ ident : Nat) (b : List Byte) (hk : Stays s₀ s) :
    Stays s₀ (s.recordDone typ ident b) := by
  unfold State.recordDone
  split
  · split
    · exact State.modCtx_stays _ _ _ hk
    · exact hk
  · split
    · extract_lets k raw acc cls v tseq s1
      split
      ·
        have k1 : Stays s₀ s1 := State.tallyRoom_stays _ (Stays.ite (State.consolidate_stays _ hk) hk)
        clear_value s1
        exact State.modCtx_stays _ _ _ (k1.same rfl)
      · exact hk.same rfl
    · exact hk
  · split
    · exact hk.same rfl
    · exact hk
  · exact hk

theorem State.startHost_stays {s₀ : State} (s : State) (recs : List (Nat × Nat × List Byte)) (reply : Option Req) (hk : Stays s₀ s) : Stays s₀ (State.startHost s recs reply) := by
  unfold State.startHost
  iterate 5 (
    all_goals (try ((with_reducible apply Stays.lit); (case h1 => exact rfl)))
    repeat (first | with_reducible assumption | with_reducible apply Stays.ite | with_reducible apply Stays.foldl | with_reducible exact (rfl : _ = _) | intro _))

theorem State.resolve_stays {s₀ : State} (s : State) (w : Word) (reply : Option Req) (hk : Stays s₀ s) : Stays s₀ (State.resolve s w reply) := by
  unfold State.resolve
  iterate 5 (
    all_goals (try ((with_reducible apply Stays.lit); (case h1 => exact rfl)))
    repeat (first | with_reducible assumption | with_reducible apply State.commit_stays | with_reducible apply Stays.ite | with_reducible apply Stays.foldl | with_reducible exact (rfl : _ = _) | intro _)
    all_goals (try dsimp only)
    all_goals (try split))

theorem State.resolveApply_stays {s₀ : State} (s : State) (it : Fin 32) (add : Bool) (hk : Stays s₀ s) : Stays s₀ (State.resolveApply s it add) := by
  unfold State.resolveApply
  iterate 5 (
    repeat (first | with_reducible assumption | with_reducible apply State.request_stays | with_reducible apply Stays.ite | with_reducible apply Stays.foldl | with_reducible exact (rfl : _ = _) | intro _)
    all_goals (try ((with_reducible apply Stays.lit); (case h1 => exact rfl)))
    repeat (first | with_reducible assumption | with_reducible apply State.request_stays | with_reducible apply Stays.ite | with_reducible apply Stays.foldl | with_reducible exact (rfl : _ = _) | intro _)
    all_goals (try dsimp only)
    all_goals (try split))

theorem State.freeItem_stays {s₀ : State} (s : State) (it : Fin 32) (hk : Stays s₀ s) : Stays s₀ (State.freeItem s it) := by
  unfold State.freeItem
  iterate 5 (
    all_goals (try ((with_reducible apply Stays.lit); (case h1 => exact rfl)))
    repeat (first | with_reducible assumption | with_reducible apply Stays.ite | with_reducible apply Stays.foldl | with_reducible exact (rfl : _ = _) | intro _)
    all_goals (try dsimp only)
    all_goals (try split))

theorem State.markClr_stays {s₀ : State} (s : State) (w : Word) (reply : Option Req) (hk : Stays s₀ s) : Stays s₀ (State.markClr s w reply) := by
  unfold State.markClr
  iterate 5 (
    repeat (first | with_reducible assumption | with_reducible apply State.startHost_stays | with_reducible apply Stays.ite | with_reducible apply Stays.foldl | with_reducible exact (rfl : _ = _) | intro _)
    all_goals (try ((with_reducible apply Stays.lit); (case h1 => exact rfl)))
    repeat (first | with_reducible assumption | with_reducible apply State.startHost_stays | with_reducible apply Stays.ite | with_reducible apply Stays.foldl | with_reducible exact (rfl : _ = _) | intro _))

theorem State.setNew_stays {s₀ : State} (s : State) (c : CtxId) (p : CP) (v : Int) (hk : Stays s₀ s) : Stays s₀ (State.setNew s c p v) := by
  unfold State.setNew
  iterate 5 (
    repeat (first | with_reducible assumption | with_reducible apply State.modCtx_stays | with_reducible apply Stays.ite | with_reducible apply Stays.foldl | with_reducible exact (rfl : _ = _) | intro _))

theorem State.setPhNew_stays {s₀ : State} (s : State) (p : PhaseId) (e : PP) (v : Int) (hk : Stays s₀ s) : Stays s₀ (State.setPhNew s p e v) := by
  unfold State.setPhNew
  iterate 5 (
    repeat (first | with_reducible assumption | with_reducible apply State.modPh_stays | with_reducible apply Stays.ite | with_reducible apply Stays.foldl | with_reducible exact (rfl : _ = _) | intro _))

theorem State.setGlobNew_stays {s₀ : State} (s : State) (g : GP) (v : Int) (hk : Stays s₀ s) : Stays s₀ (State.setGlobNew s g v) := by
  unfold State.setGlobNew
  iterate 5 (
    all_goals (try ((with_reducible apply Stays.lit); (case h1 => exact rfl)))
    repeat (first | with_reducible assumption | with_reducible apply Stays.ite | with_reducible apply Stays.foldl | with_reducible exact (rfl : _ = _) | intro _))

theorem State.acceptCtx_stays {s₀ : State} (s : State) (c : CtxId) (p : CP) (w : Word) (hk : Stays s₀ s) : Stays s₀ (State.acceptCtx s c p w) := by
  unfold State.acceptCtx
  iterate 5 (
    repeat (first | with_reducible assumption | with_reducible apply State.setNew_stays | with_reducible apply State.commit_stays | with_reducible apply Stays.ite | with_reducible apply Stays.foldl | with_reducible exact (rfl : _ = _) | intro _))

theorem State.acceptGlob_stays {s₀ : State} (s : State) (g : GP) (v : Int) (hk : Stays s₀ s) : Stays s₀ (State.acceptGlob s g v) := by
  unfold State.acceptGlob
  iterate 5 (
    repeat (first | with_reducible assumption | with_reducible apply State.setGlobNew_stays | with_reducible apply State.commit_stays | with_reducible apply Stays.ite | with_reducible apply Stays.foldl | with_reducible exact (rfl : _ = _) | intro _)
    all_goals (try ((with_reducible apply Stays.lit); (case h1 => exact rfl)))
    all_goals (try split))

theorem State.acceptLaw_stays {s₀ : State} (s : State) (c : CtxId) (w : Word) (hk : Stays s₀ s) : Stays s₀ (State.acceptLaw s c w) := by
  unfold State.acceptLaw
  iterate 5 (
    repeat (first | with_reducible assumption | with_reducible apply State.commit_stays | with_reducible apply State.modCtx_stays | with_reducible apply Stays.ite | with_reducible apply Stays.foldl | with_reducible exact (rfl : _ = _) | intro _))

theorem State.acceptCReg_stays {s₀ : State} (s : State) (i : Iface) (c : CtxId) (r : CReg) (w : Word) (hk : Stays s₀ s) : Stays s₀ (State.acceptCReg s i c r w) := by
  unfold State.acceptCReg
  iterate 5 (
    repeat (first | with_reducible assumption | with_reducible apply State.acceptLaw_stays | with_reducible apply State.w1cCtx_stays | with_reducible apply State.commit_stays | with_reducible apply State.modCtx_stays | with_reducible apply Stays.ite | with_reducible apply Stays.foldl | with_reducible exact (rfl : _ = _) | intro _)
    all_goals (try ((with_reducible apply Stays.lit); (case h1 => exact rfl)))
    all_goals (try split))

theorem State.calAsk_stays {s₀ : State} (s : State) (w : Word) (hk : Stays s₀ s) : Stays s₀ (State.calAsk s w) := by
  unfold State.calAsk
  iterate 5 (
    repeat (first | with_reducible assumption | with_reducible apply State.calEnd_stays | with_reducible apply State.commit_stays | with_reducible apply Stays.ite | with_reducible apply Stays.foldl | with_reducible exact (rfl : _ = _) | intro _)
    all_goals (try ((with_reducible apply Stays.lit); (case h1 => exact rfl)))
    repeat (first | with_reducible assumption | with_reducible apply State.calEnd_stays | with_reducible apply State.commit_stays | with_reducible apply Stays.ite | with_reducible apply Stays.foldl | with_reducible exact (rfl : _ = _) | intro _)
    all_goals (try dsimp only)
    all_goals (try split))

theorem State.acceptRun_stays {s₀ : State} (s : State) (w : Word) (hk : Stays s₀ s) : Stays s₀ (State.acceptRun s w) := by
  unfold State.acceptRun
  iterate 5 (
    repeat (first | with_reducible assumption | with_reducible apply State.setGlobNew_stays | with_reducible apply State.commit_stays | with_reducible apply Stays.ite | with_reducible apply Stays.foldl | with_reducible exact (rfl : _ = _) | intro _))

theorem State.acceptGReg_stays {s₀ : State} (s : State) (r : GReg) (w : Word) (reply : Option Req) (hk : Stays s₀ s) : Stays s₀ (State.acceptGReg s r w reply) := by
  unfold State.acceptGReg
  iterate 5 (
    repeat (first | with_reducible assumption | with_reducible apply State.acceptRun_stays | with_reducible apply State.calAsk_stays | with_reducible apply State.setGlobNew_stays | with_reducible apply State.markClr_stays | with_reducible apply State.resolve_stays | with_reducible apply State.w1cGlob_stays | with_reducible apply State.commit_stays | with_reducible apply Stays.ite | with_reducible apply Stays.foldl | with_reducible exact (rfl : _ = _) | intro _)
    all_goals (try ((with_reducible apply Stays.lit); (case h1 => exact rfl)))
    repeat (first | with_reducible assumption | with_reducible apply State.acceptRun_stays | with_reducible apply State.calAsk_stays | with_reducible apply State.setGlobNew_stays | with_reducible apply State.markClr_stays | with_reducible apply State.resolve_stays | with_reducible apply State.w1cGlob_stays | with_reducible apply State.commit_stays | with_reducible apply Stays.ite | with_reducible apply Stays.foldl | with_reducible exact (rfl : _ = _) | intro _)
    all_goals (try dsimp only)
    all_goals (try split))

theorem State.accept_stays {s₀ : State} (s : State) (i : Iface) (x : Slot) (w : Word) (reply : Option Req) (hk : Stays s₀ s) : Stays s₀ (State.accept s i x w reply) := by
  unfold State.accept
  iterate 5 (
    repeat (first | with_reducible assumption | with_reducible apply State.acceptGReg_stays | with_reducible apply State.acceptCReg_stays | with_reducible apply State.acceptGlob_stays | with_reducible apply State.acceptCtx_stays | with_reducible apply State.setPhNew_stays | with_reducible apply State.commit_stays | with_reducible apply Stays.ite | with_reducible apply Stays.foldl | with_reducible exact (rfl : _ = _) | intro _)
    all_goals (try ((with_reducible apply Stays.lit); (case h1 => exact rfl)))
    all_goals (try split))

theorem State.writeIndex_stays {s₀ : State} (s : State) (i : Iface) (index : Nat) (w : Word) (reply : Option Req) (hk : Stays s₀ s) : Stays s₀ (State.writeIndex s i index w reply).1 := by
  unfold State.writeIndex
  iterate 5 (
    repeat (first | with_reducible assumption | with_reducible apply State.accept_stays | with_reducible apply Stays.ite | with_reducible apply Stays.foldl | with_reducible exact (rfl : _ = _) | intro _)
    all_goals (try ((with_reducible apply Stays.lit); (case h1 => exact rfl)))
    all_goals (try dsimp only)
    all_goals (try split))

theorem State.writeReg_stays {s₀ : State} (s : State) (i : Iface) (x : Slot) (w : Word) (hk : Stays s₀ s) : Stays s₀ (State.writeReg s i x w) := by
  unfold State.writeReg
  iterate 5 (
    repeat (first | with_reducible assumption | with_reducible apply State.accept_stays | with_reducible apply Stays.ite | with_reducible apply Stays.foldl | with_reducible exact (rfl : _ = _) | intro _)
    all_goals (try ((with_reducible apply Stays.lit); (case h1 => exact rfl)))
    repeat (first | with_reducible assumption | with_reducible apply State.accept_stays | with_reducible apply Stays.ite | with_reducible apply Stays.foldl | with_reducible exact (rfl : _ = _) | intro _))

theorem State.readEffect_stays {s₀ : State} (s : State) (i : Iface) (x : Slot) (hk : Stays s₀ s) : Stays s₀ (State.readEffect s i x) := by
  unfold State.readEffect
  iterate 5 (
    all_goals (try ((with_reducible apply Stays.lit); (case h1 => exact rfl)))
    repeat (first | with_reducible assumption | with_reducible apply Stays.ite | with_reducible apply Stays.foldl | with_reducible exact (rfl : _ = _) | intro _)
    all_goals (try split))

theorem State.readIndex_stays {s₀ : State} (s : State) (i : Iface) (index : Nat) (hk : Stays s₀ s) : Stays s₀ (State.readIndex s i index).1 := by
  unfold State.readIndex
  iterate 5 (
    repeat (first | with_reducible assumption | with_reducible apply State.readEffect_stays | with_reducible apply Stays.ite | with_reducible apply Stays.foldl | with_reducible exact (rfl : _ = _) | intro _)
    all_goals (try ((with_reducible apply Stays.lit); (case h1 => exact rfl)))
    all_goals (try split))

theorem State.latchLive_stays {s₀ : State} (s : State) (l : LivePins) (hk : Stays s₀ s) : Stays s₀ (State.latchLive s l) := by
  unfold State.latchLive
  iterate 5 (
    all_goals (try ((with_reducible apply Stays.lit); (case h1 => exact rfl)))
    repeat (first | with_reducible assumption | with_reducible apply Stays.ite | with_reducible apply Stays.foldl | with_reducible exact (rfl : _ = _) | intro _))

theorem State.setHolder_stays {s₀ : State} (s : State) (h : Option HalfId) (hk : Stays s₀ s) : Stays s₀ (State.setHolder s h) := by
  unfold State.setHolder
  iterate 5 (
    all_goals (try ((with_reducible apply Stays.lit); (case h1 => exact rfl)))
    repeat (first | with_reducible assumption | with_reducible apply Stays.ite | with_reducible apply Stays.foldl | with_reducible exact (rfl : _ = _) | intro _))

theorem State.arbVote_stays {s₀ : State} (s : State) (hk : Stays s₀ s) : Stays s₀ (State.arbVote s) := by
  unfold State.arbVote
  iterate 5 (
    repeat (first | with_reducible assumption | with_reducible apply State.setHolder_stays | with_reducible apply State.summaryFree_stays | with_reducible apply Stays.ite | with_reducible apply Stays.foldl | with_reducible exact (rfl : _ = _) | intro _)
    all_goals (try ((with_reducible apply Stays.lit); (case h1 => exact rfl)))
    repeat (first | with_reducible assumption | with_reducible apply State.setHolder_stays | with_reducible apply State.summaryFree_stays | with_reducible apply Stays.ite | with_reducible apply Stays.foldl | with_reducible exact (rfl : _ = _) | intro _))

theorem State.endRelease_stays {s₀ : State} (s : State) (hk : Stays s₀ s) : Stays s₀ (State.endRelease s) := by
  unfold State.endRelease
  iterate 5 (
    all_goals (try ((with_reducible apply Stays.lit); (case h1 => exact rfl)))
    repeat (first | with_reducible assumption | with_reducible apply Stays.ite | with_reducible apply Stays.foldl | with_reducible exact (rfl : _ = _) | intro _))

theorem State.moveSummit_stays {s₀ : State} (s : State) (h : HalfId) (hk : Stays s₀ s) : Stays s₀ (State.moveSummit s h) := by
  unfold State.moveSummit
  iterate 5 (
    repeat (first | with_reducible assumption | with_reducible apply State.endRelease_stays | with_reducible apply State.setHolder_stays | with_reducible apply State.interrupt_stays | with_reducible apply State.modHs_stays | with_reducible apply Stays.ite | with_reducible apply Stays.foldl | with_reducible exact (rfl : _ = _) | intro _))

theorem State.refuseRelease_stays {s₀ : State} (s : State) (h : HalfId) (hk : Stays s₀ s) : Stays s₀ (State.refuseRelease s h) := by
  unfold State.refuseRelease
  iterate 5 (
    all_goals (try ((with_reducible apply Stays.lit); (case h1 => exact rfl)))
    repeat (first | with_reducible assumption | with_reducible apply State.endRelease_stays | with_reducible apply State.modHs_stays | with_reducible apply Stays.ite | with_reducible apply Stays.foldl | with_reducible exact (rfl : _ = _) | intro _))

theorem State.requestRelease_stays {s₀ : State} (s : State) (h : HalfId) (hk : Stays s₀ s) : Stays s₀ (State.requestRelease s h) := by
  unfold State.requestRelease
  iterate 5 (
    repeat (first | with_reducible assumption | with_reducible apply State.refuseRelease_stays | with_reducible apply State.takeRelease_stays | with_reducible apply Stays.ite | with_reducible apply Stays.foldl | with_reducible exact (rfl : _ = _) | intro _))

theorem State.noHalf_stays {s₀ : State} (s : State) (hk : Stays s₀ s) : Stays s₀ (State.noHalf s) := by
  unfold State.noHalf
  iterate 5 (
    repeat (first | with_reducible assumption | with_reducible apply State.endRelease_stays | with_reducible apply State.setHolder_stays | with_reducible apply State.safeTrigger_stays | with_reducible apply State.modHs_stays | with_reducible apply Stays.ite | with_reducible apply Stays.foldl | with_reducible exact (rfl : _ = _) | intro _)
    all_goals (try ((with_reducible apply Stays.lit); (case h1 => exact rfl)))
    repeat (first | with_reducible assumption | with_reducible apply State.endRelease_stays | with_reducible apply State.setHolder_stays | with_reducible apply State.safeTrigger_stays | with_reducible apply State.modHs_stays | with_reducible apply Stays.ite | with_reducible apply Stays.foldl | with_reducible exact (rfl : _ = _) | intro _))

theorem State.failover_stays {s₀ : State} (s : State) (h : HalfId) (hk : Stays s₀ s) : Stays s₀ (State.failover s h) := by
  unfold State.failover
  iterate 5 (
    repeat (first | with_reducible assumption | with_reducible apply State.noHalf_stays | with_reducible apply State.moveSummit_stays | with_reducible apply State.summary_stays | with_reducible apply State.event_stays | with_reducible apply Stays.ite | with_reducible apply Stays.foldl | with_reducible exact (rfl : _ = _) | intro _)
    all_goals (try ((with_reducible apply Stays.lit); (case h1 => exact rfl)))
    repeat (first | with_reducible assumption | with_reducible apply State.noHalf_stays | with_reducible apply State.moveSummit_stays | with_reducible apply State.summary_stays | with_reducible apply State.event_stays | with_reducible apply Stays.ite | with_reducible apply Stays.foldl | with_reducible exact (rfl : _ = _) | intro _))

theorem State.firstHolder_stays {s₀ : State} (s : State) (hk : Stays s₀ s) : Stays s₀ (State.firstHolder s) := by
  unfold State.firstHolder
  iterate 5 (
    repeat (first | with_reducible assumption | with_reducible apply State.noHalf_stays | with_reducible apply State.setHolder_stays | with_reducible apply State.interrupt_stays | with_reducible apply Stays.ite | with_reducible apply Stays.foldl | with_reducible exact (rfl : _ = _) | intro _))

theorem State.requalify_stays {s₀ : State} (s : State) (east west : Bool) (hk : Stays s₀ s) : Stays s₀ (State.requalify s east west) := by
  unfold State.requalify
  iterate 5 (
    all_goals (try ((with_reducible apply Stays.lit); (case h1 => exact rfl)))
    repeat (first | with_reducible assumption | with_reducible apply State.firstHolder_stays | with_reducible apply State.modHs_stays | with_reducible apply State.halves_stays | with_reducible apply Stays.ite | with_reducible apply Stays.foldl | with_reducible exact (rfl : _ = _) | intro _))

theorem State.copyHalf_stays {s₀ : State} (s : State) (h : HalfId) (hk : Stays s₀ s) : Stays s₀ (State.copyHalf s h) := by
  unfold State.copyHalf
  iterate 5 (
    repeat (first | with_reducible assumption | with_reducible apply State.modHs_stays | with_reducible apply State.setHalf_stays | with_reducible apply Stays.ite | with_reducible apply Stays.foldl | with_reducible exact (rfl : _ = _) | intro _)
    all_goals (try ((with_reducible apply Stays.lit); (case h1 => exact rfl)))
    repeat (first | with_reducible assumption | with_reducible apply State.modHs_stays | with_reducible apply State.setHalf_stays | with_reducible apply Stays.ite | with_reducible apply Stays.foldl | with_reducible exact (rfl : _ = _) | intro _))

theorem State.forceTargets_stays {s₀ : State} (s : State) (c : CtxId) (hk : Stays s₀ s) : Stays s₀ (State.forceTargets s c) := by
  unfold State.forceTargets
  iterate 5 (
    all_goals (try ((with_reducible apply Stays.lit); (case h1 => exact rfl)))
    repeat (first | with_reducible assumption | with_reducible apply Stays.ite | with_reducible apply Stays.foldl | with_reducible exact (rfl : _ = _) | intro _))

theorem State.assertGroup_stays {s₀ : State} (s : State) (c : CtxId) (hk : Stays s₀ s) : Stays s₀ (State.assertGroup s c) := by
  unfold State.assertGroup
  iterate 5 (
    repeat (first | with_reducible assumption | with_reducible apply State.forceTargets_stays | with_reducible apply State.modCtx_stays | with_reducible apply Stays.ite | with_reducible apply Stays.foldl | with_reducible exact (rfl : _ = _) | intro _))

theorem State.deassertGroup_stays {s₀ : State} (s : State) (c : CtxId) (hk : Stays s₀ s) : Stays s₀ (State.deassertGroup s c) := by
  unfold State.deassertGroup
  iterate 5 (
    repeat (first | with_reducible assumption | with_reducible apply State.modCtx_stays | with_reducible apply Stays.ite | with_reducible apply Stays.foldl | with_reducible exact (rfl : _ = _) | intro _))

theorem State.followGroup_stays {s₀ : State} (s : State) (c : CtxId) (hk : Stays s₀ s) : Stays s₀ (State.followGroup s c) := by
  unfold State.followGroup
  iterate 5 (
    repeat (first | with_reducible assumption | with_reducible apply State.deassertGroup_stays | with_reducible apply State.assertGroup_stays | with_reducible apply State.modCtx_stays | with_reducible apply Stays.ite | with_reducible apply Stays.foldl | with_reducible exact (rfl : _ = _) | intro _))

theorem State.followGroups_stays {s₀ : State} (s : State) (hk : Stays s₀ s) : Stays s₀ (State.followGroups s) := by
  unfold State.followGroups
  iterate 5 (
    repeat (first | with_reducible assumption | with_reducible apply State.followGroup_stays | with_reducible apply Stays.ite | with_reducible apply Stays.foldl | with_reducible exact (rfl : _ = _) | intro _))

theorem State.cragConfig_stays {s₀ : State} (s : State) (hk : Stays s₀ s) : Stays s₀ (State.cragConfig s) := by
  unfold State.cragConfig
  iterate 5 (
    repeat (first | with_reducible assumption | with_reducible apply State.followGroups_stays | with_reducible apply Stays.ite | with_reducible apply Stays.foldl | with_reducible exact (rfl : _ = _) | intro _)
    all_goals (try ((with_reducible apply Stays.lit); (case h1 => exact rfl)))
    repeat (first | with_reducible assumption | with_reducible apply State.followGroups_stays | with_reducible apply Stays.ite | with_reducible apply Stays.foldl | with_reducible exact (rfl : _ = _) | intro _))

theorem State.settle_stays {s₀ : State} (s : State) (ps : List PhaseId) (hk : Stays s₀ s) : Stays s₀ (State.settle s ps) := by
  unfold State.settle
  iterate 5 (
    repeat (first | with_reducible assumption | with_reducible apply State.halves_stays | with_reducible apply Stays.ite | with_reducible apply Stays.foldl | with_reducible exact (rfl : _ = _) | intro _))

theorem State.phaseCounts_stays {s₀ : State} (s : State) (code : BitVec 10) (irefBad : Bool) (p : PhaseId) (hk : Stays s₀ s) : Stays s₀ (State.phaseCounts s code irefBad p) := by
  unfold State.phaseCounts
  iterate 5 (
    repeat (first | with_reducible assumption | with_reducible apply State.calSample_stays | with_reducible apply State.imonFault_stays | with_reducible apply State.halves_stays | with_reducible apply State.modPh_stays | with_reducible apply State.modCtx_stays | with_reducible apply Stays.ite | with_reducible apply Stays.foldl | with_reducible exact (rfl : _ = _) | intro _))

theorem State.phaseWord_stays {s₀ : State} (s : State) (code : BitVec 10) (irefBad : Bool) (e : BcastErr) (p : PhaseId) (hk : Stays s₀ s) : Stays s₀ (State.phaseWord s code irefBad e p) := by
  unfold State.phaseWord
  iterate 5 (
    repeat (first | with_reducible assumption | with_reducible apply State.phaseCounts_stays | with_reducible apply Stays.ite | with_reducible apply Stays.foldl | with_reducible exact (rfl : _ = _) | intro _)
    all_goals (try ((with_reducible apply Stays.lit); (case h1 => exact rfl)))
    repeat (first | with_reducible assumption | with_reducible apply State.phaseCounts_stays | with_reducible apply Stays.ite | with_reducible apply Stays.foldl | with_reducible exact (rfl : _ = _) | intro _))

theorem State.holdWords_stays {s₀ : State} (s : State) (c : CtxId) (hk : Stays s₀ s) : Stays s₀ (State.holdWords s c) := by
  unfold State.holdWords
  iterate 5 (
    repeat (first | with_reducible assumption | with_reducible apply State.halves_stays | with_reducible apply Stays.ite | with_reducible apply Stays.foldl | with_reducible exact (rfl : _ = _) | intro _))

theorem State.followStart_stays {s₀ : State} (s : State) (p : PhaseId) (hk : Stays s₀ s) : Stays s₀ (State.followStart s p) := by
  unfold State.followStart
  iterate 5 (
    repeat (first | with_reducible assumption | with_reducible apply State.modPh_stays | with_reducible apply Stays.ite | with_reducible apply Stays.foldl | with_reducible exact (rfl : _ = _) | intro _)
    all_goals (try ((with_reducible apply Stays.lit); (case h1 => exact rfl)))
    all_goals (try split))

theorem State.follow_stays {s₀ : State} (s : State) (hk : Stays s₀ s) : Stays s₀ (State.follow s) := by
  unfold State.follow
  iterate 5 (
    all_goals (try ((with_reducible apply Stays.lit); (case h1 => exact rfl)))
    repeat (first | with_reducible assumption | with_reducible apply Stays.ite | with_reducible apply Stays.foldl | with_reducible exact (rfl : _ = _) | intro _))

theorem State.innerOne_stays {s₀ : State} (s : State) (c : CtxId) (hk : Stays s₀ s) : Stays s₀ (State.innerOne s c) := by
  unfold State.innerOne
  iterate 5 (
    repeat (first | with_reducible assumption | with_reducible apply State.followStart_stays | with_reducible apply State.holdWords_stays | with_reducible apply State.signalResidue_stays | with_reducible apply State.summary_stays | with_reducible apply State.event_stays | with_reducible apply Stays.ite | with_reducible apply Stays.foldl | with_reducible exact (rfl : _ = _) | intro _)
    all_goals (try ((with_reducible apply Stays.lit); (case h1 => exact rfl)))
    repeat (first | with_reducible assumption | with_reducible apply State.followStart_stays | with_reducible apply State.holdWords_stays | with_reducible apply State.signalResidue_stays | with_reducible apply State.summary_stays | with_reducible apply State.event_stays | with_reducible apply Stays.ite | with_reducible apply Stays.foldl | with_reducible exact (rfl : _ = _) | intro _)
    all_goals (try dsimp only)
    all_goals (try split))

theorem State.phaseWords_stays {s₀ : State} (s : State) (codes : Vector (BitVec 10) 96) (irefOut : BitVec 12) (errs : List (PhaseId × BcastErr)) (hk : Stays s₀ s) : Stays s₀ (State.phaseWords s codes irefOut errs) := by
  unfold State.phaseWords
  iterate 5 (
    repeat (first | with_reducible assumption | with_reducible apply State.phaseWord_stays | with_reducible apply Stays.ite | with_reducible apply Stays.foldl | with_reducible exact (rfl : _ = _) | intro _))

theorem State.phaseErr_stays {s₀ : State} (s : State) (errs : List (PhaseId × BcastErr)) (hk : Stays s₀ s) : Stays s₀ (State.phaseErr s errs) := by
  unfold State.phaseErr
  iterate 5 (
    repeat (first | with_reducible assumption | with_reducible apply State.bcast_stays | with_reducible apply Stays.ite | with_reducible apply Stays.foldl | with_reducible exact (rfl : _ = _) | intro _))

theorem State.signalAll_stays {s₀ : State} (t s : State) (hk : Stays s₀ s) : Stays s₀ (State.signalAll t s) :=
  Stays.foldl hk (fun _ _ h => State.signalResidue_stays _ _ _ h) _

theorem State.innerAll_stays {s₀ : State} (s : State) (hk : Stays s₀ s) : Stays s₀ (State.innerAll s) := by
  unfold State.innerAll
  iterate 5 (
    repeat (first | with_reducible assumption | with_reducible apply State.innerOne_stays | with_reducible apply Stays.ite | with_reducible apply Stays.foldl | with_reducible exact (rfl : _ = _) | intro _))

theorem State.capPut_stays {s₀ : State} (s : State) (c : CtxId) (a : Nat) (w : Word) (hk : Stays s₀ s) : Stays s₀ (State.capPut s c a w) := by
  unfold State.capPut
  iterate 5 (
    repeat (first | with_reducible assumption | with_reducible apply State.halves_stays | with_reducible apply Stays.ite | with_reducible apply Stays.foldl | with_reducible exact (rfl : _ = _) | intro _))

theorem State.modProbe_stays {s₀ : State} (s : State) (c : CtxId) (f : Probe → Probe) (hk : Stays s₀ s) : Stays s₀ (State.modProbe s c f) := by
  unfold State.modProbe
  iterate 5 (
    repeat (first | with_reducible assumption | with_reducible apply State.modCtx_stays | with_reducible apply Stays.ite | with_reducible apply Stays.foldl | with_reducible exact (rfl : _ = _) | intro _))

theorem State.probeInc_stays {s₀ : State} (s : State) (c : CtxId) (i : Nat) (hk : Stays s₀ s) : Stays s₀ (State.probeInc s c i).1 := by
  unfold State.probeInc
  iterate 5 (
    repeat (first | with_reducible assumption | with_reducible apply State.capRead_stays | with_reducible apply Stays.ite | with_reducible apply Stays.foldl | with_reducible exact (rfl : _ = _) | intro _)
    all_goals (try ((with_reducible apply Stays.lit); (case h1 => exact rfl)))
    all_goals (try split))

theorem State.probeDone_stays {s₀ : State} (s : State) (c : CtxId) (hk : Stays s₀ s) : Stays s₀ (State.probeDone s c) := by
  unfold State.probeDone
  iterate 5 (
    repeat (first | with_reducible assumption | with_reducible apply State.modProbe_stays | with_reducible apply State.event_stays | with_reducible apply Stays.ite | with_reducible apply Stays.foldl | with_reducible exact (rfl : _ = _) | intro _))

theorem State.probePoint_stays {s₀ : State} (s : State) (c : CtxId) (i : Nat) (hk : Stays s₀ s) : Stays s₀ (State.probePoint s c i) := by
  unfold State.probePoint
  iterate 5 (
    repeat (first | with_reducible assumption | with_reducible apply State.probeDone_stays | with_reducible apply State.probeInc_stays | with_reducible apply State.modProbe_stays | with_reducible apply Stays.ite | with_reducible apply Stays.foldl | with_reducible exact (rfl : _ = _) | intro _))

theorem State.probeStart_stays {s₀ : State} (s : State) (c : CtxId) (hk : Stays s₀ s) : Stays s₀ (State.probeStart s c) := by
  unfold State.probeStart
  iterate 5 (
    repeat (first | with_reducible assumption | with_reducible apply State.probePoint_stays | with_reducible apply State.modProbe_stays | with_reducible apply State.modCtx_stays | with_reducible apply Stays.ite | with_reducible apply Stays.foldl | with_reducible exact (rfl : _ = _) | intro _))

theorem State.probePause_stays {s₀ : State} (s : State) (c : CtxId) (pause : Bool) (hk : Stays s₀ s) : Stays s₀ (State.probePause s c pause) := by
  unfold State.probePause
  iterate 5 (
    repeat (first | with_reducible assumption | with_reducible apply State.probePoint_stays | with_reducible apply State.modProbe_stays | with_reducible apply Stays.ite | with_reducible apply Stays.foldl | with_reducible exact (rfl : _ = _) | intro _))

theorem State.probeInject_stays {s₀ : State} (s : State) (c : CtxId) (cur : Bool) (hk : Stays s₀ s) : Stays s₀ (State.probeInject s c cur) := by
  unfold State.probeInject
  iterate 5 (
    repeat (first | with_reducible assumption | with_reducible apply State.modProbe_stays | with_reducible apply Stays.ite | with_reducible apply Stays.foldl | with_reducible exact (rfl : _ = _) | intro _)
    all_goals (try ((with_reducible apply Stays.lit); (case h1 => exact rfl)))
    all_goals (try dsimp only)
    all_goals (try split))

theorem State.storeSums_stays {s₀ : State} (s : State) (c : CtxId) (hk : Stays s₀ s) : Stays s₀ (State.storeSums s c) := by
  unfold State.storeSums
  iterate 5 (
    repeat (first | with_reducible assumption | with_reducible apply State.capPut_stays | with_reducible apply Stays.ite | with_reducible apply Stays.foldl | with_reducible exact (rfl : _ = _) | intro _))

theorem State.probePair_stays {s₀ : State} (s : State) (c : CtxId) (inp out : Int) (hk : Stays s₀ s) : Stays s₀ (State.probePair s c inp out) := by
  unfold State.probePair
  iterate 5 (
    repeat (first | with_reducible assumption | with_reducible apply State.modProbe_stays | with_reducible apply State.capPut_stays | with_reducible apply Stays.ite | with_reducible apply Stays.foldl | with_reducible exact (rfl : _ = _) | intro _))

theorem State.probeAfter_stays {s₀ : State} (s : State) (c : CtxId) (inp out : Int) (hk : Stays s₀ s) : Stays s₀ (State.probeAfter s c inp out) := by
  unfold State.probeAfter
  iterate 5 (
    repeat (first | with_reducible assumption | with_reducible apply State.probePair_stays | with_reducible apply State.storeSums_stays | with_reducible apply State.probePoint_stays | with_reducible apply State.probeDone_stays | with_reducible apply State.probeInc_stays | with_reducible apply State.modProbe_stays | with_reducible apply Stays.ite | with_reducible apply Stays.foldl | with_reducible exact (rfl : _ = _) | intro _)
    all_goals (try ((with_reducible apply Stays.lit); (case h1 => exact rfl)))
    all_goals (try dsimp only)
    all_goals (try split))

theorem State.traceStop_stays {s₀ : State} (s : State) (c : CtxId) (hk : Stays s₀ s) : Stays s₀ (State.traceStop s c) := by
  unfold State.traceStop
  iterate 5 (
    repeat (first | with_reducible assumption | with_reducible apply State.event_stays | with_reducible apply State.modCtx_stays | with_reducible apply Stays.ite | with_reducible apply Stays.foldl | with_reducible exact (rfl : _ = _) | intro _))

theorem State.traceStep_stays {s₀ : State} (s : State) (c : CtxId) (sumI : Int) (hk : Stays s₀ s) : Stays s₀ (State.traceStep s c sumI) := by
  unfold State.traceStep
  iterate 5 (
    repeat (first | with_reducible assumption | with_reducible apply State.traceStop_stays | with_reducible apply State.capPut_stays | with_reducible apply State.modCtx_stays | with_reducible apply Stays.ite | with_reducible apply Stays.foldl | with_reducible exact (rfl : _ = _) | intro _)
    all_goals (try ((with_reducible apply Stays.lit); (case h1 => exact rfl)))
    all_goals (try split))

theorem State.rebind_stays {s₀ : State} (s : State) (c : CtxId) (hk : Stays s₀ s) : Stays s₀ (State.rebind s c) := by
  unfold State.rebind
  iterate 5 (
    repeat (first | with_reducible assumption | with_reducible apply State.halves_stays | with_reducible apply Stays.ite | with_reducible apply Stays.foldl | with_reducible exact (rfl : _ = _) | intro _)
    all_goals (try ((with_reducible apply Stays.lit); (case h1 => exact rfl)))
    repeat (first | with_reducible assumption | with_reducible apply State.halves_stays | with_reducible apply Stays.ite | with_reducible apply Stays.foldl | with_reducible exact (rfl : _ = _) | intro _))

theorem State.setNAct_stays {s₀ : State} (s : State) (c : CtxId) (n : Nat) (hk : Stays s₀ s) : Stays s₀ (State.setNAct s c n) := by
  unfold State.setNAct
  iterate 5 (
    repeat (first | with_reducible assumption | with_reducible apply State.halves_stays | with_reducible apply Stays.ite | with_reducible apply Stays.foldl | with_reducible exact (rfl : _ = _) | intro _))

theorem State.preAct_stays {s₀ : State} (s : State) (c : CtxId) (hk : Stays s₀ s) : Stays s₀ (State.preAct s c) := by
  unfold State.preAct
  iterate 5 (
    repeat (first | with_reducible assumption | with_reducible apply State.setNAct_stays | with_reducible apply Stays.ite | with_reducible apply Stays.foldl | with_reducible exact (rfl : _ = _) | intro _))

theorem State.formPass_stays {s₀ : State} (s : State) (c : CtxId) (hk : Stays s₀ s) : Stays s₀ (State.formPass s c) := by
  unfold State.formPass
  iterate 5 (
    repeat (first | with_reducible assumption | with_reducible apply State.probeStart_stays | with_reducible apply State.modCtx_stays | with_reducible apply Stays.ite | with_reducible apply Stays.foldl | with_reducible exact (rfl : _ = _) | intro _))

theorem State.formE_stays {s₀ : State} (s : State) (c : CtxId) (hk : Stays s₀ s) : Stays s₀ (State.formE s c).1 := by
  unfold State.formE
  iterate 5 (
    repeat (first | with_reducible assumption | with_reducible apply State.formPass_stays | with_reducible apply State.setNAct_stays | with_reducible apply State.flush_stays | with_reducible apply State.halves_stays | with_reducible apply State.modCtx_stays | with_reducible apply Stays.ite | with_reducible apply Stays.foldl | with_reducible exact (rfl : _ = _) | intro _))

theorem State.formTarget_stays {s₀ : State} (s : State) (c : CtxId) (hk : Stays s₀ s) : Stays s₀ (State.formTarget s c) := by
  unfold State.formTarget
  iterate 5 (
    repeat (first | with_reducible assumption | with_reducible apply State.modCtx_stays | with_reducible apply Stays.ite | with_reducible apply Stays.foldl | with_reducible exact (rfl : _ = _) | intro _))

theorem State.schedRun_stays {s₀ : State} (s : State) (c : CtxId) (hk : Stays s₀ s) : Stays s₀ (State.schedRun s c).1 := by
  unfold State.schedRun
  iterate 5 (
    repeat (first | with_reducible assumption | with_reducible apply State.settle_stays | with_reducible apply State.modSched_stays | with_reducible apply Stays.ite | with_reducible apply Stays.foldl | with_reducible exact (rfl : _ = _) | intro _))

theorem State.schedStep_stays {s₀ : State} (s : State) (c : CtxId) (hk : Stays s₀ s) : Stays s₀ (State.schedStep s c).1 := by
  unfold State.schedStep
  iterate 5 (
    repeat (first | with_reducible assumption | with_reducible apply State.schedRun_stays | with_reducible apply Stays.ite | with_reducible apply Stays.foldl | with_reducible exact (rfl : _ = _) | intro _)
    all_goals (try ((with_reducible apply Stays.lit); (case h1 => exact rfl)))
    all_goals (try split))

theorem State.noteSched_stays {s₀ : State} (s : State) (c : CtxId) (hk : Stays s₀ s) : Stays s₀ (State.noteSched s c) := by
  unfold State.noteSched
  iterate 5 (
    repeat (first | with_reducible assumption | with_reducible apply State.settle_stays | with_reducible apply State.modSched_stays | with_reducible apply Stays.ite | with_reducible apply Stays.foldl | with_reducible exact (rfl : _ = _) | intro _))

theorem State.formFloors_stays {s₀ : State} (s : State) (c : CtxId) (before : List Event) (hk : Stays s₀ s) : Stays s₀ (State.formFloors s c before) := by
  unfold State.formFloors
  iterate 5 (
    repeat (first | with_reducible assumption | with_reducible apply State.modSched_stays | with_reducible apply State.fresh_stays | with_reducible apply Stays.ite | with_reducible apply Stays.foldl | with_reducible exact (rfl : _ = _) | intro _))

theorem State.endEvents_stays {s₀ : State} (s : State) (c : CtxId) (hk : Stays s₀ s) : Stays s₀ (State.endEvents s c) := by
  unfold State.endEvents
  iterate 5 (
    repeat (first | with_reducible assumption | with_reducible apply State.endEntry_stays | with_reducible apply State.modSched_stays | with_reducible apply State.halves_stays | with_reducible apply Stays.ite | with_reducible apply Stays.foldl | with_reducible exact (rfl : _ = _) | intro _)
    all_goals (try ((with_reducible apply Stays.lit); (case h1 => exact rfl)))
    all_goals (try dsimp only)
    all_goals (try split))

theorem State.schedIdle_stays {s₀ : State} (s : State) (c : CtxId) (hk : Stays s₀ s) : Stays s₀ (State.schedIdle s c) := by
  unfold State.schedIdle
  iterate 5 (
    repeat (first | with_reducible assumption | with_reducible apply State.endEvents_stays | with_reducible apply State.formFloors_stays | with_reducible apply State.schedRun_stays | with_reducible apply State.flush_stays | with_reducible apply Stays.ite | with_reducible apply Stays.foldl | with_reducible exact (rfl : _ = _) | intro _)
    all_goals (try ((with_reducible apply Stays.lit); (case h1 => exact rfl)))
    repeat (first | with_reducible assumption | with_reducible apply State.endEvents_stays | with_reducible apply State.formFloors_stays | with_reducible apply State.schedRun_stays | with_reducible apply State.flush_stays | with_reducible apply Stays.ite | with_reducible apply Stays.foldl | with_reducible exact (rfl : _ = _) | intro _))

theorem State.asStep_stays {s₀ : State} (s : State) (c : CtxId) (serial : Nat) (hk : Stays s₀ s) : Stays s₀ (State.asStep s c serial) := by
  unfold State.asStep
  iterate 5 (
    repeat (first | with_reducible assumption | with_reducible apply State.modSched_stays | with_reducible apply Stays.ite | with_reducible apply Stays.foldl | with_reducible exact (rfl : _ = _) | intro _))

theorem State.joinDeferred_stays {s₀ : State} (s : State) (c : CtxId) (serial : Nat) (d : Deferred) (hk : Stays s₀ s) : Stays s₀ (State.joinDeferred s c serial d) := by
  unfold State.joinDeferred
  iterate 5 (
    repeat (first | with_reducible assumption | with_reducible apply State.asStep_stays | with_reducible apply State.delayEvent_stays | with_reducible apply State.event_stays | with_reducible apply State.modChan_stays | with_reducible apply Stays.ite | with_reducible apply Stays.foldl | with_reducible exact (rfl : _ = _) | intro _)
    all_goals (try ((with_reducible apply Stays.lit); (case h1 => exact rfl)))
    all_goals (try split))

theorem State.holdOn_stays {s₀ : State} (s : State) (c : CtxId) (serial : Nat) (hk : Stays s₀ s) : Stays s₀ (State.holdOn s c serial) := by
  unfold State.holdOn
  iterate 5 (
    repeat (first | with_reducible assumption | with_reducible apply State.asStep_stays | with_reducible apply State.modChan_stays | with_reducible apply Stays.ite | with_reducible apply Stays.foldl | with_reducible exact (rfl : _ = _) | intro _))

theorem State.gateOn_stays {s₀ : State} (s : State) (c : CtxId) (serial : Nat) (hk : Stays s₀ s) : Stays s₀ (State.gateOn s c serial) := by
  unfold State.gateOn
  iterate 5 (
    repeat (first | with_reducible assumption | with_reducible apply State.holdOn_stays | with_reducible apply State.joinDeferred_stays | with_reducible apply State.asStep_stays | with_reducible apply State.startOrDefer_stays | with_reducible apply State.missEvent_stays | with_reducible apply Stays.ite | with_reducible apply Stays.foldl | with_reducible exact (rfl : _ = _) | intro _)
    all_goals (try ((with_reducible apply Stays.lit); (case h1 => exact rfl)))
    all_goals (try split))

theorem State.gateOff_stays {s₀ : State} (s : State) (c : CtxId) (serial : Nat) (hk : Stays s₀ s) : Stays s₀ (State.gateOff s c serial) := by
  unfold State.gateOff
  iterate 5 (
    repeat (first | with_reducible assumption | with_reducible apply State.asStep_stays | with_reducible apply State.offCmd_stays | with_reducible apply State.modChan_stays | with_reducible apply Stays.ite | with_reducible apply Stays.foldl | with_reducible exact (rfl : _ = _) | intro _)
    all_goals (try ((with_reducible apply Stays.lit); (case h1 => exact rfl)))
    all_goals (try split))

theorem State.gateEvent_stays {s₀ : State} (s : State) (c : CtxId) (e : Event) (hk : Stays s₀ s) : Stays s₀ (State.gateEvent s c e) := by
  unfold State.gateEvent
  iterate 5 (
    repeat (first | with_reducible assumption | with_reducible apply State.gateOff_stays | with_reducible apply State.gateOn_stays | with_reducible apply State.supersede_stays | with_reducible apply State.modSched_stays | with_reducible apply Stays.ite | with_reducible apply Stays.foldl | with_reducible exact (rfl : _ = _) | intro _)
    all_goals (try ((with_reducible apply Stays.lit); (case h1 => exact rfl)))
    all_goals (try split))

theorem State.deferredFails_stays {s₀ : State} (s : State) (c : CtxId) (ev : Option Nat) (hk : Stays s₀ s) : Stays s₀ (State.deferredFails s c ev) := by
  unfold State.deferredFails
  iterate 5 (
    repeat (first | with_reducible assumption | with_reducible apply State.missEvent_stays | with_reducible apply State.modChan_stays | with_reducible apply Stays.ite | with_reducible apply Stays.foldl | with_reducible exact (rfl : _ = _) | intro _)
    all_goals (try ((with_reducible apply Stays.lit); (case h1 => exact rfl)))
    all_goals (try split))

theorem State.measured_stays {s₀ : State} (s : State) (c : CtxId) (ev : Option Nat) (d : Nat) (hk : Stays s₀ s) : Stays s₀ (State.measured s c ev d) := by
  unfold State.measured
  split
  · exact hk
  · exact State.modSched_stays _ _ _ hk

theorem State.riseEdge_stays {s₀ : State} (s : State) (c : CtxId) (at_ : Nat) (hk : Stays s₀ s) : Stays s₀ (State.riseEdge s c at_) := by
  unfold State.riseEdge
  iterate 5 (
    repeat (first | with_reducible assumption | with_reducible apply State.measured_stays | with_reducible apply State.modSched_stays | with_reducible apply State.modChan_stays | with_reducible apply Stays.ite | with_reducible apply Stays.foldl | with_reducible exact (rfl : _ = _) | intro _)
    all_goals (try ((with_reducible apply Stays.lit); (case h1 => exact rfl)))
    all_goals (try dsimp only)
    all_goals (try split))

theorem State.fallEdge_stays {s₀ : State} (s : State) (c : CtxId) (at_ ago : Nat) (hk : Stays s₀ s) : Stays s₀ (State.fallEdge s c at_ ago) := by
  unfold State.fallEdge
  iterate 5 (
    repeat (first | with_reducible assumption | with_reducible apply State.measured_stays | with_reducible apply State.modSched_stays | with_reducible apply State.modChan_stays | with_reducible apply Stays.ite | with_reducible apply Stays.foldl | with_reducible exact (rfl : _ = _) | intro _)
    all_goals (try ((with_reducible apply Stays.lit); (case h1 => exact rfl)))
    all_goals (try dsimp only)
    all_goals (try split))

theorem State.stepEvent_stays {s₀ : State} (s : State) (c : CtxId) (e : Event) (hk : Stays s₀ s) : Stays s₀ (State.stepEvent s c e) := by
  unfold State.stepEvent
  iterate 5 (
    repeat (first | with_reducible assumption | with_reducible apply State.gateEvent_stays | with_reducible apply State.modSched_stays | with_reducible apply Stays.ite | with_reducible apply Stays.foldl | with_reducible exact (rfl : _ = _) | intro _))

theorem State.afterStep_stays {s₀ : State} (s : State) (hk : Stays s₀ s) : Stays s₀ (State.afterStep s) := by
  unfold State.afterStep
  iterate 5 (
    repeat (first | with_reducible assumption | with_reducible apply State.stepEvent_stays | with_reducible apply Stays.ite | with_reducible apply Stays.foldl | with_reducible exact (rfl : _ = _) | intro _))

theorem State.ftLoadAct_stays {s₀ : State} (s : State) (hk : Stays s₀ s) : Stays s₀ (State.ftLoadAct s) := by
  unfold State.ftLoadAct
  iterate 5 (
    repeat (first | with_reducible assumption | with_reducible apply State.afterStep_stays | with_reducible apply Stays.ite | with_reducible apply Stays.foldl | with_reducible exact (rfl : _ = _) | intro _)
    all_goals (try ((with_reducible apply Stays.lit); (case h1 => exact rfl)))
    repeat (first | with_reducible assumption | with_reducible apply State.afterStep_stays | with_reducible apply Stays.ite | with_reducible apply Stays.foldl | with_reducible exact (rfl : _ = _) | intro _))

theorem State.edgeDone_stays {s₀ : State} (s : State) (hk : Stays s₀ s) : Stays s₀ (State.edgeDone s) := by
  unfold State.edgeDone
  iterate 5 (
    all_goals (try ((with_reducible apply Stays.lit); (case h1 => exact rfl)))
    repeat (first | with_reducible assumption | with_reducible apply Stays.ite | with_reducible apply Stays.foldl | with_reducible exact (rfl : _ = _) | intro _))

theorem State.ftCfgApply_stays {s₀ : State} (s : State) (old : Int) (hk : Stays s₀ s) : Stays s₀ (State.ftCfgApply s old) := by
  unfold State.ftCfgApply
  iterate 5 (
    all_goals (try ((with_reducible apply Stays.lit); (case h1 => exact rfl)))
    repeat (first | with_reducible assumption | with_reducible apply Stays.ite | with_reducible apply Stays.foldl | with_reducible exact (rfl : _ = _) | intro _))

theorem State.ftArmApply_stays {s₀ : State} (s : State) (on : Bool) (hk : Stays s₀ s) : Stays s₀ (State.ftArmApply s on) := by
  unfold State.ftArmApply
  iterate 5 (
    repeat (first | with_reducible assumption | with_reducible apply State.ftLoadAct_stays | with_reducible apply Stays.ite | with_reducible apply Stays.foldl | with_reducible exact (rfl : _ = _) | intro _)
    all_goals (try ((with_reducible apply Stays.lit); (case h1 => exact rfl)))
    repeat (first | with_reducible assumption | with_reducible apply State.ftLoadAct_stays | with_reducible apply Stays.ite | with_reducible apply Stays.foldl | with_reducible exact (rfl : _ = _) | intro _)
    all_goals (try dsimp only))

theorem State.bootSup_stays {s₀ : State} (s : State) (h : HalfId) (hk : Stays s₀ s) : Stays s₀ (State.bootSup s h) := by
  unfold State.bootSup
  iterate 5 (
    repeat (first | with_reducible assumption | with_reducible apply State.modHs_stays | with_reducible apply Stays.ite | with_reducible apply Stays.foldl | with_reducible exact (rfl : _ = _) | intro _)
    all_goals (try ((with_reducible apply Stays.lit); (case h1 => exact rfl)))
    repeat (first | with_reducible assumption | with_reducible apply State.modHs_stays | with_reducible apply Stays.ite | with_reducible apply Stays.foldl | with_reducible exact (rfl : _ = _) | intro _))

theorem State.shutPhase_stays {s₀ : State} (s : State) (p : PhaseId) (hk : Stays s₀ s) : Stays s₀ (State.shutPhase s p) := by
  unfold State.shutPhase
  iterate 5 (
    repeat (first | with_reducible assumption | with_reducible apply State.declareCtx_stays | with_reducible apply State.modPh_stays | with_reducible apply Stays.ite | with_reducible apply Stays.foldl | with_reducible exact (rfl : _ = _) | intro _))

theorem State.unshutPhase_stays {s₀ : State} (s : State) (p : PhaseId) (hk : Stays s₀ s) : Stays s₀ (State.unshutPhase s p) := by
  unfold State.unshutPhase
  iterate 5 (
    repeat (first | with_reducible assumption | with_reducible apply State.releasedEvent_stays | with_reducible apply State.modPh_stays | with_reducible apply Stays.ite | with_reducible apply Stays.foldl | with_reducible exact (rfl : _ = _) | intro _))

theorem State.zoneFollow_stays {s₀ : State} (s : State) (hk : Stays s₀ s) : Stays s₀ (State.zoneFollow s) := by
  unfold State.zoneFollow
  iterate 5 (
    all_goals (try ((with_reducible apply Stays.lit); (case h1 => exact rfl)))
    repeat (first | with_reducible assumption | with_reducible apply Stays.ite | with_reducible apply Stays.foldl | with_reducible exact (rfl : _ = _) | intro _))

theorem State.enterShut_stays {s₀ : State} (s : State) (z : Fin 19) (hk : Stays s₀ s) : Stays s₀ (State.enterShut s z) := by
  unfold State.enterShut
  iterate 5 (
    repeat (first | with_reducible assumption | with_reducible apply State.shutPhase_stays | with_reducible apply State.loseElig_stays | with_reducible apply State.safeTrigger_stays | with_reducible apply Stays.ite | with_reducible apply Stays.foldl | with_reducible exact (rfl : _ = _) | intro _))

theorem State.leaveShut_stays {s₀ : State} (s : State) (z : Fin 19) (hk : Stays s₀ s) : Stays s₀ (State.leaveShut s z) := by
  unfold State.leaveShut
  iterate 5 (
    repeat (first | with_reducible assumption | with_reducible apply State.unshutPhase_stays | with_reducible apply State.modHs_stays | with_reducible apply Stays.ite | with_reducible apply Stays.foldl | with_reducible exact (rfl : _ = _) | intro _))

theorem State.zoneChange_stays {s₀ : State} (s : State) (z : Fin 19) (old new : Level) (v : Int) (hk : Stays s₀ s) : Stays s₀ (State.zoneChange s z old new v) := by
  unfold State.zoneChange
  iterate 5 (
    repeat (first | with_reducible assumption | with_reducible apply State.leaveShut_stays | with_reducible apply State.enterShut_stays | with_reducible apply State.summary_stays | with_reducible apply State.event_stays | with_reducible apply Stays.ite | with_reducible apply Stays.foldl | with_reducible exact (rfl : _ = _) | intro _)
    all_goals (try ((with_reducible apply Stays.lit); (case h1 => exact rfl)))
    repeat (first | with_reducible assumption | with_reducible apply State.leaveShut_stays | with_reducible apply State.enterShut_stays | with_reducible apply State.summary_stays | with_reducible apply State.event_stays | with_reducible apply Stays.ite | with_reducible apply Stays.foldl | with_reducible exact (rfl : _ = _) | intro _)
    all_goals (try split))

theorem State.throttleStep_stays {s₀ : State} (s : State) (z : Fin 19) (hk : Stays s₀ s) : Stays s₀ (State.throttleStep s z) := by
  unfold State.throttleStep
  iterate 5 (
    repeat (first | with_reducible assumption | with_reducible apply State.commit_stays | with_reducible apply Stays.ite | with_reducible apply Stays.foldl | with_reducible exact (rfl : _ = _) | intro _))

theorem State.evaluate_stays {s₀ : State} (s : State) (z : Fin 19) (hk : Stays s₀ s) : Stays s₀ (State.evaluate s z) := by
  unfold State.evaluate
  iterate 5 (
    repeat (first | with_reducible assumption | with_reducible apply State.throttleStep_stays | with_reducible apply State.zoneChange_stays | with_reducible apply Stays.ite | with_reducible apply Stays.foldl | with_reducible exact (rfl : _ = _) | intro _)
    all_goals (try ((with_reducible apply Stays.lit); (case h1 => exact rfl)))
    repeat (first | with_reducible assumption | with_reducible apply State.throttleStep_stays | with_reducible apply State.zoneChange_stays | with_reducible apply Stays.ite | with_reducible apply Stays.foldl | with_reducible exact (rfl : _ = _) | intro _))

theorem State.setForce_stays {s₀ : State} (s : State) (c : CtxId) (p : CP) (v : Int) (hk : Stays s₀ s) : Stays s₀ (State.setForce s c p v) := by
  unfold State.setForce
  iterate 5 (
    repeat (first | with_reducible assumption | with_reducible apply State.modCtx_stays | with_reducible apply Stays.ite | with_reducible apply Stays.foldl | with_reducible exact (rfl : _ = _) | intro _))

theorem State.setPhForce_stays {s₀ : State} (s : State) (p : PhaseId) (e : PP) (v : Int) (hk : Stays s₀ s) : Stays s₀ (State.setPhForce s p e v) := by
  unfold State.setPhForce
  iterate 5 (
    repeat (first | with_reducible assumption | with_reducible apply State.modPh_stays | with_reducible apply Stays.ite | with_reducible apply Stays.foldl | with_reducible exact (rfl : _ = _) | intro _))

theorem State.setGlobForce_stays {s₀ : State} (s : State) (g : GP) (v : Int) (hk : Stays s₀ s) : Stays s₀ (State.setGlobForce s g v) := by
  unfold State.setGlobForce
  iterate 5 (
    all_goals (try ((with_reducible apply Stays.lit); (case h1 => exact rfl)))
    repeat (first | with_reducible assumption | with_reducible apply Stays.ite | with_reducible apply Stays.foldl | with_reducible exact (rfl : _ = _) | intro _))

theorem State.landAll_stays {s₀ : State} (s : State) (a : Act) (tag : Nat) (hk : Stays s₀ s) : Stays s₀ (State.landAll s a tag) := by
  unfold State.landAll
  iterate 5 (
    repeat (first | with_reducible assumption | with_reducible apply State.halves_stays | with_reducible apply Stays.ite | with_reducible apply Stays.foldl | with_reducible exact (rfl : _ = _) | intro _))

theorem State.modeApply_stays {s₀ : State} (s : State) (c : CtxId) (v : Int) (tag : Nat) (hk : Stays s₀ s) : Stays s₀ (State.modeApply s c v tag) := by
  unfold State.modeApply
  iterate 5 (
    repeat (first | with_reducible assumption | with_reducible apply State.flush_stays | with_reducible apply State.modCtx_stays | with_reducible apply Stays.ite | with_reducible apply Stays.foldl | with_reducible exact (rfl : _ = _) | intro _))

theorem State.ctxApply_stays {s₀ : State} (s : State) (c : CtxId) (p : CP) (v : Int) (tag : Nat) (hk : Stays s₀ s) : Stays s₀ (State.ctxApply s c p v tag) := by
  unfold State.ctxApply
  iterate 5 (
    repeat (first | with_reducible assumption | with_reducible apply State.modeApply_stays | with_reducible apply State.landAll_stays | with_reducible apply State.setForce_stays | with_reducible apply State.followGroup_stays | with_reducible apply State.forceTargets_stays | with_reducible apply State.tripFollow_stays | with_reducible apply State.modChan_stays | with_reducible apply State.modCtx_stays | with_reducible apply Stays.ite | with_reducible apply Stays.foldl | with_reducible exact (rfl : _ = _) | intro _)
    all_goals (try ((with_reducible apply Stays.lit); (case h1 => exact rfl)))
    all_goals (try split))

theorem State.swapApply_stays {s₀ : State} (s : State) (c : CtxId) (hk : Stays s₀ s) : Stays s₀ (State.swapApply s c) := by
  unfold State.swapApply
  iterate 5 (
    repeat (first | with_reducible assumption | with_reducible apply State.halves_stays | with_reducible apply State.modCtx_stays | with_reducible apply Stays.ite | with_reducible apply Stays.foldl | with_reducible exact (rfl : _ = _) | intro _))

theorem State.phApply_stays {s₀ : State} (s : State) (p : PhaseId) (e : PP) (v : Int) (tag : Nat) (hk : Stays s₀ s) : Stays s₀ (State.phApply s p e v tag) := by
  unfold State.phApply
  iterate 5 (
    repeat (first | with_reducible assumption | with_reducible apply State.shutPhase_stays | with_reducible apply State.unshutPhase_stays | with_reducible apply State.landAll_stays | with_reducible apply State.setPhForce_stays | with_reducible apply State.modHs_stays | with_reducible apply State.modPh_stays | with_reducible apply Stays.ite | with_reducible apply Stays.foldl | with_reducible exact (rfl : _ = _) | intro _)
    all_goals (try ((with_reducible apply Stays.lit); (case h1 => exact rfl)))
    all_goals (try dsimp only)
    all_goals (try split))

theorem State.tarnApply_stays {s₀ : State} (s : State) (old : Int) (hk : Stays s₀ s) : Stays s₀ (State.tarnApply s old) := by
  unfold State.tarnApply
  iterate 5 (
    all_goals (try ((with_reducible apply Stays.lit); (case h1 => exact rfl)))
    repeat (first | with_reducible assumption | with_reducible apply Stays.ite | with_reducible apply Stays.foldl | with_reducible exact (rfl : _ = _) | intro _))

theorem State.globApply_stays {s₀ : State} (s : State) (g : GP) (v : Int) (hk : Stays s₀ s) : Stays s₀ (State.globApply s g v) := by
  unfold State.globApply
  iterate 5 (
    repeat (first | with_reducible assumption | with_reducible apply State.tarnApply_stays | with_reducible apply State.setGlobForce_stays | with_reducible apply State.zoneFollow_stays | with_reducible apply State.ftCfgApply_stays | with_reducible apply State.cragConfig_stays | with_reducible apply State.followGroups_stays | with_reducible apply State.await_stays | with_reducible apply State.offCmd_stays | with_reducible apply Stays.ite | with_reducible apply Stays.foldl | with_reducible exact (rfl : _ = _) | intro _)
    all_goals (try ((with_reducible apply Stays.lit); (case h1 => exact rfl)))
    all_goals (try split))

theorem State.startRundown_stays {s₀ : State} (s : State) (hk : Stays s₀ s) : Stays s₀ (State.startRundown s) := by
  unfold State.startRundown
  iterate 5 (
    repeat (first | with_reducible assumption | with_reducible apply State.pgDrop_stays | with_reducible apply State.offCmd_stays | with_reducible apply Stays.ite | with_reducible apply Stays.foldl | with_reducible exact (rfl : _ = _) | intro _)
    all_goals (try ((with_reducible apply Stays.lit); (case h1 => exact rfl)))
    repeat (first | with_reducible assumption | with_reducible apply State.pgDrop_stays | with_reducible apply State.offCmd_stays | with_reducible apply Stays.ite | with_reducible apply Stays.foldl | with_reducible exact (rfl : _ = _) | intro _))

theorem State.faultClearApply_stays {s₀ : State} (s : State) (c : CtxId) (hk : Stays s₀ s) : Stays s₀ (State.faultClearApply s c) := by
  unfold State.faultClearApply
  iterate 5 (
    repeat (first | with_reducible assumption | with_reducible apply State.releasedEvent_stays | with_reducible apply State.modPh_stays | with_reducible apply State.modCtx_stays | with_reducible apply Stays.ite | with_reducible apply Stays.foldl | with_reducible exact (rfl : _ = _) | intro _))

theorem State.swClear_stays {s₀ : State} (s : State) (c : CtxId) (hk : Stays s₀ s) : Stays s₀ (State.swClear s c) := by
  unfold State.swClear
  iterate 5 (
    repeat (first | with_reducible assumption | with_reducible apply State.releasedEvent_stays | with_reducible apply State.tryRelease_stays | with_reducible apply State.modChan_stays | with_reducible apply State.modCtx_stays | with_reducible apply Stays.ite | with_reducible apply Stays.foldl | with_reducible exact (rfl : _ = _) | intro _))

theorem State.swApply_stays {s₀ : State} (s : State) (c : CtxId) (on clear : Bool) (hk : Stays s₀ s) : Stays s₀ (State.swApply s c on clear) := by
  unfold State.swApply
  iterate 5 (
    repeat (first | with_reducible assumption | with_reducible apply State.swClear_stays | with_reducible apply State.offCmd_stays | with_reducible apply State.onCmd_stays | with_reducible apply Stays.ite | with_reducible apply Stays.foldl | with_reducible exact (rfl : _ = _) | intro _))

theorem State.quarRelease_stays {s₀ : State} (s : State) (c : CtxId) (hk : Stays s₀ s) : Stays s₀ (State.quarRelease s c) := by
  unfold State.quarRelease
  iterate 5 (
    repeat (first | with_reducible assumption | with_reducible apply State.releasedEvent_stays | with_reducible apply State.modCtx_stays | with_reducible apply Stays.ite | with_reducible apply Stays.foldl | with_reducible exact (rfl : _ = _) | intro _))

theorem State.traceBegin_stays {s₀ : State} (s : State) (c : CtxId) (w : Word) (hk : Stays s₀ s) : Stays s₀ (State.traceBegin s c w) := by
  unfold State.traceBegin
  iterate 5 (
    repeat (first | with_reducible assumption | with_reducible apply State.modCtx_stays | with_reducible apply Stays.ite | with_reducible apply Stays.foldl | with_reducible exact (rfl : _ = _) | intro _))

theorem State.fwApply_stays {s₀ : State} (s : State) (op : Nat) (hk : Stays s₀ s) : Stays s₀ (State.fwApply s op) := by
  unfold State.fwApply
  iterate 5 (
    all_goals (try ((with_reducible apply Stays.lit); (case h1 => exact rfl)))
    repeat (first | with_reducible assumption | with_reducible apply State.loseElig_stays | with_reducible apply Stays.ite | with_reducible apply Stays.foldl | with_reducible exact (rfl : _ = _) | intro _)
    all_goals (try dsimp only)
    all_goals (try split))

theorem State.handoverApply_stays {s₀ : State} (s : State) (hk : Stays s₀ s) : Stays s₀ (State.handoverApply s) := by
  unfold State.handoverApply
  iterate 5 (
    repeat (first | with_reducible assumption | with_reducible apply State.requestRelease_stays | with_reducible apply State.endRelease_stays | with_reducible apply Stays.ite | with_reducible apply Stays.foldl | with_reducible exact (rfl : _ = _) | intro _)
    all_goals (try ((with_reducible apply Stays.lit); (case h1 => exact rfl)))
    all_goals (try split))

theorem State.retryResetApply_stays {s₀ : State} (s : State) (c : CtxId) (hk : Stays s₀ s) : Stays s₀ (State.retryResetApply s c) := by
  unfold State.retryResetApply
  iterate 5 (
    repeat (first | with_reducible assumption | with_reducible apply State.modCtx_stays | with_reducible apply Stays.ite | with_reducible apply Stays.foldl | with_reducible exact (rfl : _ = _) | intro _))

theorem State.calStart_stays {s₀ : State} (s : State) (hk : Stays s₀ s) : Stays s₀ (State.calStart s) := by
  unfold State.calStart
  iterate 5 (
    repeat (first | with_reducible assumption | with_reducible apply Stays.ite | with_reducible apply Stays.foldl | with_reducible exact (rfl : _ = _) | intro _)
    all_goals (try ((with_reducible apply Stays.lit); (case h1 => exact rfl)))
    repeat (first | with_reducible assumption | with_reducible apply Stays.ite | with_reducible apply Stays.foldl | with_reducible exact (rfl : _ = _) | intro _)
    all_goals (try dsimp only)
    all_goals (try split))

theorem State.missed_stays {s₀ : State} (before s : State) (writes : Bool) (h : HalfId) (hk : Stays s₀ s) :
    Stays s₀ (State.missed before s writes h) := by
  have k1 : Stays s₀ (s.setHalf h (before.half h)) := State.setHalf_stays _ _ _ hk
  unfold State.missed
  dsimp only
  exact Stays.ite (State.loseElig_stays _ _ _ k1) hk

theorem State.place_stays {s₀ : State} (s : State) (x : Slot) (v : Int) (hk : Stays s₀ s) : Stays s₀ (State.place s x v) := by
  unfold State.place
  iterate 5 (
    repeat (first | with_reducible assumption | with_reducible apply State.setGlobForce_stays | with_reducible apply State.setPhForce_stays | with_reducible apply State.setForce_stays | with_reducible apply State.setGlobNew_stays | with_reducible apply State.setPhNew_stays | with_reducible apply State.setNew_stays | with_reducible apply State.halves_stays | with_reducible apply Stays.ite | with_reducible apply Stays.foldl | with_reducible exact (rfl : _ = _) | intro _)
    all_goals (try ((with_reducible apply Stays.lit); (case h1 => exact rfl)))
    all_goals (try split))

theorem State.resetBlock_stays {s₀ : State} (s : State) (b : Nat) (hk : Stays s₀ s) : Stays s₀ (State.resetBlock s b) := by
  unfold State.resetBlock
  iterate 5 (
    repeat (first | with_reducible assumption | with_reducible apply State.halves_stays | with_reducible apply State.modPh_stays | with_reducible apply State.modCtx_stays | with_reducible apply Stays.ite | with_reducible apply Stays.foldl | with_reducible exact (rfl : _ = _) | intro _)
    all_goals (try ((with_reducible apply Stays.lit); (case h1 => exact rfl)))
    repeat (first | with_reducible assumption | with_reducible apply State.halves_stays | with_reducible apply State.modPh_stays | with_reducible apply State.modCtx_stays | with_reducible apply Stays.ite | with_reducible apply Stays.foldl | with_reducible exact (rfl : _ = _) | intro _)
    all_goals (try dsimp only)
    all_goals (try split))

theorem State.restorePair_stays {s₀ : State} (x : State × List Nat) (p : Pair) (hk : Stays s₀ x.1) : Stays s₀ (State.restorePair x p).1 := by
  unfold State.restorePair
  split
  · exact hk
  · split
    · exact State.place_stays _ _ _ hk
    · exact hk

theorem State.resetMode_stays {s₀ : State} (s : State) (b : Nat) (hk : Stays s₀ s) : Stays s₀ (State.resetMode s b) := by
  unfold State.resetMode
  iterate 5 (
    repeat (first | with_reducible assumption | with_reducible apply State.setForce_stays | with_reducible apply State.setNew_stays | with_reducible apply Stays.ite | with_reducible apply Stays.foldl | with_reducible exact (rfl : _ = _) | intro _)
    all_goals (try ((with_reducible apply Stays.lit); (case h1 => exact rfl)))
    all_goals (try dsimp only)
    all_goals (try split))

theorem State.judgeBlock_stays {s₀ : State} (l : List Pair) (marked : List Nat) (x : State × List Nat) (b : Nat) (hk : Stays s₀ x.1) :
    Stays s₀ (State.judgeBlock l marked x b).1 := by
  unfold State.judgeBlock
  split
  · exact State.resetMode_stays _ _ hk
  · exact hk

theorem State.dropBlock_stays {s₀ : State} (s : State) (b : Nat) (hk : Stays s₀ s) : Stays s₀ (State.dropBlock s b) := by
  unfold State.dropBlock
  iterate 5 (
    repeat (first | with_reducible assumption | with_reducible apply State.resetBlock_stays | with_reducible apply State.summaryFree_stays | with_reducible apply Stays.ite | with_reducible apply Stays.foldl | with_reducible exact (rfl : _ = _) | intro _)
    all_goals (try ((with_reducible apply Stays.lit); (case h1 => exact rfl)))
    repeat (first | with_reducible assumption | with_reducible apply State.resetBlock_stays | with_reducible apply State.summaryFree_stays | with_reducible apply Stays.ite | with_reducible apply Stays.foldl | with_reducible exact (rfl : _ = _) | intro _))

theorem State.restorePairs_stays {s₀ : State} (s : State) (l : List Pair) (hk : Stays s₀ s) : Stays s₀ (s.restorePairs l) := by
  have f {α : Type} (g : State × List Nat → α → State × List Nat) (hg : ∀ x p, Stays s₀ x.1 → Stays s₀ (g x p).1) (m : List α)
      (x : State × List Nat) (h : Stays s₀ x.1) : Stays s₀ (m.foldl g x).1 := by
    induction m generalizing x with
    | nil => exact h
    | cons p m ih => exact ih _ (hg x p h)
  exact Stays.foldl (f _ State.restorePair_stays l _ hk) (fun _ _ h => State.dropBlock_stays _ _ h) _

theorem State.resetEntries_stays {s₀ : State} (s : State) (hk : Stays s₀ s) : Stays s₀ (State.resetEntries s) := by
  unfold State.resetEntries
  iterate 5 (
    repeat (first | with_reducible assumption | with_reducible apply State.resetBlock_stays | with_reducible apply State.halves_stays | with_reducible apply Stays.ite | with_reducible apply Stays.foldl | with_reducible exact (rfl : _ = _) | intro _)
    all_goals (try ((with_reducible apply Stays.lit); (case h1 => exact rfl)))
    repeat (first | with_reducible assumption | with_reducible apply State.resetBlock_stays | with_reducible apply State.halves_stays | with_reducible apply Stays.ite | with_reducible apply Stays.foldl | with_reducible exact (rfl : _ = _) | intro _))

theorem State.writeRun_stays {s₀ : State} (s : State) (i : Iface) (v : Nat) (hk : Stays s₀ s) : Stays s₀ (State.writeRun s i v) := by
  unfold State.writeRun
  iterate 5 (
    repeat (first | with_reducible assumption | with_reducible apply State.writeReg_stays | with_reducible apply Stays.ite | with_reducible apply Stays.foldl | with_reducible exact (rfl : _ = _) | intro _))

theorem State.readReg_stays {s₀ : State} (s : State) (i : Iface) (x : Slot) (hk : Stays s₀ s) : Stays s₀ (State.readReg s i x) := by
  unfold State.readReg
  iterate 5 (
    repeat (first | with_reducible assumption | with_reducible apply State.readEffect_stays | with_reducible apply Stays.ite | with_reducible apply Stays.foldl | with_reducible exact (rfl : _ = _) | intro _)
    all_goals (try ((with_reducible apply Stays.lit); (case h1 => exact rfl)))
    repeat (first | with_reducible assumption | with_reducible apply State.readEffect_stays | with_reducible apply Stays.ite | with_reducible apply Stays.foldl | with_reducible exact (rfl : _ = _) | intro _))

theorem State.answer_stays {s₀ : State} (s : State) (r : Req) (answer detail : Nat) (data : List Word) (hk : Stays s₀ s) :
    Stays s₀ (s.answer r answer detail data) := by
  have k1 := State.respond_stays s r answer detail data hk
  unfold State.answer
  extract_lets t
  split
  · split
    · exact k1.same rfl
    · exact k1
  · exact k1

theorem State.refused_stays {s₀ : State} (s : State) (r : Req) (answer : Nat) (hk : Stays s₀ s) : Stays s₀ (State.refused s r answer) := by
  unfold State.refused
  iterate 5 (
    repeat (first | with_reducible assumption | with_reducible apply State.answer_stays | with_reducible apply Stays.ite | with_reducible apply Stays.foldl | with_reducible exact (rfl : _ = _) | intro _))

theorem State.pmbPut_stays {s₀ : State} (s : State) (code : Nat) (x : Slot) (w : Word) (hk : Stays s₀ s) : Stays s₀ (State.pmbPut s code x w) := by
  unfold State.pmbPut
  iterate 5 (
    repeat (first | with_reducible assumption | with_reducible apply State.pmbRefuse_stays | with_reducible apply State.accept_stays | with_reducible apply Stays.ite | with_reducible apply Stays.foldl | with_reducible exact (rfl : _ = _) | intro _))

theorem State.pagedPut_stays {s₀ : State} (s : State) (code page : Nat) (f : State → CtxId → Option (Slot × Word)) (hk : Stays s₀ s) :
    Stays s₀ (s.pagedPut code page f) := by
  unfold State.pagedPut
  split
  · exact State.pmbRefuse_stays _ _ _ hk
  · refine Stays.foldl hk (fun t c h => ?_) _
    split
    · exact State.pmbRefuse_stays _ _ _ h
    · exact State.pmbPut_stays _ _ _ _ h

theorem State.operationPut_stays {s₀ : State} (s : State) (j : PmbJob) (hk : Stays s₀ s) : Stays s₀ (s.operationPut j) := by
  unfold State.operationPut
  exact Stays.ite (State.pmbRefuse_stays _ _ _ hk) (State.pagedPut_stays _ _ _ _ hk)

theorem State.clearFaultsPut_stays {s₀ : State} (s : State) (j : PmbJob) (hk : Stays s₀ s) : Stays s₀ (s.clearFaultsPut j) := by
  have k1 := State.pagedPut_stays s 0x03 j.page (fun _ c => some (.creg c .faultStatus, 0x3FFF)) hk
  exact k1.same rfl

theorem State.storeUserPut_stays {s₀ : State} (s : State) (hk : Stays s₀ s) : Stays s₀ (s.storeUserPut) := by
  unfold State.storeUserPut
  exact Stays.ite (State.pmbRefuse_stays _ _ _ hk) (State.startHost_stays _ _ _ hk)

theorem State.voutCommandPut_stays {s₀ : State} (s : State) (j : PmbJob) (hk : Stays s₀ s) : Stays s₀ (s.voutCommandPut j) := by
  exact State.pagedPut_stays _ _ _ _ hk

theorem State.voutRatePut_stays {s₀ : State} (s : State) (j : PmbJob) (hk : Stays s₀ s) : Stays s₀ (s.voutRatePut j) := by
  exact State.pagedPut_stays _ _ _ _ hk

theorem State.paramValuePut_stays {s₀ : State} (s : State) (j : PmbJob) (hk : Stays s₀ s) : Stays s₀ (s.paramValuePut j) := by
  have k1 := State.writeIndex_stays s .pmb j.index (word (leAt j.bytes 1 4)) none hk
  unfold State.paramValuePut
  extract_lets y
  have k1 : Stays s₀ y.1 := k1
  clear_value y
  exact Stays.ite k1 (State.pmbRefuse_stays _ _ _ k1)

theorem State.runJob_stays {s₀ : State} (s : State) (j : PmbJob) (hk : Stays s₀ s) : Stays s₀ (s.runJob j) := by
  unfold State.runJob
  split
  · exact State.operationPut_stays s j hk
  · exact State.clearFaultsPut_stays s j hk
  · exact State.storeUserPut_stays s hk
  · exact State.voutCommandPut_stays s j hk
  · exact State.voutRatePut_stays s j hk
  · exact State.paramValuePut_stays s j hk
  · exact hk

theorem State.nextJob_stays {s₀ : State} (s : State) (hk : Stays s₀ s) : Stays s₀ (s.nextJob) := by
  unfold State.nextJob
  split
  · exact hk
  · exact State.runJob_stays _ _ (hk.same rfl)

theorem State.drain_stays {s₀ : State} (s : State) (l : List Req) (hk : Stays s₀ s) : Stays s₀ (s.drain l) := by
  induction l generalizing s with
  | nil => exact hk
  | cons r rest ih =>
    unfold State.drain
    extract_lets m t
    have k1 : Stays s₀ t := hk.same rfl
    clear_value t
    exact Stays.ite hk (Stays.ite (ih _ (State.nextJob_stays _ k1)) (Stays.ite hk (ih _ (State.refused_stays _ _ _ k1))))

theorem State.turnOver_stays {s₀ : State} (s : State) (hk : Stays s₀ s) : Stays s₀ (s.turnOver) := by
  unfold State.turnOver
  exact Stays.ite hk (State.drain_stays _ _ hk)

theorem State.pmbWrite_stays {s₀ : State} (s : State) (code : Nat) (bs : List Byte) (hk : Stays s₀ s) : Stays s₀ (s.pmbWrite code bs) := by
  have k1 := State.drain_stays s s.mb.queue hk
  unfold State.pmbWrite
  extract_lets j s1
  have k1 : Stays s₀ s1 := k1
  clear_value s1
  exact Stays.ite (State.runJob_stays _ _ k1) (k1.same rfl)

theorem State.serve_stays {s₀ : State} (s : State) (cmd : Nat) (boxes : Boxes) (narg : Nat → Bool)
    (body : Req → Slot64 → State → State) (hk : Stays s₀ s) (hb : ∀ r x t, Stays s₀ t → Stays s₀ (body r x t)) :
    Stays s₀ (s.serve cmd boxes narg body) := by
  have k1 := State.drain_stays s s.mb.queue hk
  unfold State.serve
  refine Stays.ite hk ?_
  extract_lets s1 jobs m
  have k1 : Stays s₀ s1 := k1
  clear_value s1
  split
  · exact k1
  · extract_lets x s2 t
    refine Stays.ite k1 ?_
    have k2 : Stays s₀ s2 := k1.same rfl
    clear_value s2
    have k3 : Stays s₀ t := Stays.ite (State.refused_stays _ _ _ k2) (hb _ _ _ k2)
    clear_value t
    exact Stays.ite k3 (State.drain_stays _ _ k3)

theorem State.deferStep_stays {s₀ : State} (s : State) (hk : Stays s₀ s) : Stays s₀ (State.deferStep s) := by
  unfold State.deferStep
  iterate 5 (
    repeat (first | with_reducible assumption | with_reducible apply Stays.ite | with_reducible apply Stays.foldl | with_reducible exact (rfl : _ = _) | intro _)
    all_goals (try ((with_reducible apply Stays.lit); (case h1 => exact rfl)))
    repeat (first | with_reducible assumption | with_reducible apply Stays.ite | with_reducible apply Stays.foldl | with_reducible exact (rfl : _ = _) | intro _)
    all_goals (try dsimp only))

theorem State.startRecord_stays {s₀ : State} (s : State) (hk : Stays s₀ s) : Stays s₀ (State.startRecord s) := by
  unfold State.startRecord
  iterate 5 (
    repeat (first | with_reducible assumption | with_reducible apply State.eraseAhead_stays | with_reducible apply State.makeRoom_stays | with_reducible apply Stays.ite | with_reducible apply Stays.foldl | with_reducible exact (rfl : _ = _) | intro _)
    all_goals (try ((with_reducible apply Stays.lit); (case h1 => exact rfl)))
    repeat (first | with_reducible assumption | with_reducible apply State.eraseAhead_stays | with_reducible apply State.makeRoom_stays | with_reducible apply Stays.ite | with_reducible apply Stays.foldl | with_reducible exact (rfl : _ = _) | intro _)
    all_goals (try dsimp only)
    all_goals (try split))

theorem State.routineTurns_stays {s₀ : State} (n : Nat) (s : State) (hk : Stays s₀ s) : Stays s₀ (State.routineTurns n s) := by
  induction n generalizing s with
  | zero => exact hk
  | succ n ih =>
    unfold State.routineTurns
    have kp (t : State) (h : Stays s₀ t) : Stays s₀ { t with nv := t.nv.popRoutine } := h.same rfl
    split
    · exact Stays.ite (Stays.ite (ih _ (kp _ hk)) (State.queueEntries_stays _ hk)) hk
    · exact ih _ (State.putBp_stays _ (kp _ hk))
    · exact hk

theorem State.routineTurn_stays {s₀ : State} (s : State) (hk : Stays s₀ s) : Stays s₀ (State.routineTurn s) :=
  State.routineTurns_stays _ _ hk

theorem State.startWork_stays {s₀ : State} (s : State) (w : Work) (hk : Stays s₀ s) : Stays s₀ (State.startWork s w) := by
  unfold State.startWork
  iterate 5 (
    repeat (first | with_reducible assumption | with_reducible apply State.startRecord_stays | with_reducible apply State.makeRoom_stays | with_reducible apply Stays.ite | with_reducible apply Stays.foldl | with_reducible exact (rfl : _ = _) | intro _)
    all_goals (try ((with_reducible apply Stays.lit); (case h1 => exact rfl)))
    repeat (first | with_reducible assumption | with_reducible apply State.startRecord_stays | with_reducible apply State.makeRoom_stays | with_reducible apply Stays.ite | with_reducible apply Stays.foldl | with_reducible exact (rfl : _ = _) | intro _)
    all_goals (try dsimp only)
    all_goals (try split))

theorem State.engineStep_stays {s₀ : State} (s : State) (hk : Stays s₀ s) : Stays s₀ (State.engineStep s) := by
  unfold State.engineStep
  iterate 5 (
    repeat (first | with_reducible assumption | with_reducible apply State.startWork_stays | with_reducible apply State.routineTurn_stays | with_reducible apply State.deferStep_stays | with_reducible apply Stays.ite | with_reducible apply Stays.foldl | with_reducible exact (rfl : _ = _) | intro _)
    all_goals (try ((with_reducible apply Stays.lit); (case h1 => exact rfl)))
    all_goals (try dsimp only)
    all_goals (try split))

theorem State.hostRecord_stays {s₀ : State} (s : State) (typ ident : Nat) (b : List Byte) (hk : Stays s₀ s) : Stays s₀ (State.hostRecord s typ ident b) := by
  unfold State.hostRecord
  iterate 5 (
    repeat (first | with_reducible assumption | with_reducible apply State.recordDone_stays | with_reducible apply State.putRecord_stays | with_reducible apply Stays.ite | with_reducible apply Stays.foldl | with_reducible exact (rfl : _ = _) | intro _))

theorem State.putRequest_stays {s₀ : State} (s : State) (r : CairnReq) (hk : Stays s₀ s) : Stays s₀ (State.putRequest s r) := by
  unfold State.putRequest
  iterate 5 (
    repeat (first | with_reducible assumption | with_reducible apply State.cairnPut_stays | with_reducible apply State.snapshotPayload_stays | with_reducible apply State.modCtx_stays | with_reducible apply Stays.ite | with_reducible apply Stays.foldl | with_reducible exact (rfl : _ = _) | intro _)
    all_goals (try ((with_reducible apply Stays.lit); (case h1 => exact rfl)))
    repeat (first | with_reducible assumption | with_reducible apply State.cairnPut_stays | with_reducible apply State.snapshotPayload_stays | with_reducible apply State.modCtx_stays | with_reducible apply Stays.ite | with_reducible apply Stays.foldl | with_reducible exact (rfl : _ = _) | intro _)
    all_goals (try dsimp only)
    all_goals (try split))

theorem State.cairnHead_stays {s₀ : State} (s : State) (hk : Stays s₀ s) : Stays s₀ (State.cairnHead s) := by
  unfold State.cairnHead
  iterate 5 (
    repeat (first | with_reducible assumption | with_reducible apply State.putRequest_stays | with_reducible apply State.freeItem_stays | with_reducible apply State.storeTo_stays | with_reducible apply State.retire_stays | with_reducible apply Stays.ite | with_reducible apply Stays.foldl | with_reducible exact (rfl : _ = _) | intro _)
    all_goals (try ((with_reducible apply Stays.lit); (case h1 => exact rfl)))
    repeat (first | with_reducible assumption | with_reducible apply State.putRequest_stays | with_reducible apply State.freeItem_stays | with_reducible apply State.storeTo_stays | with_reducible apply State.retire_stays | with_reducible apply Stays.ite | with_reducible apply Stays.foldl | with_reducible exact (rfl : _ = _) | intro _)
    all_goals (try dsimp only)
    all_goals (try split))

theorem State.calOutcome_stays {s₀ : State} (s : State) (t : CalTarget) (o : CalOut) (hk : Stays s₀ s) : Stays s₀ (State.calOutcome s t o) := by
  unfold State.calOutcome
  iterate 5 (
    repeat (first | with_reducible assumption | with_reducible apply State.calEnd_stays | with_reducible apply Stays.ite | with_reducible apply Stays.foldl | with_reducible exact (rfl : _ = _) | intro _)
    all_goals (try ((with_reducible apply Stays.lit); (case h1 => exact rfl)))
    repeat (first | with_reducible assumption | with_reducible apply State.calEnd_stays | with_reducible apply Stays.ite | with_reducible apply Stays.foldl | with_reducible exact (rfl : _ = _) | intro _)
    all_goals (try dsimp only)
    all_goals (try split))

theorem State.calAccept_stays {s₀ : State} (s : State) (t : CalTarget) (gain off : Int) (prov : Bool) (hk : Stays s₀ s) : Stays s₀ (State.calAccept s t gain off prov) := by
  unfold State.calAccept
  iterate 5 (
    repeat (first | with_reducible assumption | with_reducible apply State.commit_stays | with_reducible apply Stays.ite | with_reducible apply Stays.foldl | with_reducible exact (rfl : _ = _) | intro _)
    all_goals (try ((with_reducible apply Stays.lit); (case h1 => exact rfl)))
    all_goals (try split))

theorem State.cairnScan_stays {s₀ : State} (s : State) (hk : Stays s₀ s) : Stays s₀ (State.cairnScan s) := by
  unfold State.cairnScan
  iterate 5 (
    repeat (first | with_reducible assumption | with_reducible apply Stays.ite | with_reducible apply Stays.foldl | with_reducible exact (rfl : _ = _) | intro _)
    all_goals (try ((with_reducible apply Stays.lit); (case h1 => exact rfl)))
    repeat (first | with_reducible assumption | with_reducible apply Stays.ite | with_reducible apply Stays.foldl | with_reducible exact (rfl : _ = _) | intro _)
    all_goals (try dsimp only)
    all_goals (try split))

theorem State.haltHalves_stays {s₀ : State} (s : State) (hk : Stays s₀ s) : Stays s₀ (State.haltHalves s) := by
  unfold State.haltHalves
  iterate 5 (
    repeat (first | with_reducible assumption | with_reducible apply State.modHs_stays | with_reducible apply Stays.ite | with_reducible apply Stays.foldl | with_reducible exact (rfl : _ = _) | intro _))

theorem State.cutRecord_stays {s₀ : State} (s : State) (a : Area) (typ ident len : Nat) (payload : List Byte) (hk : Stays s₀ s) : Stays s₀ (State.cutRecord s a typ ident len payload) := by
  unfold State.cutRecord
  iterate 5 (
    all_goals (try ((with_reducible apply Stays.lit); (case h1 => exact rfl)))
    repeat (first | with_reducible assumption | with_reducible apply Stays.ite | with_reducible apply Stays.foldl | with_reducible exact (rfl : _ = _) | intro _))

theorem State.cutWork_stays {s₀ : State} (s : State) (hk : Stays s₀ s) : Stays s₀ (State.cutWork s) := by
  unfold State.cutWork
  iterate 5 (
    repeat (first | with_reducible assumption | with_reducible apply State.cutRecord_stays | with_reducible apply State.cairnHead_stays | with_reducible apply State.workDone_stays | with_reducible apply State.programEntry_stays | with_reducible apply Stays.ite | with_reducible apply Stays.foldl | with_reducible exact (rfl : _ = _) | intro _)
    all_goals (try ((with_reducible apply Stays.lit); (case h1 => exact rfl)))
    repeat (first | with_reducible assumption | with_reducible apply State.cutRecord_stays | with_reducible apply State.cairnHead_stays | with_reducible apply State.workDone_stays | with_reducible apply State.programEntry_stays | with_reducible apply Stays.ite | with_reducible apply Stays.foldl | with_reducible exact (rfl : _ = _) | intro _)
    all_goals (try dsimp only)
    all_goals (try split))

theorem State.place64_stays {s₀ : State} (s : State) (a : Area) (typ ident len : Nat) (payload : List Byte) (hk : Stays s₀ s) : Stays s₀ (s.place64 a typ ident len payload).1 := hk.same rfl

theorem State.placeCairn_stays {s₀ : State} (s : State) (typ ident len : Nat) (payload : List Byte) (hk : Stays s₀ s) : Stays s₀ (State.placeCairn s typ ident len payload).1 := by
  unfold State.placeCairn
  iterate 5 (
    all_goals (try ((with_reducible apply Stays.lit); (case h1 => exact rfl)))
    repeat (first | with_reducible assumption | with_reducible apply State.storeTo_stays | with_reducible apply Stays.ite | with_reducible apply Stays.foldl | with_reducible exact (rfl : _ = _) | intro _))

theorem State.gaspEntries_stays {s₀ : State} (s : State) (hk : Stays s₀ s) : ∀ t ∈ s.gaspEntries, Stays s₀ t.1 := by
  unfold State.gaspEntries
  split
  · intro t h; cases h
  · rename_i a rest e
    extract_lets v more b p l1 l2 u1 u2
    have k1 : Stays s₀ u1 := hk.same rfl
    have k2 : Stays s₀ u2 := Stays.ite k1 (State.modCtx_stays _ _ _ k1)
    clear_value u2
    intro t h; cases h; exact State.tallySub_stays _ _ _ k2

theorem State.gaspQueue_stays {s₀ : State} (s : State) (hk : Stays s₀ s) : ∀ t ∈ s.gaspQueue, Stays s₀ t.1 := by
  unfold State.gaspQueue
  split
  · intro t h; cases h
  · rename_i r rest e
    extract_lets n l1 u
    have k1 : Stays s₀ u := hk.same rfl
    clear_value u
    split
    · intro t h; cases h; exact State.placeCairn_stays _ _ _ _ _ (k1.same rfl)
    · rename_i k e2
      have kp := State.snapshotPayload_stays u ⟨r.source.val % 64, by omega⟩ k.val k1
      dsimp only
      generalize u.snapshotPayload ⟨r.source.val % 64, by omega⟩ k.val = p at kp ⊢
      intro t h; cases h; exact State.placeCairn_stays _ _ _ _ _ kp

theorem State.gaspClose_stays {s₀ : State} (s : State) (hk : Stays s₀ s) : ∀ t ∈ s.gaspClose, Stays s₀ t.1 := by
  unfold State.gaspClose
  split
  · intro t h; cases h
  · intro t h; cases h; exact State.placeCairn_stays _ _ _ _ _ (hk.same rfl)

theorem State.gaspStageNext_stays {s₀ : State} (s : State) (hk : Stays s₀ s) : Stays s₀ (State.gaspStageNext s) := by
  unfold State.gaspStageNext
  iterate 5 (
    all_goals (try ((with_reducible apply Stays.lit); (case h1 => exact rfl)))
    repeat (first | with_reducible assumption | with_reducible apply Stays.ite | with_reducible apply Stays.foldl | with_reducible exact (rfl : _ = _) | intro _))

theorem State.gaspNext_stays {s₀ : State} (n : Nat) (s : State) (hk : Stays s₀ s) : Stays s₀ (State.gaspNext n s).1 := by
  induction n generalizing s with
  | zero => exact hk
  | succ n ih =>
    unfold State.gaspNext
    extract_lets k o
    have kn (t : State × Nat × List Byte) (h : Stays s₀ t.1) (m : Option (State × Nat × List Byte)) (e : m = some t) : ∀ u ∈ m, Stays s₀ u.1 := by
      intro u hu; rw [e] at hu; cases hu; exact h
    have ko : ∀ t ∈ o, Stays s₀ t.1 := by
      unfold o
      split
      · split
        · intro t h; cases h
        · exact State.gaspEntries_stays s hk
      · split
        · intro t h; cases h
        · split
          · exact kn _ (State.place64_stays _ _ _ _ _ _ (State.gaspStageNext_stays s hk)) _ rfl
          · split
            · exact State.gaspQueue_stays s hk
            · split
              · exact State.gaspClose_stays s hk
              · split
                · exact kn _ (State.place64_stays _ _ _ _ _ _ (State.gaspStageNext_stays s hk)) _ rfl
                · intro t h; cases h
    clear_value o
    split
    · exact ko _ rfl
    · split
      · exact ih _ (State.gaspStageNext_stays s hk)
      · exact hk

theorem State.gaspCellStep_stays {s₀ : State} (s : State) (hk : Stays s₀ s) : Stays s₀ s.gaspCellStep := by
  unfold State.gaspCellStep
  extract_lets r
  have k1 : Stays s₀ r.1 := by
    unfold r
    split
    · exact hk
    · exact State.gaspNext_stays _ _ hk
  clear_value r
  split
  · exact k1
  · exact k1.same rfl

theorem State.coreLow_stays {s₀ : State} (s : State) (h : HalfId) (hk : Stays s₀ s) : Stays s₀ (State.coreLow s h) := by
  unfold State.coreLow
  iterate 5 (
    repeat (first | with_reducible assumption | with_reducible apply State.loseElig_stays | with_reducible apply Stays.ite | with_reducible apply Stays.foldl | with_reducible exact (rfl : _ = _) | intro _)
    all_goals (try ((with_reducible apply Stays.lit); (case h1 => exact rfl)))
    repeat (first | with_reducible assumption | with_reducible apply State.loseElig_stays | with_reducible apply Stays.ite | with_reducible apply Stays.foldl | with_reducible exact (rfl : _ = _) | intro _)
    all_goals (try split))

theorem State.retag_stays {s₀ : State} (s : State) (hk : Stays s₀ s) : Stays s₀ (State.retag s) := by
  unfold State.retag
  iterate 5 (
    all_goals (try ((with_reducible apply Stays.lit); (case h1 => exact rfl)))
    repeat (first | with_reducible assumption | with_reducible apply State.halves_stays | with_reducible apply Stays.ite | with_reducible apply Stays.foldl | with_reducible exact (rfl : _ = _) | intro _))

theorem State.bootHalf_stays {s₀ : State} (s : State) (h : HalfId) (pass : Bool) (hk : Stays s₀ s) : Stays s₀ (State.bootHalf s h pass) := by
  unfold State.bootHalf
  iterate 5 (
    repeat (first | with_reducible assumption | with_reducible apply State.bootSup_stays | with_reducible apply State.retire_stays | with_reducible apply State.modHs_stays | with_reducible apply Stays.ite | with_reducible apply Stays.foldl | with_reducible exact (rfl : _ = _) | intro _))

theorem State.reportTies_stays {s₀ : State} (s : State) (a : Area) (hk : Stays s₀ s) : Stays s₀ (State.reportTies s a) := by
  unfold State.reportTies
  iterate 5 (
    repeat (first | with_reducible assumption | with_reducible apply State.summary_stays | with_reducible apply State.event_stays | with_reducible apply Stays.ite | with_reducible apply Stays.foldl | with_reducible exact (rfl : _ = _) | intro _)
    all_goals (try ((with_reducible apply Stays.lit); (case h1 => exact rfl)))
    repeat (first | with_reducible assumption | with_reducible apply State.summary_stays | with_reducible apply State.event_stays | with_reducible apply Stays.ite | with_reducible apply Stays.foldl | with_reducible exact (rfl : _ = _) | intro _))

theorem State.calRestore_stays {s₀ : State} (s : State) (r : Rec) (hk : Stays s₀ s) : Stays s₀ (State.calRestore s r) := by
  unfold State.calRestore
  iterate 5 (
    repeat (first | with_reducible assumption | with_reducible apply State.modChan_stays | with_reducible apply State.modPh_stays | with_reducible apply State.modCtx_stays | with_reducible apply Stays.ite | with_reducible apply Stays.foldl | with_reducible exact (rfl : _ = _) | intro _)
    all_goals (try ((with_reducible apply Stays.lit); (case h1 => exact rfl)))
    all_goals (try dsimp only)
    all_goals (try split))

theorem State.restoreQ3_stays {s₀ : State} (s : State) (hk : Stays s₀ s) : Stays s₀ s.restoreQ3 := by
  unfold State.restoreQ3
  extract_lets l force cals s1 bp s2
  have k1 : Stays s₀ s1 := Stays.foldl hk (fun _ _ h => State.calRestore_stays _ _ h) _
  clear_value s1 bp
  have k2 : Stays s₀ s2 := State.setGlobForce_stays _ _ _ (State.setGlobNew_stays _ _ _ k1)
  clear_value s2
  exact k2.same rfl

theorem State.restoreQ2_stays {s₀ : State} (s : State) (hk : Stays s₀ s) : Stays s₀ s.restoreQ2 := by
  unfold State.restoreQ2
  have k0 := State.resetEntries_stays s hk
  generalize s.resetEntries = t at k0
  extract_lets d e s1
  have k1 : Stays s₀ s1 := by
    unfold s1
    split <;> exact k0.same rfl
  clear_value s1
  split
  · exact k1.same rfl
  · rename_i l stale _
    have k2 := State.restorePairs_stays s1 l k1
    exact Stays.ite (k2.same rfl) k2

theorem State.restoreEffects_stays {s₀ : State} (s old : State) (hk : Stays s₀ s) : Stays s₀ (State.restoreEffects s old) := by
  unfold State.restoreEffects
  extract_lets t f s1 now s2 s3
  have k1 : Stays s₀ s1 := State.modHs_stays _ _ _ (State.modHs_stays _ _ _ hk)
  clear_value s1
  have k3 : Stays s₀ s3 := k1.same rfl
  clear_value s3
  exact Stays.foldl (State.zoneFollow_stays _ (State.cragConfig_stays _ (State.tarnApply_stays _ _ (State.ftCfgApply_stays _ _ k3))))
    (fun _ _ h => State.tripFollow_stays _ _ h) _

theorem State.baseRestore_stays {s₀ : State} (s : State) (c : CtxId) (hk : Stays s₀ s) : Stays s₀ (State.baseRestore s c) := by
  unfold State.baseRestore
  iterate 5 (
    repeat (first | with_reducible assumption | with_reducible apply State.modCtx_stays | with_reducible apply Stays.ite | with_reducible apply Stays.foldl | with_reducible exact (rfl : _ = _) | intro _)
    all_goals (try ((with_reducible apply Stays.lit); (case h1 => exact rfl)))
    all_goals (try split))

theorem State.addEntry_stays {s₀ : State} (s : State) (a : Fin 128) (cls : Bool) (tseq : Nat) (v : Int) (hk : Stays s₀ s) : Stays s₀ (State.addEntry s a cls tseq v) := by
  unfold State.addEntry
  iterate 5 (
    repeat (first | with_reducible assumption | with_reducible apply State.modCtx_stays | with_reducible apply Stays.ite | with_reducible apply Stays.foldl | with_reducible exact (rfl : _ = _) | intro _))

theorem State.tornEntry_stays {s₀ : State} (s : State) (k : Nat) (hk : Stays s₀ s) : Stays s₀ (s.tornEntry k) := by
  unfold State.tornEntry
  dsimp only
  split
  · exact hk.same rfl
  · exact (State.openItem_stays _ _ _ _ _ _ hk).same rfl

theorem State.recoverTally_stays {s₀ : State} (s : State) (k : Nat) (hk : Stays s₀ s) : Stays s₀ (State.recoverTally s k) := by
  unfold State.recoverTally
  iterate 5 (
    repeat (first | with_reducible assumption | with_reducible apply State.tornEntry_stays | with_reducible apply State.addEntry_stays | with_reducible apply Stays.ite | with_reducible apply Stays.foldl | with_reducible exact (rfl : _ = _) | intro _)
    all_goals (try ((with_reducible apply Stays.lit); (case h1 => exact rfl)))
    all_goals (try split))

theorem State.recoverItem_stays {s₀ : State} (s : State) (k : Fin 32) (hk : Stays s₀ s) : Stays s₀ (State.recoverItem s k) := by
  unfold State.recoverItem
  iterate 5 (
    repeat (first | with_reducible assumption | with_reducible apply State.putRecord_stays | with_reducible apply Stays.ite | with_reducible apply Stays.foldl | with_reducible exact (rfl : _ = _) | intro _)
    all_goals (try ((with_reducible apply Stays.lit); (case h1 => exact rfl)))
    repeat (first | with_reducible assumption | with_reducible apply State.putRecord_stays | with_reducible apply Stays.ite | with_reducible apply Stays.foldl | with_reducible exact (rfl : _ = _) | intro _)
    all_goals (try dsimp only)
    all_goals (try split))

theorem State.loadRem_stays {s₀ : State} (s : State) (i : Nat) (r : Rec) (hk : Stays s₀ s) : Stays s₀ (State.loadRem s i r) := by
  unfold State.loadRem
  iterate 5 (
    repeat (first | with_reducible assumption | with_reducible apply State.halves_stays | with_reducible apply Stays.ite | with_reducible apply Stays.foldl | with_reducible exact (rfl : _ = _) | intro _))

theorem State.zeroRem_stays {s₀ : State} (s : State) (i : Nat) (hk : Stays s₀ s) : Stays s₀ (State.zeroRem s i) := by
  unfold State.zeroRem
  iterate 5 (
    repeat (first | with_reducible assumption | with_reducible apply State.halves_stays | with_reducible apply Stays.ite | with_reducible apply Stays.foldl | with_reducible exact (rfl : _ = _) | intro _))

theorem State.restoreRem_stays {s₀ : State} (s : State) (n i : Nat) (hk : Stays s₀ s) : Stays s₀ (State.restoreRem s n i) := by
  unfold State.restoreRem
  iterate 5 (
    repeat (first | with_reducible assumption | with_reducible apply State.zeroRem_stays | with_reducible apply State.loadRem_stays | with_reducible apply Stays.ite | with_reducible apply Stays.foldl | with_reducible exact (rfl : _ = _) | intro _)
    all_goals (try ((with_reducible apply Stays.lit); (case h1 => exact rfl)))
    all_goals (try split))

theorem State.openGap_stays {s₀ : State} (s : State) (run : Nat) (hk : Stays s₀ s) : Stays s₀ (State.openGap s run) := by
  unfold State.openGap
  iterate 5 (
    repeat (first | with_reducible assumption | with_reducible apply State.openItem_stays | with_reducible apply Stays.ite | with_reducible apply Stays.foldl | with_reducible exact (rfl : _ = _) | intro _)
    all_goals (try ((with_reducible apply Stays.lit); (case h1 => exact rfl)))
    repeat (first | with_reducible assumption | with_reducible apply State.openItem_stays | with_reducible apply Stays.ite | with_reducible apply Stays.foldl | with_reducible exact (rfl : _ = _) | intro _)
    all_goals (try split))

theorem State.runBracket_stays {s₀ : State} (s : State) (first : Bool) (hk : Stays s₀ s) : Stays s₀ (State.runBracket s first).1 := by
  unfold State.runBracket
  iterate 5 (
    repeat (first | with_reducible assumption | with_reducible apply State.openGap_stays | with_reducible apply State.restoreRem_stays | with_reducible apply State.zeroRem_stays | with_reducible apply State.openItem_stays | with_reducible apply Stays.ite | with_reducible apply Stays.foldl | with_reducible exact (rfl : _ = _) | intro _)
    all_goals (try ((with_reducible apply Stays.lit); (case h1 => exact rfl)))
    all_goals (try dsimp only)
    all_goals (try split))

theorem State.recoverLedger_stays {s₀ : State} (s : State) (hk : Stays s₀ s) : Stays s₀ (State.recoverLedger s) := by
  unfold State.recoverLedger
  iterate 5 (
    all_goals (try ((with_reducible apply Stays.lit); (case h1 => exact rfl)))
    repeat (first | with_reducible assumption | with_reducible apply State.runBracket_stays | with_reducible apply State.recoverItem_stays | with_reducible apply State.recoverTally_stays | with_reducible apply State.baseRestore_stays | with_reducible apply State.putRecord_stays | with_reducible apply Stays.ite | with_reducible apply Stays.foldl | with_reducible exact (rfl : _ = _) | intro _)
    all_goals (try dsimp only))

theorem State.readRun_stays {s₀ : State} (s : State) (i : Iface) (n idx : Nat) (acc : List Word) (hk : Stays s₀ s) :
    Stays s₀ (s.readRun i n idx acc).1 := by
  induction n generalizing s idx acc with
  | zero => exact hk
  | succ n ih =>
    unfold State.readRun
    have k1 := State.readIndex_stays s i idx hk
    extract_lets x
    have k1 : Stays s₀ x.1 := k1
    clear_value x
    split
    · exact ih _ _ _ k1
    · exact k1

theorem State.writeRun'_stays {s₀ : State} (s : State) (r : Req) (ws : List Word) (idx done : Nat) (hk : Stays s₀ s) :
    Stays s₀ (s.writeRun' r ws idx done).1 := by
  induction ws generalizing s idx done with
  | nil => exact hk
  | cons w ws ih =>
    unfold State.writeRun'
    have k1 := State.writeIndex_stays s r.box idx w (some r) hk
    extract_lets x
    have k1 : Stays s₀ x.1 := k1
    clear_value x
    split
    · exact ih _ _ _ k1
    · exact k1

theorem State.postEvent_stays {s₀ : State} (s : State) (c : CtxId) (e : Event) (late : Bool) (hk : Stays s₀ s) : Stays s₀ (State.postEvent s c e late) := by
  unfold State.postEvent
  iterate 5 (
    repeat (first | with_reducible assumption | with_reducible apply State.modSched_stays | with_reducible apply State.commit_stays | with_reducible apply Stays.ite | with_reducible apply Stays.foldl | with_reducible exact (rfl : _ = _) | intro _))

theorem State.post_stays {s₀ : State} (s : State) (w0 w1 w2 w3 : Word) (hk : Stays s₀ s) : Stays s₀ (State.post s w0 w1 w2 w3).1 := by
  unfold State.post
  iterate 5 (
    repeat (first | with_reducible assumption | with_reducible apply State.postEvent_stays | with_reducible apply State.take_stays | with_reducible apply Stays.ite | with_reducible apply Stays.foldl | with_reducible exact (rfl : _ = _) | intro _)
    all_goals (try ((with_reducible apply Stays.lit); (case h1 => exact rfl)))
    all_goals (try dsimp only)
    all_goals (try split))

theorem State.cancelEvent_stays {s₀ : State} (s : State) (c : CtxId) (e : Event) (hk : Stays s₀ s) : Stays s₀ (State.cancelEvent s c e) := by
  unfold State.cancelEvent
  iterate 5 (
    repeat (first | with_reducible assumption | with_reducible apply State.modChan_stays | with_reducible apply State.modSched_stays | with_reducible apply Stays.ite | with_reducible apply Stays.foldl | with_reducible exact (rfl : _ = _) | intro _))

theorem State.fwEnd_stays {s₀ : State} (s : State) (code : Nat) (hk : Stays s₀ s) : Stays s₀ (State.fwEnd s code) := by
  unfold State.fwEnd
  iterate 5 (
    repeat (first | with_reducible assumption | with_reducible apply State.event_stays | with_reducible apply Stays.ite | with_reducible apply Stays.foldl | with_reducible exact (rfl : _ = _) | intro _)
    all_goals (try ((with_reducible apply Stays.lit); (case h1 => exact rfl)))
    repeat (first | with_reducible assumption | with_reducible apply State.event_stays | with_reducible apply Stays.ite | with_reducible apply Stays.foldl | with_reducible exact (rfl : _ = _) | intro _))

theorem State.irTake_stays {s₀ : State} (s : State) (code : Byte) (hk : Stays s₀ s) : Stays s₀ (State.irTake s code) := by
  unfold State.irTake
  iterate 5 (
    all_goals (try ((with_reducible apply Stays.lit); (case h1 => exact rfl)))
    repeat (first | with_reducible assumption | with_reducible apply Stays.ite | with_reducible apply Stays.foldl | with_reducible exact (rfl : _ = _) | intro _))

theorem State.boundaryScan_stays {s₀ : State} (s : State) (code : Byte) (scan : List Bool) (hk : Stays s₀ s) : Stays s₀ (State.boundaryScan s code scan) := by
  unfold State.boundaryScan
  iterate 5 (
    all_goals (try ((with_reducible apply Stays.lit); (case h1 => exact rfl)))
    repeat (first | with_reducible assumption | with_reducible apply Stays.ite | with_reducible apply Stays.foldl | with_reducible exact (rfl : _ = _) | intro _))

theorem State.bypassScan_stays {s₀ : State} (s : State) (code : Byte) (scan : List Bool) (hk : Stays s₀ s) : Stays s₀ (State.bypassScan s code scan) := by
  unfold State.bypassScan
  iterate 5 (
    all_goals (try ((with_reducible apply Stays.lit); (case h1 => exact rfl)))
    repeat (first | with_reducible assumption | with_reducible apply State.take_stays | with_reducible apply Stays.ite | with_reducible apply Stays.foldl | with_reducible exact (rfl : _ = _) | intro _))

theorem State.loadEnd_stays {s₀ : State} (s : State) (code : Nat) (hk : Stays s₀ s) : Stays s₀ (State.loadEnd s code) := by
  unfold State.loadEnd
  iterate 5 (
    all_goals (try ((with_reducible apply Stays.lit); (case h1 => exact rfl)))
    repeat (first | with_reducible assumption | with_reducible apply Stays.ite | with_reducible apply Stays.foldl | with_reducible exact (rfl : _ = _) | intro _))

theorem State.loadStart_stays {s₀ : State} (s : State) (w : Word) (hk : Stays s₀ s) : Stays s₀ (s.loadStart w) := by
  unfold State.loadStart
  extract_lets l1 s1
  have k1 : Stays s₀ s1 := hk.same rfl
  clear_value s1
  split
  · exact State.loadEnd_stays _ _ k1
  · refine Stays.ite (State.loadEnd_stays _ _ k1) (k1.same rfl)

theorem State.loadWord_stays {s₀ : State} (s : State) (h : HalfId) (w : Word) (hk : Stays s₀ s) : Stays s₀ (s.loadWord h w) := by
  unfold State.loadWord
  extract_lets b j n l1 s1
  have k1 : Stays s₀ s1 := hk.same rfl
  clear_value s1
  exact Stays.ite (State.loadEnd_stays _ _ (k1.same rfl)) k1

theorem State.debugResult_stays {s₀ : State} (s : State) (n : Nat) (hk : Stays s₀ s) : Stays s₀ (State.debugResult s n) := by
  unfold State.debugResult
  iterate 5 (
    all_goals (try ((with_reducible apply Stays.lit); (case h1 => exact rfl)))
    repeat (first | with_reducible assumption | with_reducible apply Stays.ite | with_reducible apply Stays.foldl | with_reducible exact (rfl : _ = _) | intro _))

theorem State.freezeHalf_stays {s₀ : State} (s : State) (h : HalfId) (hk : Stays s₀ s) : Stays s₀ (State.freezeHalf s h) := by
  unfold State.freezeHalf
  iterate 5 (
    repeat (first | with_reducible assumption | with_reducible apply State.debugResult_stays | with_reducible apply State.loseElig_stays | with_reducible apply Stays.ite | with_reducible apply Stays.foldl | with_reducible exact (rfl : _ = _) | intro _))

theorem State.debugDo_stays {s₀ : State} (s : State) (h : HalfId) (q : DebugReq) (hk : Stays s₀ s) : Stays s₀ (s.debugDo h q) := by
  cases q
  all_goals first
    | exact State.freezeHalf_stays _ _ hk
    | exact State.debugResult_stays _ _ (State.modHs_stays _ _ _ hk)
    | exact State.turnOver_stays _ (State.debugResult_stays _ _ (State.modHs_stays _ _ _ hk))
    | exact Stays.ite (State.debugResult_stays _ _ hk) (State.debugResult_stays _ _ hk)

theorem State.debug_stays {s₀ : State} (s : State) (w : Word) (r : DebugReq) (hk : Stays s₀ s) : Stays s₀ (s.debug w r) := by
  have k1 := State.irTake_stays s 0xB0 hk
  unfold State.debug
  extract_lets s1
  refine Stays.ite k1 ?_
  split
  · exact State.debugResult_stays _ _ k1
  · exact Stays.ite (State.debugDo_stays _ _ _ k1) k1

theorem State.judgeTarn_stays {s₀ : State} (s : State) (c : CtxId) (hk : Stays s₀ s) : Stays s₀ (State.judgeTarn s c) := by
  unfold State.judgeTarn
  iterate 5 (
    repeat (first | with_reducible assumption | with_reducible apply State.answer_stays | with_reducible apply State.modCtx_stays | with_reducible apply Stays.ite | with_reducible apply Stays.foldl | with_reducible exact (rfl : _ = _) | intro _)
    all_goals (try ((with_reducible apply Stays.lit); (case h1 => exact rfl)))
    all_goals (try dsimp only)
    all_goals (try split))

theorem State.vmeasAll_stays {s₀ : State} (s : State) (c : CtxId) (hk : Stays s₀ s) : Stays s₀ (State.vmeasAll s c) := by
  unfold State.vmeasAll
  iterate 5 (
    repeat (first | with_reducible assumption | with_reducible apply State.holdWords_stays | with_reducible apply State.halves_stays | with_reducible apply Stays.ite | with_reducible apply Stays.foldl | with_reducible exact (rfl : _ = _) | intro _))

theorem State.beginReg_stays {s₀ : State} (s : State) (c : CtxId) (hk : Stays s₀ s) : Stays s₀ (State.beginReg s c) := by
  unfold State.beginReg
  iterate 5 (
    repeat (first | with_reducible assumption | with_reducible apply State.halves_stays | with_reducible apply State.modPh_stays | with_reducible apply State.modCtx_stays | with_reducible apply Stays.ite | with_reducible apply Stays.foldl | with_reducible exact (rfl : _ = _) | intro _))

theorem State.begin_stays {s₀ : State} (s : State) (c : CtxId) (hk : Stays s₀ s) : Stays s₀ (State.begin s c) := by
  unfold State.begin
  iterate 5 (
    repeat (first | with_reducible assumption | with_reducible apply State.beginReg_stays | with_reducible apply State.onCmd_stays | with_reducible apply Stays.ite | with_reducible apply Stays.foldl | with_reducible exact (rfl : _ = _) | intro _))

theorem State.unavailable_stays {s₀ : State} (s : State) (c : CtxId) (hk : Stays s₀ s) : Stays s₀ (State.unavailable s c) := by
  unfold State.unavailable
  iterate 5 (
    repeat (first | with_reducible assumption | with_reducible apply State.declareCtx_stays | with_reducible apply State.stopReg_stays | with_reducible apply Stays.ite | with_reducible apply Stays.foldl | with_reducible exact (rfl : _ = _) | intro _))

theorem State.lawAll_stays {s₀ : State} (s : State) (c : CtxId) (en : Entry) (iff : Iff) (hk : Stays s₀ s) : Stays s₀ (State.lawAll s c en iff) := by
  unfold State.lawAll
  iterate 5 (
    repeat (first | with_reducible assumption | with_reducible apply State.holdWords_stays | with_reducible apply State.modCtx_stays | with_reducible apply Stays.ite | with_reducible apply Stays.foldl | with_reducible exact (rfl : _ = _) | intro _)
    all_goals (try ((with_reducible apply Stays.lit); (case h1 => exact rfl)))
    repeat (first | with_reducible assumption | with_reducible apply State.holdWords_stays | with_reducible apply State.modCtx_stays | with_reducible apply Stays.ite | with_reducible apply Stays.foldl | with_reducible exact (rfl : _ = _) | intro _))

theorem State.ringStep_stays {s₀ : State} (s : State) (c : CtxId) (hk : Stays s₀ s) : Stays s₀ (State.ringStep s c) := by
  unfold State.ringStep
  iterate 5 (
    repeat (first | with_reducible assumption | with_reducible apply State.halves_stays | with_reducible apply State.modCtx_stays | with_reducible apply Stays.ite | with_reducible apply Stays.foldl | with_reducible exact (rfl : _ = _) | intro _))

theorem State.shedStep_stays {s₀ : State} (s : State) (c : CtxId) (hk : Stays s₀ s) : Stays s₀ (State.shedStep s c) := by
  unfold State.shedStep
  iterate 5 (
    repeat (first | with_reducible assumption | with_reducible apply State.setNAct_stays | with_reducible apply State.halves_stays | with_reducible apply State.modCtx_stays | with_reducible apply Stays.ite | with_reducible apply Stays.foldl | with_reducible exact (rfl : _ = _) | intro _))

theorem State.startHeld_stays {s₀ : State} (s : State) (c : CtxId) (p : PhaseId) (hk : Stays s₀ s) : Stays s₀ (State.startHeld s c p) := by
  unfold State.startHeld
  iterate 5 (
    repeat (first | with_reducible assumption | with_reducible apply State.followStart_stays | with_reducible apply State.halves_stays | with_reducible apply Stays.ite | with_reducible apply Stays.foldl | with_reducible exact (rfl : _ = _) | intro _))

theorem State.dropNow_stays {s₀ : State} (s : State) (c : CtxId) (hk : Stays s₀ s) : Stays s₀ (State.dropNow s c) := by
  unfold State.dropNow
  iterate 5 (
    repeat (first | with_reducible assumption | with_reducible apply State.dropHeld_stays | with_reducible apply State.halves_stays | with_reducible apply Stays.ite | with_reducible apply Stays.foldl | with_reducible exact (rfl : _ = _) | intro _))

theorem State.passPhase_stays {s₀ : State} (s : State) (c : CtxId) (hk : Stays s₀ s) : Stays s₀ (State.passPhase s c) := by
  unfold State.passPhase
  iterate 5 (
    repeat (first | with_reducible assumption | with_reducible apply State.dropNow_stays | with_reducible apply State.startHeld_stays | with_reducible apply State.halves_stays | with_reducible apply State.modCtx_stays | with_reducible apply Stays.ite | with_reducible apply Stays.foldl | with_reducible exact (rfl : _ = _) | intro _)
    all_goals (try ((with_reducible apply Stays.lit); (case h1 => exact rfl)))
    all_goals (try dsimp only)
    all_goals (try split))

theorem State.passExit_stays {s₀ : State} (s : State) (c : CtxId) (hk : Stays s₀ s) : Stays s₀ (State.passExit s c) := by
  unfold State.passExit
  iterate 5 (
    repeat (first | with_reducible assumption | with_reducible apply State.dropNow_stays | with_reducible apply State.modCtx_stays | with_reducible apply Stays.ite | with_reducible apply Stays.foldl | with_reducible exact (rfl : _ = _) | intro _))

theorem State.formPhaseStatus_stays {s₀ : State} (s : State) (c : CtxId) (hk : Stays s₀ s) : Stays s₀ (State.formPhaseStatus s c) := by
  unfold State.formPhaseStatus
  iterate 5 (
    repeat (first | with_reducible assumption | with_reducible apply State.modCtx_stays | with_reducible apply Stays.ite | with_reducible apply Stays.foldl | with_reducible exact (rfl : _ = _) | intro _))

theorem State.formClass_stays {s₀ : State} (s : State) (c : CtxId) (hk : Stays s₀ s) : Stays s₀ (State.formClass s c) := by
  unfold State.formClass
  iterate 5 (
    repeat (first | with_reducible assumption | with_reducible apply State.event_stays | with_reducible apply State.modCtx_stays | with_reducible apply Stays.ite | with_reducible apply Stays.foldl | with_reducible exact (rfl : _ = _) | intro _))

theorem State.timers_stays {s₀ : State} (s : State) (c : CtxId) (hk : Stays s₀ s) : Stays s₀ (State.timers s c).1 := by
  unfold State.timers
  iterate 5 (
    repeat (first | with_reducible assumption | with_reducible apply State.modPh_stays | with_reducible apply State.modCtx_stays | with_reducible apply Stays.ite | with_reducible apply Stays.foldl | with_reducible exact (rfl : _ = _) | intro _))

theorem State.shedOc_stays {s₀ : State} (s : State) (c : CtxId) (ps : List PhaseId) (hk : Stays s₀ s) : Stays s₀ (State.shedOc s c ps) := by
  unfold State.shedOc
  iterate 5 (
    repeat (first | with_reducible assumption | with_reducible apply State.modPh_stays | with_reducible apply Stays.ite | with_reducible apply Stays.foldl | with_reducible exact (rfl : _ = _) | intro _))

theorem State.faultStep_stays {s₀ : State} (s : State) (c : CtxId) (hk : Stays s₀ s) : Stays s₀ (State.faultStep s c).1 := by
  unfold State.faultStep
  iterate 5 (
    repeat (first | with_reducible assumption | with_reducible apply State.shedOc_stays | with_reducible apply State.timers_stays | with_reducible apply State.declareCtx_stays | with_reducible apply Stays.ite | with_reducible apply Stays.foldl | with_reducible exact (rfl : _ = _) | intro _))

theorem State.pgStep_stays {s₀ : State} (s : State) (c : CtxId) (was starts runs : Bool) (hk : Stays s₀ s) : Stays s₀ (State.pgStep s c was starts runs) := by
  unfold State.pgStep
  iterate 5 (
    repeat (first | with_reducible assumption | with_reducible apply State.pgDrop_stays | with_reducible apply State.event_stays | with_reducible apply State.modCtx_stays | with_reducible apply Stays.ite | with_reducible apply Stays.foldl | with_reducible exact (rfl : _ = _) | intro _))

theorem State.rundownPark_stays {s₀ : State} (s : State) (c : CtxId) (hk : Stays s₀ s) : Stays s₀ (State.rundownPark s c) := by
  unfold State.rundownPark
  iterate 5 (
    repeat (first | with_reducible assumption | with_reducible apply State.stopReg_stays | with_reducible apply Stays.ite | with_reducible apply Stays.foldl | with_reducible exact (rfl : _ = _) | intro _))

theorem State.closeBoundary_stays {s₀ : State} (s : State) (c : CtxId) (hk : Stays s₀ s) : Stays s₀ (State.closeBoundary s c) := by
  unfold State.closeBoundary
  iterate 5 (
    repeat (first | with_reducible assumption | with_reducible apply State.noteSched_stays | with_reducible apply State.halves_stays | with_reducible apply State.modPh_stays | with_reducible apply State.modCtx_stays | with_reducible apply Stays.ite | with_reducible apply Stays.foldl | with_reducible exact (rfl : _ = _) | intro _))

theorem State.probeDisturb_stays {s₀ : State} (s : State) (c : CtxId) (redirect : Bool) (hk : Stays s₀ s) : Stays s₀ (State.probeDisturb s c redirect) := by
  unfold State.probeDisturb
  split
  · exact State.modProbe_stays _ _ _ hk
  · exact hk

theorem State.regulate_stays {s₀ : State} (s : State) (c : CtxId) (hk : Stays s₀ s) : Stays s₀ (State.regulate s c) := by
  unfold State.regulate
  iterate 5 (
    repeat (first | with_reducible assumption | with_reducible apply State.probeDisturb_stays | with_reducible apply State.passExit_stays | with_reducible apply State.passPhase_stays | with_reducible apply State.shedStep_stays | with_reducible apply State.ringStep_stays | with_reducible apply State.lawAll_stays | with_reducible apply State.judgeTarn_stays | with_reducible apply State.endEvents_stays | with_reducible apply State.formFloors_stays | with_reducible apply State.schedStep_stays | with_reducible apply State.formTarget_stays | with_reducible apply State.formE_stays | with_reducible apply State.preAct_stays | with_reducible apply State.traceStep_stays | with_reducible apply State.probeAfter_stays | with_reducible apply State.probeInject_stays | with_reducible apply State.probePause_stays | with_reducible apply State.modCtx_stays | with_reducible apply Stays.ite | with_reducible apply Stays.foldl | with_reducible exact (rfl : _ = _) | intro _))

theorem State.judgeBoundary_stays {s₀ : State} (s : State) (c : CtxId) (hk : Stays s₀ s) : Stays s₀ (State.judgeBoundary s c) := by
  unfold State.judgeBoundary
  iterate 5 (
    repeat (first | with_reducible assumption | with_reducible apply State.rundownPark_stays | with_reducible apply State.pgStep_stays | with_reducible apply State.faultStep_stays | with_reducible apply State.formPhaseStatus_stays | with_reducible apply State.modCtx_stays | with_reducible apply Stays.ite | with_reducible apply Stays.foldl | with_reducible exact (rfl : _ = _) | intro _))

theorem State.contextStep_stays {s₀ : State} (s : State) (c : CtxId) (hk : Stays s₀ s) : Stays s₀ (State.contextStep s c) := by
  unfold State.contextStep
  iterate 5 (
    repeat (first | with_reducible assumption | with_reducible apply State.judgeBoundary_stays | with_reducible apply State.regulate_stays | with_reducible apply State.formPhaseStatus_stays | with_reducible apply State.unavailable_stays | with_reducible apply State.begin_stays | with_reducible apply State.vmeasAll_stays | with_reducible apply State.judgeTarn_stays | with_reducible apply State.schedIdle_stays | with_reducible apply State.stopReg_stays | with_reducible apply Stays.ite | with_reducible apply Stays.foldl | with_reducible exact (rfl : _ = _) | intro _))

theorem State.lostPhases_stays {s₀ : State} (s : State) (c : CtxId) (hk : Stays s₀ s) : Stays s₀ (State.lostPhases s c) := by
  unfold State.lostPhases
  iterate 5 (
    repeat (first | with_reducible assumption | with_reducible apply State.stopReg_stays | with_reducible apply State.offCmd_stays | with_reducible apply Stays.ite | with_reducible apply Stays.foldl | with_reducible exact (rfl : _ = _) | intro _))

theorem State.inputFaults_stays {s₀ : State} (s : State) (hk : Stays s₀ s) : Stays s₀ (State.inputFaults s) := by
  unfold State.inputFaults
  iterate 5 (
    repeat (first | with_reducible assumption | with_reducible apply State.declareCtx_stays | with_reducible apply State.modCtx_stays | with_reducible apply Stays.ite | with_reducible apply Stays.foldl | with_reducible exact (rfl : _ = _) | intro _))

theorem State.inputRing_stays {s₀ : State} (s : State) (hk : Stays s₀ s) : Stays s₀ (State.inputRing s) := by
  unfold State.inputRing
  iterate 5 (
    repeat (first | with_reducible assumption | with_reducible apply State.halves_stays | with_reducible apply State.modCtx_stays | with_reducible apply Stays.ite | with_reducible apply Stays.foldl | with_reducible exact (rfl : _ = _) | intro _))

theorem State.inputStep_stays {s₀ : State} (s : State) (hk : Stays s₀ s) : Stays s₀ (State.inputStep s) := by
  unfold State.inputStep
  iterate 5 (
    repeat (first | with_reducible assumption | with_reducible apply State.traceStep_stays | with_reducible apply State.inputRing_stays | with_reducible apply State.inputFaults_stays | with_reducible apply State.formPhaseStatus_stays | with_reducible apply State.vmeasAll_stays | with_reducible apply State.modCtx_stays | with_reducible apply Stays.ite | with_reducible apply Stays.foldl | with_reducible exact (rfl : _ = _) | intro _))

theorem State.boundary_stays {s₀ : State} (s : State) (c : CtxId) (hk : Stays s₀ s) : Stays s₀ (State.boundary s c) := by
  unfold State.boundary
  iterate 5 (
    repeat (first | with_reducible assumption | with_reducible apply State.inputStep_stays | with_reducible apply State.lostPhases_stays | with_reducible apply State.contextStep_stays | with_reducible apply State.closeBoundary_stays | with_reducible apply State.formClass_stays | with_reducible apply State.rebind_stays | with_reducible apply Stays.ite | with_reducible apply Stays.foldl | with_reducible exact (rfl : _ = _) | intro _))

theorem State.ftArrives_stays {s₀ : State} (s : State) (c : CtxId) (e : BcastErr) (hk : Stays s₀ s) : Stays s₀ (State.ftArrives s c e) := by
  unfold State.ftArrives
  iterate 5 (
    repeat (first | with_reducible assumption | with_reducible apply State.toPorts_stays | with_reducible apply State.bcast_stays | with_reducible apply Stays.ite | with_reducible apply Stays.foldl | with_reducible exact (rfl : _ = _) | intro _))

theorem State.nack_stays {s₀ : State} (s : State) (hk : Stays s₀ s) : Stays s₀ (State.nack s) := by
  unfold State.nack
  iterate 5 (
    all_goals (try ((with_reducible apply Stays.lit); (case h1 => exact rfl)))
    repeat (first | with_reducible assumption | with_reducible apply State.answer_stays | with_reducible apply Stays.ite | with_reducible apply Stays.foldl | with_reducible exact (rfl : _ = _) | intro _))

theorem State.ack_stays {s₀ : State} (s : State) (hk : Stays s₀ s) : Stays s₀ (State.ack s) := by
  unfold State.ack
  iterate 5 (
    all_goals (try ((with_reducible apply Stays.lit); (case h1 => exact rfl)))
    repeat (first | with_reducible assumption | with_reducible apply State.answer_stays | with_reducible apply Stays.ite | with_reducible apply Stays.foldl | with_reducible exact (rfl : _ = _) | intro _))

theorem State.pmbInvalid_stays {s₀ : State} (s : State) (hk : Stays s₀ s) : Stays s₀ (State.pmbInvalid s) := by
  unfold State.pmbInvalid
  iterate 5 (
    repeat (first | with_reducible assumption | with_reducible apply State.cml_stays | with_reducible apply State.nack_stays | with_reducible apply Stays.ite | with_reducible apply Stays.foldl | with_reducible exact (rfl : _ = _) | intro _))

theorem State.reply_stays {s₀ : State} (s : State) (code : Nat) (bs : List Byte) (hk : Stays s₀ s) : Stays s₀ (State.reply s code bs) := by
  unfold State.reply
  iterate 5 (
    all_goals (try ((with_reducible apply Stays.lit); (case h1 => exact rfl)))
    repeat (first | with_reducible assumption | with_reducible apply State.answer_stays | with_reducible apply Stays.ite | with_reducible apply Stays.foldl | with_reducible exact (rfl : _ = _) | intro _))

theorem State.transact_stays {s₀ : State} (s : State) (code : Nat) (x : PmbXfer) (bytes : Nat) (rd : State → State)
    (wr : List Byte → State → State) (hk : Stays s₀ s) (hr : ∀ t, Stays s₀ t → Stays s₀ (rd t))
    (hw : ∀ b t, Stays s₀ t → Stays s₀ (wr b t)) : Stays s₀ (s.transact code x bytes rd wr) := by
  unfold State.transact
  refine Stays.ite (State.nack_stays _ hk) ?_
  split
  · exact hr _ hk
  · refine Stays.ite (Stays.ite (State.nack_stays _ (State.cml_stays _ _ hk)) (State.ack_stays _ (State.cml_stays _ _ hk))) ?_
    exact Stays.ite (State.nack_stays _ hk) (hw _ _ (State.ack_stays _ hk))

theorem State.readOnly_stays {s₀ : State} (s : State) (code : Nat) (x : PmbXfer) (bytes : Nat) (rd : State → State) (hk : Stays s₀ s)
    (hr : ∀ t, Stays s₀ t → Stays s₀ (rd t)) : Stays s₀ (s.readOnly code x bytes rd) :=
  State.transact_stays _ _ _ _ _ _ hk hr (fun _ _ h => State.pmbRefuse_stays _ _ _ h)

theorem State.sendByte_stays {s₀ : State} (s : State) (code : Nat) (x : PmbXfer) (act : State → State) (hk : Stays s₀ s)
    (ha : ∀ t, Stays s₀ t → Stays s₀ (act t)) : Stays s₀ (s.sendByte code x act) :=
  State.transact_stays _ _ _ _ _ _ hk (fun _ h => State.pmbInvalid_stays _ h) (fun _ _ h => ha _ h)

theorem State.paged_stays {s₀ : State} (s : State) (code bytes : Nat) (f : State → CtxId → List Byte) (hk : Stays s₀ s) :
    Stays s₀ (s.paged code bytes f) := by
  unfold State.paged
  refine Stays.ite (State.pmbInvalid_stays _ hk) ?_
  split <;> exact State.reply_stays _ _ _ hk

theorem State.railOpen_stays {s₀ : State} (s : State) (c : CtxId) (full : Bool) (hk : Stays s₀ s) : Stays s₀ (State.railOpen s c full) := by
  unfold State.railOpen
  iterate 5 (
    repeat (first | with_reducible assumption | with_reducible apply State.declareCtx_stays | with_reducible apply State.modCtx_stays | with_reducible apply Stays.ite | with_reducible apply Stays.foldl | with_reducible exact (rfl : _ = _) | intro _))

theorem State.railCode_stays {s₀ : State} (s : State) (c : CtxId) (code : Nat) (hk : Stays s₀ s) : Stays s₀ (State.railCode s c code) := by
  unfold State.railCode
  iterate 5 (
    repeat (first | with_reducible assumption | with_reducible apply State.take_stays | with_reducible apply State.modCtx_stays | with_reducible apply Stays.ite | with_reducible apply Stays.foldl | with_reducible exact (rfl : _ = _) | intro _))

theorem State.formIsw_stays {s₀ : State} (s : State) (c : CtxId) (raw : Int) (hk : Stays s₀ s) : Stays s₀ (State.formIsw s c raw) := by
  unfold State.formIsw
  iterate 5 (
    repeat (first | with_reducible assumption | with_reducible apply State.modCtx_stays | with_reducible apply Stays.ite | with_reducible apply Stays.foldl | with_reducible exact (rfl : _ = _) | intro _))

theorem State.ledgerStep_stays {s₀ : State} (s : State) (c : CtxId) (hk : Stays s₀ s) : Stays s₀ (State.ledgerStep s c) := by
  unfold State.ledgerStep
  iterate 5 (
    repeat (first | with_reducible assumption | with_reducible apply State.halves_stays | with_reducible apply State.modCtx_stays | with_reducible apply Stays.ite | with_reducible apply Stays.foldl | with_reducible exact (rfl : _ = _) | intro _)
    all_goals (try ((with_reducible apply Stays.lit); (case h1 => exact rfl)))
    all_goals (try split))

theorem State.confirmStep_stays {s₀ : State} (s : State) (c : CtxId) (hk : Stays s₀ s) : Stays s₀ (State.confirmStep s c) := by
  unfold State.confirmStep
  iterate 5 (
    repeat (first | with_reducible assumption | with_reducible apply State.modSched_stays | with_reducible apply Stays.ite | with_reducible apply Stays.foldl | with_reducible exact (rfl : _ = _) | intro _))

theorem State.declareCause_stays {s₀ : State} (s : State) (c : CtxId) (hk : Stays s₀ s) : Stays s₀ (State.declareCause s c) := by
  unfold State.declareCause
  iterate 5 (
    repeat (first | with_reducible assumption | with_reducible apply State.declareChan_stays | with_reducible apply State.modChan_stays | with_reducible apply Stays.ite | with_reducible apply Stays.foldl | with_reducible exact (rfl : _ = _) | intro _)
    all_goals (try ((with_reducible apply Stays.lit); (case h1 => exact rfl)))
    all_goals (try split))

theorem State.shuntOpen_stays {s₀ : State} (s : State) (c : CtxId) (full : Bool) (hk : Stays s₀ s) : Stays s₀ (State.shuntOpen s c full) := by
  unfold State.shuntOpen
  iterate 5 (
    repeat (first | with_reducible assumption | with_reducible apply State.declareChan_stays | with_reducible apply State.modChan_stays | with_reducible apply State.modCtx_stays | with_reducible apply Stays.ite | with_reducible apply Stays.foldl | with_reducible exact (rfl : _ = _) | intro _))

theorem State.declareZero_stays {s₀ : State} (s : State) (c : CtxId) (hk : Stays s₀ s) : Stays s₀ (State.declareZero s c) := by
  unfold State.declareZero
  iterate 5 (
    repeat (first | with_reducible assumption | with_reducible apply State.declareChan_stays | with_reducible apply State.modChan_stays | with_reducible apply Stays.ite | with_reducible apply Stays.foldl | with_reducible exact (rfl : _ = _) | intro _))

theorem State.zeroStep_stays {s₀ : State} (s : State) (c : CtxId) (raw : Int) (hk : Stays s₀ s) : Stays s₀ (State.zeroStep s c raw) := by
  unfold State.zeroStep
  iterate 5 (
    repeat (first | with_reducible assumption | with_reducible apply State.modChan_stays | with_reducible apply State.modCtx_stays | with_reducible apply Stays.ite | with_reducible apply Stays.foldl | with_reducible exact (rfl : _ = _) | intro _)
    all_goals (try ((with_reducible apply Stays.lit); (case h1 => exact rfl)))
    all_goals (try dsimp only)
    all_goals (try split))

theorem State.shuntStep_stays {s₀ : State} (s : State) (c : CtxId) (code : Nat) (raw : Int) (hk : Stays s₀ s) : Stays s₀ (State.shuntStep s c code raw) := by
  unfold State.shuntStep
  iterate 5 (
    repeat (first | with_reducible assumption | with_reducible apply State.zeroStep_stays | with_reducible apply State.declareZero_stays | with_reducible apply State.shuntOpen_stays | with_reducible apply State.declareCause_stays | with_reducible apply State.confirmStep_stays | with_reducible apply State.ledgerStep_stays | with_reducible apply State.calSample_stays | with_reducible apply State.modChan_stays | with_reducible apply Stays.ite | with_reducible apply Stays.foldl | with_reducible exact (rfl : _ = _) | intro _)
    all_goals (try ((with_reducible apply Stays.lit); (case h1 => exact rfl)))
    all_goals (try split))

theorem State.releaseImon_stays {s₀ : State} (s : State) (p : PhaseId) (hk : Stays s₀ s) : Stays s₀ (State.releaseImon s p) := by
  unfold State.releaseImon
  iterate 5 (
    repeat (first | with_reducible assumption | with_reducible apply State.releasedEvent_stays | with_reducible apply State.modPh_stays | with_reducible apply Stays.ite | with_reducible apply Stays.foldl | with_reducible exact (rfl : _ = _) | intro _))

theorem State.azTake_stays {s₀ : State} (s : State) (p : PhaseId) (hk : Stays s₀ s) : Stays s₀ (State.azTake s p) := by
  unfold State.azTake
  iterate 5 (
    repeat (first | with_reducible assumption | with_reducible apply State.releaseImon_stays | with_reducible apply State.signalResidue_stays | with_reducible apply State.halves_stays | with_reducible apply State.modPh_stays | with_reducible apply Stays.ite | with_reducible apply Stays.foldl | with_reducible exact (rfl : _ = _) | intro _))

theorem State.endSession_stays {s₀ : State} (s : State) (reason : Nat) (hk : Stays s₀ s) : Stays s₀ (State.endSession s reason) := by
  unfold State.endSession
  iterate 5 (
    repeat (first | with_reducible assumption | with_reducible apply State.event_stays | with_reducible apply Stays.ite | with_reducible apply Stays.foldl | with_reducible exact (rfl : _ = _) | intro _)
    all_goals (try ((with_reducible apply Stays.lit); (case h1 => exact rfl)))
    repeat (first | with_reducible assumption | with_reducible apply State.event_stays | with_reducible apply Stays.ite | with_reducible apply Stays.foldl | with_reducible exact (rfl : _ = _) | intro _))

theorem State.openSession_stays {s₀ : State} (s : State) (hk : Stays s₀ s) : Stays s₀ (State.openSession s) := by
  unfold State.openSession
  iterate 5 (
    all_goals (try ((with_reducible apply Stays.lit); (case h1 => exact rfl)))
    repeat (first | with_reducible assumption | with_reducible apply State.endSession_stays | with_reducible apply Stays.ite | with_reducible apply Stays.foldl | with_reducible exact (rfl : _ = _) | intro _))

theorem State.authFailed_stays {s₀ : State} (s : State) (n : Word) (hk : Stays s₀ s) : Stays s₀ (State.authFailed s n) := by
  unfold State.authFailed
  iterate 5 (
    repeat (first | with_reducible assumption | with_reducible apply State.event_stays | with_reducible apply Stays.ite | with_reducible apply Stays.foldl | with_reducible exact (rfl : _ = _) | intro _)
    all_goals (try ((with_reducible apply Stays.lit); (case h1 => exact rfl)))
    repeat (first | with_reducible assumption | with_reducible apply State.event_stays | with_reducible apply Stays.ite | with_reducible apply Stays.foldl | with_reducible exact (rfl : _ = _) | intro _))

theorem State.violated_stays {s₀ : State} (s : State) (v : Nat) (hseq : Nat) (hk : Stays s₀ s) : Stays s₀ (State.violated s v hseq) := by
  unfold State.violated
  iterate 5 (
    repeat (first | with_reducible assumption | with_reducible apply State.summaryFree_stays | with_reducible apply Stays.ite | with_reducible apply Stays.foldl | with_reducible exact (rfl : _ = _) | intro _)
    all_goals (try ((with_reducible apply Stays.lit); (case h1 => exact rfl)))
    repeat (first | with_reducible assumption | with_reducible apply State.summaryFree_stays | with_reducible apply Stays.ite | with_reducible apply Stays.foldl | with_reducible exact (rfl : _ = _) | intro _))

theorem State.acceptFrame_stays {s₀ : State} (s : State) (h : Word) (f : SpiFrame) (hk : Stays s₀ s) : Stays s₀ (s.acceptFrame h f) := by
  unfold State.acceptFrame
  extract_lets r now
  split
  · exact hk.same rfl
  · exact hk.same rfl
  · split
    · exact hk.same rfl
    · exact hk.same rfl
  · exact hk

theorem State.frameOk_stays {s₀ : State} (s : State) (h : Word) (f : SpiFrame) (hk : Stays s₀ s) : Stays s₀ (State.frameOk s h f) := by
  unfold State.frameOk
  iterate 5 (
    repeat (first | with_reducible assumption | with_reducible apply State.acceptFrame_stays | with_reducible apply State.violated_stays | with_reducible apply Stays.ite | with_reducible apply Stays.foldl | with_reducible exact (rfl : _ = _) | intro _)
    all_goals (try ((with_reducible apply Stays.lit); (case h1 => exact rfl)))
    repeat (first | with_reducible assumption | with_reducible apply State.acceptFrame_stays | with_reducible apply State.violated_stays | with_reducible apply Stays.ite | with_reducible apply Stays.foldl | with_reducible exact (rfl : _ = _) | intro _))

theorem State.spi_stays {s₀ : State} (s : State) (h : Word) (f : SpiFrame) (hk : Stays s₀ s) : Stays s₀ (s.spi h f) := by
  unfold State.spi
  extract_lets n out l v free l1 s1
  have k1 (t : State) (l : List Word) (h : Stays s₀ t) : Stays s₀ (out t l) := h.same rfl
  have k2 : Stays s₀ s1 := hk.same rfl
  clear_value s1
  refine Stays.ite (k1 _ _ hk) (Stays.ite (k1 _ _ hk) (Stays.ite (State.violated_stays _ _ _ (k1 _ _ hk)) ?_))
  exact Stays.ite (State.frameOk_stays _ _ _ k2) (State.violated_stays _ _ _ k2)

theorem State.unbind_stays {s₀ : State} (s : State) (ps : List PhaseId) (hk : Stays s₀ s) : Stays s₀ (State.unbind s ps) := by
  unfold State.unbind
  iterate 5 (
    repeat (first | with_reducible assumption | with_reducible apply State.halves_stays | with_reducible apply State.modPh_stays | with_reducible apply Stays.ite | with_reducible apply Stays.foldl | with_reducible exact (rfl : _ = _) | intro _))

theorem State.resyncStep_stays {s₀ : State} (s : State) (h : HalfId) (hk : Stays s₀ s) : Stays s₀ (State.resyncStep s h) := by
  unfold State.resyncStep
  iterate 5 (
    repeat (first | with_reducible assumption | with_reducible apply State.copyHalf_stays | with_reducible apply State.modHs_stays | with_reducible apply Stays.ite | with_reducible apply Stays.foldl | with_reducible exact (rfl : _ = _) | intro _)
    all_goals (try ((with_reducible apply Stays.lit); (case h1 => exact rfl)))
    all_goals (try split))

theorem State.markTag_stays {s₀ : State} (s : State) (hk : Stays s₀ s) : Stays s₀ (State.markTag s) := by
  unfold State.markTag
  iterate 5 (
    repeat (first | with_reducible assumption | with_reducible apply State.resyncStep_stays | with_reducible apply State.settle_stays | with_reducible apply State.halves_stays | with_reducible apply Stays.ite | with_reducible apply Stays.foldl | with_reducible exact (rfl : _ = _) | intro _))

theorem State.unattributed_stays {s₀ : State} (s : State) (t : Nat) (hk : Stays s₀ s) : Stays s₀ (State.unattributed s t) := by
  unfold State.unattributed
  iterate 5 (
    repeat (first | with_reducible assumption | with_reducible apply State.loseElig_stays | with_reducible apply State.summary_stays | with_reducible apply State.event_stays | with_reducible apply Stays.ite | with_reducible apply Stays.foldl | with_reducible exact (rfl : _ = _) | intro _)
    all_goals (try ((with_reducible apply Stays.lit); (case h1 => exact rfl)))
    repeat (first | with_reducible assumption | with_reducible apply State.loseElig_stays | with_reducible apply State.summary_stays | with_reducible apply State.event_stays | with_reducible apply Stays.ite | with_reducible apply Stays.foldl | with_reducible exact (rfl : _ = _) | intro _)
    all_goals (try dsimp only)
    all_goals (try split))

theorem State.retryContext_stays {s₀ : State} (s : State) (c : CtxId) (hk : Stays s₀ s) : Stays s₀ (State.retryContext s c) := by
  unfold State.retryContext
  iterate 5 (
    repeat (first | with_reducible assumption | with_reducible apply State.releasedEvent_stays | with_reducible apply State.modCtx_stays | with_reducible apply Stays.ite | with_reducible apply Stays.foldl | with_reducible exact (rfl : _ = _) | intro _)
    all_goals (try ((with_reducible apply Stays.lit); (case h1 => exact rfl)))
    all_goals (try dsimp only)
    all_goals (try split))

theorem State.retryChannel_stays {s₀ : State} (s : State) (c : CtxId) (hk : Stays s₀ s) : Stays s₀ (State.retryChannel s c) := by
  unfold State.retryChannel
  iterate 5 (
    repeat (first | with_reducible assumption | with_reducible apply State.releasedEvent_stays | with_reducible apply State.tryRelease_stays | with_reducible apply State.modChan_stays | with_reducible apply State.modCtx_stays | with_reducible apply Stays.ite | with_reducible apply Stays.foldl | with_reducible exact (rfl : _ = _) | intro _)
    all_goals (try ((with_reducible apply Stays.lit); (case h1 => exact rfl)))
    all_goals (try dsimp only)
    all_goals (try split))

theorem State.parkRails_stays {s₀ : State} (s : State) (hk : Stays s₀ s) : Stays s₀ (State.parkRails s) := by
  unfold State.parkRails
  iterate 5 (
    repeat (first | with_reducible assumption | with_reducible apply State.stopReg_stays | with_reducible apply State.halves_stays | with_reducible apply Stays.ite | with_reducible apply Stays.foldl | with_reducible exact (rfl : _ = _) | intro _))

theorem State.modPort_stays {s₀ : State} (s : State) (p : Port) (f : TarnPort → TarnPort) (hk : Stays s₀ s) : Stays s₀ (State.modPort s p f) := by
  unfold State.modPort
  iterate 5 (
    all_goals (try ((with_reducible apply Stays.lit); (case h1 => exact rfl)))
    repeat (first | with_reducible assumption | with_reducible apply Stays.ite | with_reducible apply Stays.foldl | with_reducible exact (rfl : _ = _) | intro _)
    all_goals (try split))

theorem State.modTarn_stays {s₀ : State} (s : State) (c : CtxId) (f : TarnS → TarnS) (hk : Stays s₀ s) : Stays s₀ (State.modTarn s c f) := by
  unfold State.modTarn
  iterate 5 (
    repeat (first | with_reducible assumption | with_reducible apply State.modCtx_stays | with_reducible apply Stays.ite | with_reducible apply Stays.foldl | with_reducible exact (rfl : _ = _) | intro _))

theorem State.drive_stays {s₀ : State} (s : State) (port : Port) (bs : List Byte) (hk : Stays s₀ s) : Stays s₀ (State.drive s port bs) := by
  unfold State.drive
  iterate 5 (
    repeat (first | with_reducible assumption | with_reducible apply State.modPort_stays | with_reducible apply Stays.ite | with_reducible apply Stays.foldl | with_reducible exact (rfl : _ = _) | intro _))

theorem State.enrol_stays {s₀ : State} (s : State) (old new : BitVec 64) (hk : Stays s₀ s) : Stays s₀ (State.enrol s old new) := by
  unfold State.enrol
  iterate 5 (
    repeat (first | with_reducible assumption | with_reducible apply State.modTarn_stays | with_reducible apply Stays.ite | with_reducible apply Stays.foldl | with_reducible exact (rfl : _ = _) | intro _))

theorem State.poll_stays {s₀ : State} (s : State) (port : Port) (a : CtxId) (kind budget : Nat) (hk : Stays s₀ s) : Stays s₀ (State.poll s port a kind budget) := by
  unfold State.poll
  iterate 5 (
    repeat (first | with_reducible assumption | with_reducible apply State.drive_stays | with_reducible apply State.modTarn_stays | with_reducible apply State.modPort_stays | with_reducible apply State.answer_stays | with_reducible apply Stays.ite | with_reducible apply Stays.foldl | with_reducible exact (rfl : _ = _) | intro _))

theorem State.violate_stays {s₀ : State} (s : State) (a : CtxId) (code : Nat) (hk : Stays s₀ s) : Stays s₀ (State.violate s a code) := by
  unfold State.violate
  iterate 5 (
    repeat (first | with_reducible assumption | with_reducible apply State.modTarn_stays | with_reducible apply State.declareCtx_stays | with_reducible apply State.summaryFree_stays | with_reducible apply State.event_stays | with_reducible apply Stays.ite | with_reducible apply Stays.foldl | with_reducible exact (rfl : _ = _) | intro _))

theorem State.tarnViolation_stays {s₀ : State} (s : State) (a : CtxId) (code : Nat) (hk : Stays s₀ s) : Stays s₀ (State.tarnViolation s a code) := by
  unfold State.tarnViolation
  iterate 5 (
    repeat (first | with_reducible assumption | with_reducible apply State.violate_stays | with_reducible apply State.modTarn_stays | with_reducible apply State.quarRelease_stays | with_reducible apply Stays.ite | with_reducible apply Stays.foldl | with_reducible exact (rfl : _ = _) | intro _))

theorem State.keepReply_stays {s₀ : State} (s : State) (port : Port) (q : Poll) (r : TarnChars) (hk : Stays s₀ s) : Stays s₀ (State.keepReply s port q r) := by
  unfold State.keepReply
  iterate 5 (
    repeat (first | with_reducible assumption | with_reducible apply State.modTarn_stays | with_reducible apply State.modPort_stays | with_reducible apply Stays.ite | with_reducible apply Stays.foldl | with_reducible exact (rfl : _ = _) | intro _))

theorem State.cleanReply_stays {s₀ : State} (s : State) (port : Port) (q : Poll) (r : TarnChars) (err : BcastErr) (hk : Stays s₀ s) : Stays s₀ (State.cleanReply s port q r err) := by
  unfold State.cleanReply
  iterate 5 (
    repeat (first | with_reducible assumption | with_reducible apply State.keepReply_stays | with_reducible apply State.modTarn_stays | with_reducible apply State.quarRelease_stays | with_reducible apply State.bcast_stays | with_reducible apply Stays.ite | with_reducible apply Stays.foldl | with_reducible exact (rfl : _ = _) | intro _))

theorem State.pass_stays {s₀ : State} (s : State) (hk : Stays s₀ s) : Stays s₀ (State.pass s) := by
  unfold State.pass
  iterate 5 (
    repeat (first | with_reducible assumption | with_reducible apply State.markTag_stays | with_reducible apply State.follow_stays | with_reducible apply State.arbVote_stays | with_reducible apply Stays.ite | with_reducible apply Stays.foldl | with_reducible exact (rfl : _ = _) | intro _)
    all_goals (try ((with_reducible apply Stays.lit); (case h1 => exact rfl)))
    repeat (first | with_reducible assumption | with_reducible apply State.markTag_stays | with_reducible apply State.follow_stays | with_reducible apply State.arbVote_stays | with_reducible apply Stays.ite | with_reducible apply Stays.foldl | with_reducible exact (rfl : _ = _) | intro _)
    all_goals (try dsimp only)
    all_goals (try split))

end Sys2Proof.Machine
end

