-- ==== Sys2Proof/Laws/Steady.lean ====
section
/-!
SUPPORT. What the block's own machinery leaves alone: no operation of a boundary, a pulse, a fault, a channel or a summary
touches the clock, the parameters in force, the stores, the ledger or the PMBus side. One lemma an operation.
-/
namespace Sys2Proof.Machine

/-- The clock, the global parameters in force, the record store, the ledger and, where no PMBus write waits, the PMBus side stay. -/
structure Steady (s t : State) : Prop where
  clk : t.clk = s.clk
  gInF : t.gInF = s.gInF
  nv : t.nv = s.nv
  led : t.led = s.led
  pmb : s.pmb.jobs = [] → t.pmb = s.pmb

theorem Steady.refl (s : State) : Steady s s := ⟨rfl, rfl, rfl, rfl, fun _ => rfl⟩
theorem Steady.trans {s t u : State} (h : Steady s t) (k : Steady t u) : Steady s u :=
  ⟨k.clk.trans h.clk, k.gInF.trans h.gInF, k.nv.trans h.nv, k.led.trans h.led, fun e => (k.pmb ((h.pmb e).symm ▸ e)).trans (h.pmb e)⟩
theorem Steady.same {s t u : State} (h : Steady s t) (h1 : u.clk = t.clk) (h2 : u.gInF = t.gInF) (h3 : u.nv = t.nv) (h4 : u.led = t.led)
    (h5 : u.pmb = t.pmb) : Steady s u := h.trans ⟨h1, h2, h3, h4, fun _ => h5⟩
theorem Steady.lit {s t : State} {dev clk gAcc gInF east west ctx ph sum ft cal th crag tokErr tokCount tokFree tokOld lastOn nv led cairn mb pmb tarnA tarnB jtag commits free pending}
    (h1 : clk = t.clk) (h2 : gInF = t.gInF) (h3 : nv = t.nv) (h4 : led = t.led) (h5 : pmb = t.pmb) (h : Steady s t) :
    Steady s ⟨dev, clk, gAcc, gInF, east, west, ctx, ph, sum, ft, cal, th, crag, tokErr, tokCount, tokFree, tokOld, lastOn, nv, led, cairn, mb, pmb, tarnA, tarnB, jtag, commits, free, pending⟩ :=
  h.same h1 h2 h3 h4 h5
theorem Steady.ite {s a b : State} {c : Prop} [Decidable c] (ha : Steady s a) (hb : Steady s b) :
    Steady s (if c then a else b) := by split <;> assumption
theorem Steady.foldl {α : Type} {f : State → α → State} {s a : State} (h : Steady s a)
   (hf : ∀ t x, Steady s t → Steady s (f t x)) (l : List α) : Steady s (l.foldl f a) := by
  induction l generalizing a with
  | nil => exact h
  | cons x l ih => exact ih (hf _ _ h)

theorem State.modCtx_steady {s₀ : State} (s : State) (c : CtxId) (f : Ctx → Ctx) (hk : Steady s₀ s) : Steady s₀ (State.modCtx s c f) := by
  unfold State.modCtx
  iterate 5 (
    all_goals (try ((with_reducible apply Steady.lit); (case h1 => exact rfl); (case h2 => exact rfl); (case h3 => exact rfl); (case h4 => exact rfl); (case h5 => exact rfl)))
    repeat (first | with_reducible assumption | with_reducible apply Steady.ite | with_reducible apply Steady.foldl | with_reducible exact (rfl : _ = _) | intro _))

theorem State.modPh_steady {s₀ : State} (s : State) (p : PhaseId) (f : PhaseS → PhaseS) (hk : Steady s₀ s) : Steady s₀ (State.modPh s p f) := by
  unfold State.modPh
  iterate 5 (
    all_goals (try ((with_reducible apply Steady.lit); (case h1 => exact rfl); (case h2 => exact rfl); (case h3 => exact rfl); (case h4 => exact rfl); (case h5 => exact rfl)))
    repeat (first | with_reducible assumption | with_reducible apply Steady.ite | with_reducible apply Steady.foldl | with_reducible exact (rfl : _ = _) | intro _))

theorem State.modChan_steady {s₀ : State} (s : State) (c : CtxId) (f : Chan → Chan) (hk : Steady s₀ s) : Steady s₀ (State.modChan s c f) := by
  unfold State.modChan
  iterate 5 (
    repeat (first | with_reducible assumption | with_reducible apply State.modCtx_steady | with_reducible apply Steady.ite | with_reducible apply Steady.foldl | with_reducible exact (rfl : _ = _) | intro _))

theorem State.setHalf_steady {s₀ : State} (s : State) (h : HalfId) (x : Half) (hk : Steady s₀ s) : Steady s₀ (s.setHalf h x) := by
  cases h <;> exact hk.same rfl rfl rfl rfl rfl

theorem State.halves_steady {s₀ : State} (s : State) (f : Half → Half) (hk : Steady s₀ s) : Steady s₀ (State.halves s f) := by
  unfold State.halves
  iterate 5 (
    all_goals (try ((with_reducible apply Steady.lit); (case h1 => exact rfl); (case h2 => exact rfl); (case h3 => exact rfl); (case h4 => exact rfl); (case h5 => exact rfl)))
    repeat (first | with_reducible assumption | with_reducible apply Steady.ite | with_reducible apply Steady.foldl | with_reducible exact (rfl : _ = _) | intro _))

theorem State.modHs_steady {s₀ : State} (s : State) (h : HalfId) (f : HalfS → HalfS) (hk : Steady s₀ s) :
    Steady s₀ (s.modHs h f) := by
  cases h <;> exact hk.same rfl rfl rfl rfl rfl

theorem State.commit_steady {s₀ : State} (s : State) (t : Nat) (a : Act) (hk : Steady s₀ s) : Steady s₀ (State.commit s t a) := by
  unfold State.commit
  iterate 5 (
    all_goals (try ((with_reducible apply Steady.lit); (case h1 => exact rfl); (case h2 => exact rfl); (case h3 => exact rfl); (case h4 => exact rfl); (case h5 => exact rfl)))
    repeat (first | with_reducible assumption | with_reducible apply Steady.ite | with_reducible apply Steady.foldl | with_reducible exact (rfl : _ = _) | intro _))

theorem State.fresh_steady {s₀ : State} (s : State) (hk : Steady s₀ s) : Steady s₀ (State.fresh s).2 := by
  unfold State.fresh
  iterate 5 (
    all_goals (try ((with_reducible apply Steady.lit); (case h1 => exact rfl); (case h2 => exact rfl); (case h3 => exact rfl); (case h4 => exact rfl); (case h5 => exact rfl)))
    repeat (first | with_reducible assumption | with_reducible apply Steady.ite | with_reducible apply Steady.foldl | with_reducible exact (rfl : _ = _) | intro _))

theorem State.tempSample_steady {s₀ : State} (s : State) (x : TempSample) (hk : Steady s₀ s) : Steady s₀ (State.tempSample s x) := by
  unfold State.tempSample
  iterate 5 (
    all_goals (try ((with_reducible apply Steady.lit); (case h1 => exact rfl); (case h2 => exact rfl); (case h3 => exact rfl); (case h4 => exact rfl); (case h5 => exact rfl)))
    repeat (first | with_reducible assumption | with_reducible apply Steady.ite | with_reducible apply Steady.foldl | with_reducible exact (rfl : _ = _) | intro _)
    all_goals (try dsimp only)
    all_goals (try split))

theorem State.sampleAt_steady {s₀ : State} (s : State) (x : TempSample) (hk : Steady s₀ s) : Steady s₀ (State.sampleAt s x) := by
  unfold State.sampleAt
  iterate 5 (
    repeat (first | with_reducible assumption | with_reducible apply State.tempSample_steady | with_reducible apply Steady.ite | with_reducible apply Steady.foldl | with_reducible exact (rfl : _ = _) | intro _)
    all_goals (try ((with_reducible apply Steady.lit); (case h1 => exact rfl); (case h2 => exact rfl); (case h3 => exact rfl); (case h4 => exact rfl); (case h5 => exact rfl)))
    repeat (first | with_reducible assumption | with_reducible apply State.tempSample_steady | with_reducible apply Steady.ite | with_reducible apply Steady.foldl | with_reducible exact (rfl : _ = _) | intro _))

theorem State.lose_steady {s₀ : State} (s : State) (t : Trig) (hk : Steady s₀ s) : Steady s₀ (State.lose s t) := by
  unfold State.lose
  iterate 5 (
    all_goals (try ((with_reducible apply Steady.lit); (case h1 => exact rfl); (case h2 => exact rfl); (case h3 => exact rfl); (case h4 => exact rfl); (case h5 => exact rfl)))
    repeat (first | with_reducible assumption | with_reducible apply Steady.ite | with_reducible apply Steady.foldl | with_reducible exact (rfl : _ = _) | intro _))

theorem State.move_steady {s₀ : State} (s : State) (t : Trig) (f : State → State) (hk : Steady s₀ s)
    (hf : ∀ u, Steady s₀ u → Steady s₀ (f u)) : Steady s₀ (s.move t f) := by
  unfold State.move
  split
  · exact hf _ hk
  · exact State.lose_steady s t hk

theorem State.event_steady {s₀ : State} (s : State) (src code : Nat) (a b : Word) (hk : Steady s₀ s) :
    Steady s₀ (s.event src code a b) := by
  unfold State.event
  dsimp only
  split
  · exact hk.same rfl rfl rfl rfl rfl
  · split <;> exact hk.same rfl rfl rfl rfl rfl

theorem State.request_steady {s₀ : State} (s : State) (r : CairnReq) (hk : Steady s₀ s) : Steady s₀ (s.request r) := by
  unfold State.request
  extract_lets y x
  clear_value x
  split <;> exact hk.same rfl rfl rfl rfl rfl

theorem State.summary_steady {s₀ : State} (s : State) (src : Fin 69) (code fclass : Nat) (zone : Option Int) (value : Word) (hk : Steady s₀ s) : Steady s₀ (State.summary s src code fclass zone value) := by
  unfold State.summary
  iterate 5 (
    all_goals (try ((with_reducible apply Steady.lit); (case h1 => exact rfl); (case h2 => exact rfl); (case h3 => exact rfl); (case h4 => exact rfl); (case h5 => exact rfl)))
    repeat (first | with_reducible assumption | with_reducible apply State.request_steady | with_reducible apply Steady.ite | with_reducible apply Steady.foldl | with_reducible exact (rfl : _ = _) | intro _))

theorem State.summaryFree_steady {s₀ : State} (s : State) (src : Fin 69) (value : Word) (hk : Steady s₀ s) : Steady s₀ (State.summaryFree s src value) := by
  unfold State.summaryFree
  iterate 5 (
    repeat (first | with_reducible assumption | with_reducible apply State.summary_steady | with_reducible apply Steady.ite | with_reducible apply Steady.foldl | with_reducible exact (rfl : _ = _) | intro _)
    all_goals (try ((with_reducible apply Steady.lit); (case h1 => exact rfl); (case h2 => exact rfl); (case h3 => exact rfl); (case h4 => exact rfl); (case h5 => exact rfl)))
    repeat (first | with_reducible assumption | with_reducible apply State.summary_steady | with_reducible apply Steady.ite | with_reducible apply Steady.foldl | with_reducible exact (rfl : _ = _) | intro _))

theorem State.snapshotReq_steady {s₀ : State} (s : State) (c : CtxId) (k : Fin 4) (hk : Steady s₀ s) : Steady s₀ (State.snapshotReq s c k) := by
  unfold State.snapshotReq
  iterate 5 (
    repeat (first | with_reducible assumption | with_reducible apply State.request_steady | with_reducible apply State.modCtx_steady | with_reducible apply Steady.ite | with_reducible apply Steady.foldl | with_reducible exact (rfl : _ = _) | intro _))

theorem State.snapshots_steady {s₀ : State} (s : State) (c : CtxId) (hk : Steady s₀ s) : Steady s₀ (State.snapshots s c) := by
  unfold State.snapshots
  iterate 5 (
    repeat (first | with_reducible assumption | with_reducible apply State.snapshotReq_steady | with_reducible apply State.modCtx_steady | with_reducible apply Steady.ite | with_reducible apply Steady.foldl | with_reducible exact (rfl : _ = _) | intro _))

theorem State.modSched_steady {s₀ : State} (s : State) (c : CtxId) (f : Sched → Sched) (hk : Steady s₀ s) : Steady s₀ (State.modSched s c f) := by
  unfold State.modSched
  iterate 5 (
    repeat (first | with_reducible assumption | with_reducible apply State.modCtx_steady | with_reducible apply Steady.ite | with_reducible apply Steady.foldl | with_reducible exact (rfl : _ = _) | intro _))

theorem State.endEntry_steady {s₀ : State} (s : State) (c : CtxId) (e : Event) (hk : Steady s₀ s) : Steady s₀ (State.endEntry s c e) := by
  unfold State.endEntry
  iterate 5 (
    repeat (first | with_reducible assumption | with_reducible apply State.event_steady | with_reducible apply Steady.ite | with_reducible apply Steady.foldl | with_reducible exact (rfl : _ = _) | intro _))

theorem State.missEvent_steady {s₀ : State} (s : State) (c : CtxId) (serial : Nat) (o : EvOutcome) (hk : Steady s₀ s) : Steady s₀ (State.missEvent s c serial o) := by
  unfold State.missEvent
  iterate 5 (
    repeat (first | with_reducible assumption | with_reducible apply State.modSched_steady | with_reducible apply State.summary_steady | with_reducible apply Steady.ite | with_reducible apply Steady.foldl | with_reducible exact (rfl : _ = _) | intro _)
    all_goals (try ((with_reducible apply Steady.lit); (case h1 => exact rfl); (case h2 => exact rfl); (case h3 => exact rfl); (case h4 => exact rfl); (case h5 => exact rfl)))
    all_goals (try dsimp only)
    all_goals (try split))

theorem State.supersede_steady {s₀ : State} (s : State) (c : CtxId) (serial : Nat) (hk : Steady s₀ s) : Steady s₀ (State.supersede s c serial) := by
  unfold State.supersede
  iterate 5 (
    repeat (first | with_reducible assumption | with_reducible apply State.modSched_steady | with_reducible apply Steady.ite | with_reducible apply Steady.foldl | with_reducible exact (rfl : _ = _) | intro _))

theorem State.flush_steady {s₀ : State} (s : State) (c : CtxId) (hk : Steady s₀ s) : Steady s₀ (State.flush s c) := by
  unfold State.flush
  iterate 5 (
    repeat (first | with_reducible assumption | with_reducible apply State.halves_steady | with_reducible apply State.modCtx_steady | with_reducible apply State.endEntry_steady | with_reducible apply State.modSched_steady | with_reducible apply Steady.ite | with_reducible apply Steady.foldl | with_reducible exact (rfl : _ = _) | intro _)
    all_goals (try ((with_reducible apply Steady.lit); (case h1 => exact rfl); (case h2 => exact rfl); (case h3 => exact rfl); (case h4 => exact rfl); (case h5 => exact rfl)))
    all_goals (try dsimp only)
    all_goals (try split))

theorem State.traceTrigger_steady {s₀ : State} (s : State) (c : CtxId) (trig : Nat) (hk : Steady s₀ s) : Steady s₀ (State.traceTrigger s c trig) := by
  unfold State.traceTrigger
  iterate 5 (
    repeat (first | with_reducible assumption | with_reducible apply State.modCtx_steady | with_reducible apply Steady.ite | with_reducible apply Steady.foldl | with_reducible exact (rfl : _ = _) | intro _))

theorem State.gateRamp_steady {s₀ : State} (s : State) (c : CtxId) (hk : Steady s₀ s) : Steady s₀ (State.gateRamp s c) := by
  unfold State.gateRamp
  iterate 5 (
    repeat (first | with_reducible assumption | with_reducible apply State.traceTrigger_steady | with_reducible apply State.modChan_steady | with_reducible apply Steady.ite | with_reducible apply Steady.foldl | with_reducible exact (rfl : _ = _) | intro _)
    all_goals (try ((with_reducible apply Steady.lit); (case h1 => exact rfl); (case h2 => exact rfl); (case h3 => exact rfl); (case h4 => exact rfl); (case h5 => exact rfl)))
    repeat (first | with_reducible assumption | with_reducible apply State.traceTrigger_steady | with_reducible apply State.modChan_steady | with_reducible apply Steady.ite | with_reducible apply Steady.foldl | with_reducible exact (rfl : _ = _) | intro _))

theorem State.delayEvent_steady {s₀ : State} (s : State) (c : CtxId) (n ticks : Nat) (hk : Steady s₀ s) : Steady s₀ (State.delayEvent s c n ticks) := by
  unfold State.delayEvent
  iterate 5 (
    repeat (first | with_reducible assumption | with_reducible apply State.modSched_steady | with_reducible apply Steady.ite | with_reducible apply Steady.foldl | with_reducible exact (rfl : _ = _) | intro _))

theorem State.deferFurther_steady {s₀ : State} (s : State) (c : CtxId) (hk : Steady s₀ s) : Steady s₀ (State.deferFurther s c) := by
  unfold State.deferFurther
  iterate 5 (
    repeat (first | with_reducible assumption | with_reducible apply State.gateRamp_steady | with_reducible apply State.modSched_steady | with_reducible apply State.event_steady | with_reducible apply State.modChan_steady | with_reducible apply Steady.ite | with_reducible apply Steady.foldl | with_reducible exact (rfl : _ = _) | intro _)
    all_goals (try ((with_reducible apply Steady.lit); (case h1 => exact rfl); (case h2 => exact rfl); (case h3 => exact rfl); (case h4 => exact rfl); (case h5 => exact rfl)))
    all_goals (try dsimp only)
    all_goals (try split))

theorem State.deferTo_steady {s₀ : State} (s : State) (c : CtxId) (ev : Option Nat) (last : Nat) (hk : Steady s₀ s) : Steady s₀ (State.deferTo s c ev last) := by
  unfold State.deferTo
  iterate 5 (
    repeat (first | with_reducible assumption | with_reducible apply State.deferFurther_steady | with_reducible apply State.delayEvent_steady | with_reducible apply State.event_steady | with_reducible apply State.modChan_steady | with_reducible apply Steady.ite | with_reducible apply Steady.foldl | with_reducible exact (rfl : _ = _) | intro _)
    all_goals (try ((with_reducible apply Steady.lit); (case h1 => exact rfl); (case h2 => exact rfl); (case h3 => exact rfl); (case h4 => exact rfl); (case h5 => exact rfl)))
    all_goals (try split))

theorem State.startOrDefer_steady {s₀ : State} (s : State) (c : CtxId) (ev : Option Nat) (hk : Steady s₀ s) : Steady s₀ (State.startOrDefer s c ev) := by
  unfold State.startOrDefer
  iterate 5 (
    repeat (first | with_reducible assumption | with_reducible apply State.gateRamp_steady | with_reducible apply State.deferTo_steady | with_reducible apply State.modSched_steady | with_reducible apply State.event_steady | with_reducible apply State.modChan_steady | with_reducible apply Steady.ite | with_reducible apply Steady.foldl | with_reducible exact (rfl : _ = _) | intro _)
    all_goals (try ((with_reducible apply Steady.lit); (case h1 => exact rfl); (case h2 => exact rfl); (case h3 => exact rfl); (case h4 => exact rfl); (case h5 => exact rfl)))
    all_goals (try split))

theorem State.heldStart_steady {s₀ : State} (s : State) (c : CtxId) (ev : Option Nat) (hk : Steady s₀ s) : Steady s₀ (State.heldStart s c ev) := by
  unfold State.heldStart
  iterate 5 (
    repeat (first | with_reducible assumption | with_reducible apply State.startOrDefer_steady | with_reducible apply State.supersede_steady | with_reducible apply State.missEvent_steady | with_reducible apply State.modChan_steady | with_reducible apply Steady.ite | with_reducible apply Steady.foldl | with_reducible exact (rfl : _ = _) | intro _)
    all_goals (try ((with_reducible apply Steady.lit); (case h1 => exact rfl); (case h2 => exact rfl); (case h3 => exact rfl); (case h4 => exact rfl); (case h5 => exact rfl)))
    all_goals (try split))

theorem State.onCmd_steady {s₀ : State} (s : State) (c : CtxId) (hk : Steady s₀ s) : Steady s₀ (State.onCmd s c) := by
  unfold State.onCmd
  iterate 5 (
    repeat (first | with_reducible assumption | with_reducible apply State.startOrDefer_steady | with_reducible apply State.modChan_steady | with_reducible apply Steady.ite | with_reducible apply Steady.foldl | with_reducible exact (rfl : _ = _) | intro _)
    all_goals (try ((with_reducible apply Steady.lit); (case h1 => exact rfl); (case h2 => exact rfl); (case h3 => exact rfl); (case h4 => exact rfl); (case h5 => exact rfl)))
    all_goals (try split))

theorem State.offCmd_steady {s₀ : State} (s : State) (c : CtxId) (hk : Steady s₀ s) : Steady s₀ (State.offCmd s c) := by
  unfold State.offCmd
  iterate 5 (
    repeat (first | with_reducible assumption | with_reducible apply State.traceTrigger_steady | with_reducible apply State.missEvent_steady | with_reducible apply State.event_steady | with_reducible apply State.modChan_steady | with_reducible apply Steady.ite | with_reducible apply Steady.foldl | with_reducible exact (rfl : _ = _) | intro _)
    all_goals (try ((with_reducible apply Steady.lit); (case h1 => exact rfl); (case h2 => exact rfl); (case h3 => exact rfl); (case h4 => exact rfl); (case h5 => exact rfl)))
    all_goals (try split))

theorem State.chanFault_steady {s₀ : State} (s : State) (c : CtxId) (k : ChCause) (hk : Steady s₀ s) : Steady s₀ (State.chanFault s c k) := by
  unfold State.chanFault
  iterate 5 (
    repeat (first | with_reducible assumption | with_reducible apply State.missEvent_steady | with_reducible apply State.event_steady | with_reducible apply State.modChan_steady | with_reducible apply Steady.ite | with_reducible apply Steady.foldl | with_reducible exact (rfl : _ = _) | intro _)
    all_goals (try ((with_reducible apply Steady.lit); (case h1 => exact rfl); (case h2 => exact rfl); (case h3 => exact rfl); (case h4 => exact rfl); (case h5 => exact rfl)))
    all_goals (try split))

theorem State.raiseCause_steady {s₀ : State} (s : State) (c : CtxId) (k : ChCause) (hk : Steady s₀ s) : Steady s₀ (State.raiseCause s c k) := by
  unfold State.raiseCause
  iterate 5 (
    repeat (first | with_reducible assumption | with_reducible apply State.chanFault_steady | with_reducible apply State.modChan_steady | with_reducible apply Steady.ite | with_reducible apply Steady.foldl | with_reducible exact (rfl : _ = _) | intro _)
    all_goals (try ((with_reducible apply Steady.lit); (case h1 => exact rfl); (case h2 => exact rfl); (case h3 => exact rfl); (case h4 => exact rfl); (case h5 => exact rfl)))
    all_goals (try dsimp only)
    all_goals (try split))

theorem State.tripFollow_steady {s₀ : State} (s : State) (c : CtxId) (hk : Steady s₀ s) : Steady s₀ (State.tripFollow s c) := by
  unfold State.tripFollow
  iterate 5 (
    repeat (first | with_reducible assumption | with_reducible apply State.raiseCause_steady | with_reducible apply State.modChan_steady | with_reducible apply Steady.ite | with_reducible apply Steady.foldl | with_reducible exact (rfl : _ = _) | intro _)
    all_goals (try ((with_reducible apply Steady.lit); (case h1 => exact rfl); (case h2 => exact rfl); (case h3 => exact rfl); (case h4 => exact rfl); (case h5 => exact rfl)))
    all_goals (try dsimp only)
    all_goals (try split))

theorem State.tryRelease_steady {s₀ : State} (s : State) (c : CtxId) (hk : Steady s₀ s) : Steady s₀ (State.tryRelease s c) := by
  unfold State.tryRelease
  iterate 5 (
    repeat (first | with_reducible assumption | with_reducible apply State.onCmd_steady | with_reducible apply State.modChan_steady | with_reducible apply Steady.ite | with_reducible apply Steady.foldl | with_reducible exact (rfl : _ = _) | intro _))

theorem State.goto_steady {s₀ : State} (s : State) (st : DevState) (hk : Steady s₀ s) : Steady s₀ (State.goto s st) := by
  unfold State.goto
  iterate 5 (
    repeat (first | with_reducible assumption | with_reducible apply State.event_steady | with_reducible apply Steady.ite | with_reducible apply Steady.foldl | with_reducible exact (rfl : _ = _) | intro _)
    all_goals (try ((with_reducible apply Steady.lit); (case h1 => exact rfl); (case h2 => exact rfl); (case h3 => exact rfl); (case h4 => exact rfl); (case h5 => exact rfl)))
    repeat (first | with_reducible assumption | with_reducible apply State.event_steady | with_reducible apply Steady.ite | with_reducible apply Steady.foldl | with_reducible exact (rfl : _ = _) | intro _))

theorem State.pgDrop_steady {s₀ : State} (s : State) (c : CtxId) (hk : Steady s₀ s) : Steady s₀ (State.pgDrop s c) := by
  unfold State.pgDrop
  iterate 5 (
    repeat (first | with_reducible assumption | with_reducible apply State.event_steady | with_reducible apply State.modCtx_steady | with_reducible apply Steady.ite | with_reducible apply Steady.foldl | with_reducible exact (rfl : _ = _) | intro _))

theorem State.parkAll_steady {s₀ : State} (s : State) (c : CtxId) (hk : Steady s₀ s) : Steady s₀ (State.parkAll s c) := by
  unfold State.parkAll
  iterate 5 (
    repeat (first | with_reducible assumption | with_reducible apply State.halves_steady | with_reducible apply Steady.ite | with_reducible apply Steady.foldl | with_reducible exact (rfl : _ = _) | intro _))

theorem State.dropHeld_steady {s₀ : State} (s : State) (c : CtxId) (hk : Steady s₀ s) : Steady s₀ (State.dropHeld s c) := by
  unfold State.dropHeld
  iterate 5 (
    repeat (first | with_reducible assumption | with_reducible apply State.halves_steady | with_reducible apply Steady.ite | with_reducible apply Steady.foldl | with_reducible exact (rfl : _ = _) | intro _))

theorem State.stopReg_steady {s₀ : State} (s : State) (c : CtxId) (hk : Steady s₀ s) : Steady s₀ (State.stopReg s c) := by
  unfold State.stopReg
  iterate 5 (
    repeat (first | with_reducible assumption | with_reducible apply State.dropHeld_steady | with_reducible apply State.parkAll_steady | with_reducible apply State.pgDrop_steady | with_reducible apply State.flush_steady | with_reducible apply State.modCtx_steady | with_reducible apply Steady.ite | with_reducible apply Steady.foldl | with_reducible exact (rfl : _ = _) | intro _))

theorem State.forceCtx_steady {s₀ : State} (s : State) (c : CtxId) (hk : Steady s₀ s) : Steady s₀ (State.forceCtx s c) := by
  unfold State.forceCtx
  iterate 5 (
    all_goals (try ((with_reducible apply Steady.lit); (case h1 => exact rfl); (case h2 => exact rfl); (case h3 => exact rfl); (case h4 => exact rfl); (case h5 => exact rfl)))
    repeat (first | with_reducible assumption | with_reducible apply Steady.ite | with_reducible apply Steady.foldl | with_reducible exact (rfl : _ = _) | intro _))

theorem State.flushAll_steady {s₀ : State} (s : State) (hk : Steady s₀ s) : Steady s₀ (State.flushAll s) := by
  unfold State.flushAll
  iterate 5 (
    repeat (first | with_reducible assumption | with_reducible apply State.flush_steady | with_reducible apply Steady.ite | with_reducible apply Steady.foldl | with_reducible exact (rfl : _ = _) | intro _))

theorem State.stopRails_steady {s₀ : State} (s : State) (hk : Steady s₀ s) : Steady s₀ (State.stopRails s) := by
  unfold State.stopRails
  iterate 5 (
    repeat (first | with_reducible assumption | with_reducible apply State.stopReg_steady | with_reducible apply State.offCmd_steady | with_reducible apply Steady.ite | with_reducible apply Steady.foldl | with_reducible exact (rfl : _ = _) | intro _))

theorem State.safeInputStep_steady {s₀ : State} (s : State) (hk : Steady s₀ s) : Steady s₀ (State.safeInputStep s) := by
  unfold State.safeInputStep
  iterate 5 (
    repeat (first | with_reducible assumption | with_reducible apply State.offCmd_steady | with_reducible apply Steady.ite | with_reducible apply Steady.foldl | with_reducible exact (rfl : _ = _) | intro _))

theorem State.applySafe_steady {s₀ : State} (s : State) (hk : Steady s₀ s) : Steady s₀ (State.applySafe s) := by
  unfold State.applySafe
  iterate 5 (
    repeat (first | with_reducible assumption | with_reducible apply State.safeInputStep_steady | with_reducible apply State.stopRails_steady | with_reducible apply State.flushAll_steady | with_reducible apply Steady.ite | with_reducible apply Steady.foldl | with_reducible exact (rfl : _ = _) | intro _)
    all_goals (try ((with_reducible apply Steady.lit); (case h1 => exact rfl); (case h2 => exact rfl); (case h3 => exact rfl); (case h4 => exact rfl); (case h5 => exact rfl)))
    repeat (first | with_reducible assumption | with_reducible apply State.safeInputStep_steady | with_reducible apply State.stopRails_steady | with_reducible apply State.flushAll_steady | with_reducible apply Steady.ite | with_reducible apply Steady.foldl | with_reducible exact (rfl : _ = _) | intro _))

theorem State.enterSafe_steady {s₀ : State} (s : State) (hk : Steady s₀ s) : Steady s₀ (State.enterSafe s) := by
  unfold State.enterSafe
  iterate 5 (
    repeat (first | with_reducible assumption | with_reducible apply State.applySafe_steady | with_reducible apply State.goto_steady | with_reducible apply Steady.ite | with_reducible apply Steady.foldl | with_reducible exact (rfl : _ = _) | intro _))

theorem State.safeTrigger_steady {s₀ : State} (s : State) (k : SafeCause) (hk : Steady s₀ s) : Steady s₀ (State.safeTrigger s k) := by
  unfold State.safeTrigger
  iterate 5 (
    repeat (first | with_reducible assumption | with_reducible apply State.enterSafe_steady | with_reducible apply State.move_steady | with_reducible apply Steady.ite | with_reducible apply Steady.foldl | with_reducible exact (rfl : _ = _) | intro _)
    all_goals (try ((with_reducible apply Steady.lit); (case h1 => exact rfl); (case h2 => exact rfl); (case h3 => exact rfl); (case h4 => exact rfl); (case h5 => exact rfl)))
    repeat (first | with_reducible assumption | with_reducible apply State.enterSafe_steady | with_reducible apply State.move_steady | with_reducible apply Steady.ite | with_reducible apply Steady.foldl | with_reducible exact (rfl : _ = _) | intro _))

theorem State.latchCtx_steady {s₀ : State} (s : State) (c : CtxId) (hk : Steady s₀ s) : Steady s₀ (State.latchCtx s c) := by
  unfold State.latchCtx
  iterate 5 (
    repeat (first | with_reducible assumption | with_reducible apply State.safeTrigger_steady | with_reducible apply State.forceCtx_steady | with_reducible apply State.stopReg_steady | with_reducible apply State.parkAll_steady | with_reducible apply State.offCmd_steady | with_reducible apply State.modCtx_steady | with_reducible apply Steady.ite | with_reducible apply Steady.foldl | with_reducible exact (rfl : _ = _) | intro _))

theorem State.declareFlag_steady {s₀ : State} (s : State) (c : CtxId) (k : FClass) (hk : Steady s₀ s) : Steady s₀ (State.declareFlag s c k) := by
  unfold State.declareFlag
  iterate 5 (
    repeat (first | with_reducible assumption | with_reducible apply State.pgDrop_steady | with_reducible apply State.traceTrigger_steady | with_reducible apply State.snapshots_steady | with_reducible apply State.summary_steady | with_reducible apply State.event_steady | with_reducible apply State.modCtx_steady | with_reducible apply Steady.ite | with_reducible apply Steady.foldl | with_reducible exact (rfl : _ = _) | intro _))

theorem State.retryCtx_steady {s₀ : State} (s : State) (c : CtxId) (hk : Steady s₀ s) : Steady s₀ (State.retryCtx s c) := by
  unfold State.retryCtx
  iterate 5 (
    repeat (first | with_reducible assumption | with_reducible apply State.latchCtx_steady | with_reducible apply State.modCtx_steady | with_reducible apply Steady.ite | with_reducible apply Steady.foldl | with_reducible exact (rfl : _ = _) | intro _))

theorem State.takeRelease_steady {s₀ : State} (s : State) (h : HalfId) (hk : Steady s₀ s) : Steady s₀ (State.takeRelease s h) := by
  unfold State.takeRelease
  iterate 5 (
    all_goals (try ((with_reducible apply Steady.lit); (case h1 => exact rfl); (case h2 => exact rfl); (case h3 => exact rfl); (case h4 => exact rfl); (case h5 => exact rfl)))
    repeat (first | with_reducible assumption | with_reducible apply State.modHs_steady | with_reducible apply Steady.ite | with_reducible apply Steady.foldl | with_reducible exact (rfl : _ = _) | intro _))

theorem State.failoverCtx_steady {s₀ : State} (s : State) (c : CtxId) (k : FClass) (hk : Steady s₀ s) : Steady s₀ (State.failoverCtx s c k) := by
  unfold State.failoverCtx
  iterate 5 (
    repeat (first | with_reducible assumption | with_reducible apply State.takeRelease_steady | with_reducible apply State.latchCtx_steady | with_reducible apply State.modCtx_steady | with_reducible apply Steady.ite | with_reducible apply Steady.foldl | with_reducible exact (rfl : _ = _) | intro _)
    all_goals (try ((with_reducible apply Steady.lit); (case h1 => exact rfl); (case h2 => exact rfl); (case h3 => exact rfl); (case h4 => exact rfl); (case h5 => exact rfl)))
    all_goals (try dsimp only)
    all_goals (try split))

theorem State.setLast_steady {s₀ : State} (s : State) (c : CtxId) (k : FClass) (hk : Steady s₀ s) : Steady s₀ (State.setLast s c k) := by
  unfold State.setLast
  iterate 5 (
    repeat (first | with_reducible assumption | with_reducible apply State.modCtx_steady | with_reducible apply Steady.ite | with_reducible apply Steady.foldl | with_reducible exact (rfl : _ = _) | intro _))

theorem State.actCtx_steady {s₀ : State} (s : State) (c : CtxId) (k : FClass) (hk : Steady s₀ s) : Steady s₀ (State.actCtx s c k) := by
  unfold State.actCtx
  iterate 5 (
    repeat (first | with_reducible assumption | with_reducible apply State.setLast_steady | with_reducible apply State.failoverCtx_steady | with_reducible apply State.retryCtx_steady | with_reducible apply State.latchCtx_steady | with_reducible apply Steady.ite | with_reducible apply Steady.foldl | with_reducible exact (rfl : _ = _) | intro _)
    all_goals (try ((with_reducible apply Steady.lit); (case h1 => exact rfl); (case h2 => exact rfl); (case h3 => exact rfl); (case h4 => exact rfl); (case h5 => exact rfl)))
    all_goals (try split))

theorem State.declareCtx_steady {s₀ : State} (s : State) (c : CtxId) (ks : List FClass) (hk : Steady s₀ s) : Steady s₀ (State.declareCtx s c ks) := by
  unfold State.declareCtx
  iterate 5 (
    repeat (first | with_reducible assumption | with_reducible apply State.actCtx_steady | with_reducible apply State.declareFlag_steady | with_reducible apply Steady.ite | with_reducible apply Steady.foldl | with_reducible exact (rfl : _ = _) | intro _)
    all_goals (try ((with_reducible apply Steady.lit); (case h1 => exact rfl); (case h2 => exact rfl); (case h3 => exact rfl); (case h4 => exact rfl); (case h5 => exact rfl)))
    all_goals (try split))

theorem State.declareChan_steady {s₀ : State} (s : State) (c : CtxId) (k : FClass) (hk : Steady s₀ s) : Steady s₀ (State.declareChan s c k) := by
  unfold State.declareChan
  iterate 5 (
    repeat (first | with_reducible assumption | with_reducible apply State.setLast_steady | with_reducible apply State.declareFlag_steady | with_reducible apply State.safeTrigger_steady | with_reducible apply State.tryRelease_steady | with_reducible apply State.chanFault_steady | with_reducible apply State.modChan_steady | with_reducible apply State.modCtx_steady | with_reducible apply Steady.ite | with_reducible apply Steady.foldl | with_reducible exact (rfl : _ = _) | intro _)
    all_goals (try ((with_reducible apply Steady.lit); (case h1 => exact rfl); (case h2 => exact rfl); (case h3 => exact rfl); (case h4 => exact rfl); (case h5 => exact rfl)))
    all_goals (try dsimp only)
    all_goals (try split))

theorem State.imonFault_steady {s₀ : State} (s : State) (p : PhaseId) (hk : Steady s₀ s) : Steady s₀ (State.imonFault s p) := by
  unfold State.imonFault
  iterate 5 (
    repeat (first | with_reducible assumption | with_reducible apply State.declareCtx_steady | with_reducible apply State.modPh_steady | with_reducible apply State.modCtx_steady | with_reducible apply Steady.ite | with_reducible apply Steady.foldl | with_reducible exact (rfl : _ = _) | intro _))

theorem State.releasedEvent_steady {s₀ : State} (s : State) (c : CtxId) (k : FClass) (hk : Steady s₀ s) : Steady s₀ (State.releasedEvent s c k) := by
  unfold State.releasedEvent
  iterate 5 (
    repeat (first | with_reducible assumption | with_reducible apply State.event_steady | with_reducible apply Steady.ite | with_reducible apply Steady.foldl | with_reducible exact (rfl : _ = _) | intro _))

theorem State.calEnd_steady {s₀ : State} (s : State) (code : Nat) (hk : Steady s₀ s) : Steady s₀ (State.calEnd s code) := by
  unfold State.calEnd
  iterate 5 (
    repeat (first | with_reducible assumption | with_reducible apply State.event_steady | with_reducible apply Steady.ite | with_reducible apply Steady.foldl | with_reducible exact (rfl : _ = _) | intro _)
    all_goals (try ((with_reducible apply Steady.lit); (case h1 => exact rfl); (case h2 => exact rfl); (case h3 => exact rfl); (case h4 => exact rfl); (case h5 => exact rfl)))
    repeat (first | with_reducible assumption | with_reducible apply State.event_steady | with_reducible apply Steady.ite | with_reducible apply Steady.foldl | with_reducible exact (rfl : _ = _) | intro _))

theorem State.calSample_steady {s₀ : State} (s : State) (t : CalTarget) (code : Int) (hk : Steady s₀ s) : Steady s₀ (State.calSample s t code) := by
  unfold State.calSample
  iterate 5 (
    repeat (first | with_reducible assumption | with_reducible apply State.calEnd_steady | with_reducible apply Steady.ite | with_reducible apply Steady.foldl | with_reducible exact (rfl : _ = _) | intro _)
    all_goals (try ((with_reducible apply Steady.lit); (case h1 => exact rfl); (case h2 => exact rfl); (case h3 => exact rfl); (case h4 => exact rfl); (case h5 => exact rfl)))
    repeat (first | with_reducible assumption | with_reducible apply State.calEnd_steady | with_reducible apply Steady.ite | with_reducible apply Steady.foldl | with_reducible exact (rfl : _ = _) | intro _))

theorem State.loseElig_steady {s₀ : State} (s : State) (h : HalfId) (f : HalfS → HalfS) (hk : Steady s₀ s) : Steady s₀ (State.loseElig s h f) := by
  unfold State.loseElig
  iterate 5 (
    repeat (first | with_reducible assumption | with_reducible apply State.modHs_steady | with_reducible apply Steady.ite | with_reducible apply Steady.foldl | with_reducible exact (rfl : _ = _) | intro _))

theorem State.retire_steady {s₀ : State} (s : State) (h : HalfId) (hk : Steady s₀ s) : Steady s₀ (State.retire s h) := by
  unfold State.retire
  iterate 5 (
    repeat (first | with_reducible assumption | with_reducible apply State.loseElig_steady | with_reducible apply State.summary_steady | with_reducible apply State.event_steady | with_reducible apply Steady.ite | with_reducible apply Steady.foldl | with_reducible exact (rfl : _ = _) | intro _))

theorem State.attribError_steady {s₀ : State} (s : State) (h : HalfId) (f : HalfS → HalfS) (hk : Steady s₀ s) : Steady s₀ (State.attribError s h f) := by
  unfold State.attribError
  iterate 5 (
    repeat (first | with_reducible assumption | with_reducible apply State.retire_steady | with_reducible apply State.loseElig_steady | with_reducible apply Steady.ite | with_reducible apply Steady.foldl | with_reducible exact (rfl : _ = _) | intro _))

theorem State.residueError_steady {s₀ : State} (s : State) (h : HalfId) (c : CtxId) (hk : Steady s₀ s) : Steady s₀ (State.residueError s h c) := by
  unfold State.residueError
  iterate 5 (
    repeat (first | with_reducible assumption | with_reducible apply State.attribError_steady | with_reducible apply State.setLast_steady | with_reducible apply State.declareFlag_steady | with_reducible apply Steady.ite | with_reducible apply Steady.foldl | with_reducible exact (rfl : _ = _) | intro _))

theorem State.signalResidue_steady {s₀ : State} (t s : State) (c : CtxId) (hk : Steady s₀ s) : Steady s₀ (State.signalResidue t s c) := by
  have k1 : Steady s₀ (if t.east.cell[c].residueErrors < s.east.cell[c].residueErrors then s.residueError .east c else s) :=
    Steady.ite (State.residueError_steady _ _ _ hk) hk
  exact Steady.ite (State.residueError_steady _ _ _ k1) k1

theorem State.countCorr_steady {s₀ : State} (s : State) (h : HalfId) (c : CtxId) (hk : Steady s₀ s) : Steady s₀ (State.countCorr s h c) := by
  unfold State.countCorr
  iterate 5 (
    repeat (first | with_reducible assumption | with_reducible apply State.modHs_steady | with_reducible apply State.modCtx_steady | with_reducible apply Steady.ite | with_reducible apply Steady.foldl | with_reducible exact (rfl : _ = _) | intro _))

theorem State.bcast_steady {s₀ : State} (s : State) (c : CtxId) (e : BcastErr) (hk : Steady s₀ s) : Steady s₀ (State.bcast s c e) := by
  have k1 : Steady s₀ (if e.east = .single then s.countCorr .east c else s) := Steady.ite (State.countCorr_steady s _ _ hk) hk
  unfold State.bcast
  extract_lets s1 s2
  have k2 : Steady s₀ s2 := Steady.ite (State.countCorr_steady s1 _ _ k1) k1
  clear_value s2
  split
  · exact State.summaryFree_steady _ _ _ (k2.same rfl rfl rfl rfl rfl)
  · exact State.residueError_steady _ _ _ k2
  · exact State.residueError_steady _ _ _ k2
  · exact k2

theorem State.toPorts_steady {s₀ : State} (s : State) (c : CtxId) (e : BcastErr) (f : Cell → Cell) (hk : Steady s₀ s) : Steady s₀ (State.toPorts s c e f) := by
  unfold State.toPorts
  iterate 5 (
    all_goals (try ((with_reducible apply Steady.lit); (case h1 => exact rfl); (case h2 => exact rfl); (case h3 => exact rfl); (case h4 => exact rfl); (case h5 => exact rfl)))
    repeat (first | with_reducible assumption | with_reducible apply Steady.ite | with_reducible apply Steady.foldl | with_reducible exact (rfl : _ = _) | intro _))

theorem State.keepStopped_steady {s₀ : State} (before s : State) (hk : Steady s₀ s) : Steady s₀ (State.keepStopped before s) := by
  unfold State.keepStopped
  dsimp only
  split <;> split <;> exact hk.same rfl rfl rfl rfl rfl

theorem State.capRead_steady {s₀ : State} (s : State) (c : CtxId) (a : Nat) (hk : Steady s₀ s) : Steady s₀ (State.capRead s c a).1 := by
  unfold State.capRead
  iterate 5 (
    repeat (first | with_reducible assumption | with_reducible apply State.modCtx_steady | with_reducible apply Steady.ite | with_reducible apply Steady.foldl | with_reducible exact (rfl : _ = _) | intro _)
    all_goals (try ((with_reducible apply Steady.lit); (case h1 => exact rfl); (case h2 => exact rfl); (case h3 => exact rfl); (case h4 => exact rfl); (case h5 => exact rfl)))
    all_goals (try dsimp only)
    all_goals (try split))

theorem State.capReads_steady {s₀ : State} (s : State) (c : CtxId) (l : List Nat) (hk : Steady s₀ s) : Steady s₀ (State.capReads s c l).1 := by
  induction l generalizing s with
  | nil => exact hk
  | cons a l ih => exact ih _ (State.capRead_steady s c a hk)

theorem State.respond_steady {s₀ : State} (s : State) (r : Req) (res : Nat) (detail : Nat) (data : List Word) (hk : Steady s₀ s) :
    Steady s₀ (s.respond r res detail data) := hk.same rfl rfl rfl rfl rfl

theorem State.interrupt_steady {s₀ : State} (s : State) (hk : Steady s₀ s) : Steady s₀ (State.interrupt s) := by
  refine hk.trans ?_
  have k1 (l : List Req) (t : State) (h : Steady s t) :
      Steady s (l.foldl (fun s r => if r.box = .pmb then s else s.respond r ansInterrupted 0 []) t) :=
    Steady.foldl h (fun t r h => Steady.ite h (State.respond_steady _ _ _ _ _ h)) _
  have k2 (l : List PmbJob) (t : State) (h1 : t.clk = s.clk) (h2 : t.gInF = s.gInF) (h3 : t.nv = s.nv) (h4 : t.led = s.led) :
      let u := l.foldl (fun s j => s.pmbRefuse j.code ansInterrupted) t
      u.clk = s.clk ∧ u.gInF = s.gInF ∧ u.nv = s.nv ∧ u.led = s.led := by
    induction l generalizing t with
    | nil => exact ⟨h1, h2, h3, h4⟩
    | cons j l ih => exact ih _ h1 h2 h3 h4
  unfold State.interrupt
  extract_lets l js x1 x2 s1 s2
  have k3 := k2 js s1 rfl rfl rfl rfl
  refine k1 l s2 ⟨k3.1, k3.2.1, k3.2.2.1, k3.2.2.2, fun e => ?_⟩
  have e1 : js = [] := e
  simp only [s2, s1, e1, List.foldl_nil, x2]
  rw [← e]

theorem State.setHolder_steady {s₀ : State} (s : State) (h : Option HalfId) (hk : Steady s₀ s) : Steady s₀ (State.setHolder s h) := by
  unfold State.setHolder
  iterate 5 (
    all_goals (try ((with_reducible apply Steady.lit); (case h1 => exact rfl); (case h2 => exact rfl); (case h3 => exact rfl); (case h4 => exact rfl); (case h5 => exact rfl)))
    repeat (first | with_reducible assumption | with_reducible apply Steady.ite | with_reducible apply Steady.foldl | with_reducible exact (rfl : _ = _) | intro _))

theorem State.arbVote_steady {s₀ : State} (s : State) (hk : Steady s₀ s) : Steady s₀ (State.arbVote s) := by
  unfold State.arbVote
  iterate 5 (
    repeat (first | with_reducible assumption | with_reducible apply State.setHolder_steady | with_reducible apply State.summaryFree_steady | with_reducible apply Steady.ite | with_reducible apply Steady.foldl | with_reducible exact (rfl : _ = _) | intro _)
    all_goals (try ((with_reducible apply Steady.lit); (case h1 => exact rfl); (case h2 => exact rfl); (case h3 => exact rfl); (case h4 => exact rfl); (case h5 => exact rfl)))
    repeat (first | with_reducible assumption | with_reducible apply State.setHolder_steady | with_reducible apply State.summaryFree_steady | with_reducible apply Steady.ite | with_reducible apply Steady.foldl | with_reducible exact (rfl : _ = _) | intro _))

theorem State.endRelease_steady {s₀ : State} (s : State) (hk : Steady s₀ s) : Steady s₀ (State.endRelease s) := by
  unfold State.endRelease
  iterate 5 (
    all_goals (try ((with_reducible apply Steady.lit); (case h1 => exact rfl); (case h2 => exact rfl); (case h3 => exact rfl); (case h4 => exact rfl); (case h5 => exact rfl)))
    repeat (first | with_reducible assumption | with_reducible apply Steady.ite | with_reducible apply Steady.foldl | with_reducible exact (rfl : _ = _) | intro _))

theorem State.moveSummit_steady {s₀ : State} (s : State) (h : HalfId) (hk : Steady s₀ s) : Steady s₀ (State.moveSummit s h) := by
  unfold State.moveSummit
  iterate 5 (
    repeat (first | with_reducible assumption | with_reducible apply State.endRelease_steady | with_reducible apply State.setHolder_steady | with_reducible apply State.interrupt_steady | with_reducible apply State.modHs_steady | with_reducible apply Steady.ite | with_reducible apply Steady.foldl | with_reducible exact (rfl : _ = _) | intro _))

theorem State.refuseRelease_steady {s₀ : State} (s : State) (h : HalfId) (hk : Steady s₀ s) : Steady s₀ (State.refuseRelease s h) := by
  unfold State.refuseRelease
  iterate 5 (
    all_goals (try ((with_reducible apply Steady.lit); (case h1 => exact rfl); (case h2 => exact rfl); (case h3 => exact rfl); (case h4 => exact rfl); (case h5 => exact rfl)))
    repeat (first | with_reducible assumption | with_reducible apply State.endRelease_steady | with_reducible apply State.modHs_steady | with_reducible apply Steady.ite | with_reducible apply Steady.foldl | with_reducible exact (rfl : _ = _) | intro _))

theorem State.requestRelease_steady {s₀ : State} (s : State) (h : HalfId) (hk : Steady s₀ s) : Steady s₀ (State.requestRelease s h) := by
  unfold State.requestRelease
  iterate 5 (
    repeat (first | with_reducible assumption | with_reducible apply State.refuseRelease_steady | with_reducible apply State.takeRelease_steady | with_reducible apply Steady.ite | with_reducible apply Steady.foldl | with_reducible exact (rfl : _ = _) | intro _))

theorem State.noHalf_steady {s₀ : State} (s : State) (hk : Steady s₀ s) : Steady s₀ (State.noHalf s) := by
  unfold State.noHalf
  iterate 5 (
    repeat (first | with_reducible assumption | with_reducible apply State.endRelease_steady | with_reducible apply State.setHolder_steady | with_reducible apply State.safeTrigger_steady | with_reducible apply State.modHs_steady | with_reducible apply Steady.ite | with_reducible apply Steady.foldl | with_reducible exact (rfl : _ = _) | intro _)
    all_goals (try ((with_reducible apply Steady.lit); (case h1 => exact rfl); (case h2 => exact rfl); (case h3 => exact rfl); (case h4 => exact rfl); (case h5 => exact rfl)))
    repeat (first | with_reducible assumption | with_reducible apply State.endRelease_steady | with_reducible apply State.setHolder_steady | with_reducible apply State.safeTrigger_steady | with_reducible apply State.modHs_steady | with_reducible apply Steady.ite | with_reducible apply Steady.foldl | with_reducible exact (rfl : _ = _) | intro _))

theorem State.failover_steady {s₀ : State} (s : State) (h : HalfId) (hk : Steady s₀ s) : Steady s₀ (State.failover s h) := by
  unfold State.failover
  iterate 5 (
    repeat (first | with_reducible assumption | with_reducible apply State.noHalf_steady | with_reducible apply State.moveSummit_steady | with_reducible apply State.summary_steady | with_reducible apply State.event_steady | with_reducible apply Steady.ite | with_reducible apply Steady.foldl | with_reducible exact (rfl : _ = _) | intro _)
    all_goals (try ((with_reducible apply Steady.lit); (case h1 => exact rfl); (case h2 => exact rfl); (case h3 => exact rfl); (case h4 => exact rfl); (case h5 => exact rfl)))
    repeat (first | with_reducible assumption | with_reducible apply State.noHalf_steady | with_reducible apply State.moveSummit_steady | with_reducible apply State.summary_steady | with_reducible apply State.event_steady | with_reducible apply Steady.ite | with_reducible apply Steady.foldl | with_reducible exact (rfl : _ = _) | intro _))

theorem State.firstHolder_steady {s₀ : State} (s : State) (hk : Steady s₀ s) : Steady s₀ (State.firstHolder s) := by
  unfold State.firstHolder
  iterate 5 (
    repeat (first | with_reducible assumption | with_reducible apply State.noHalf_steady | with_reducible apply State.setHolder_steady | with_reducible apply State.interrupt_steady | with_reducible apply Steady.ite | with_reducible apply Steady.foldl | with_reducible exact (rfl : _ = _) | intro _))

theorem State.requalify_steady {s₀ : State} (s : State) (east west : Bool) (hk : Steady s₀ s) : Steady s₀ (State.requalify s east west) := by
  unfold State.requalify
  iterate 5 (
    all_goals (try ((with_reducible apply Steady.lit); (case h1 => exact rfl); (case h2 => exact rfl); (case h3 => exact rfl); (case h4 => exact rfl); (case h5 => exact rfl)))
    repeat (first | with_reducible assumption | with_reducible apply State.firstHolder_steady | with_reducible apply State.modHs_steady | with_reducible apply State.halves_steady | with_reducible apply Steady.ite | with_reducible apply Steady.foldl | with_reducible exact (rfl : _ = _) | intro _))

theorem State.copyHalf_steady {s₀ : State} (s : State) (h : HalfId) (hk : Steady s₀ s) : Steady s₀ (State.copyHalf s h) := by
  unfold State.copyHalf
  iterate 5 (
    repeat (first | with_reducible assumption | with_reducible apply State.modHs_steady | with_reducible apply State.setHalf_steady | with_reducible apply Steady.ite | with_reducible apply Steady.foldl | with_reducible exact (rfl : _ = _) | intro _)
    all_goals (try ((with_reducible apply Steady.lit); (case h1 => exact rfl); (case h2 => exact rfl); (case h3 => exact rfl); (case h4 => exact rfl); (case h5 => exact rfl)))
    repeat (first | with_reducible assumption | with_reducible apply State.modHs_steady | with_reducible apply State.setHalf_steady | with_reducible apply Steady.ite | with_reducible apply Steady.foldl | with_reducible exact (rfl : _ = _) | intro _))

theorem State.forceTargets_steady {s₀ : State} (s : State) (c : CtxId) (hk : Steady s₀ s) : Steady s₀ (State.forceTargets s c) := by
  unfold State.forceTargets
  iterate 5 (
    all_goals (try ((with_reducible apply Steady.lit); (case h1 => exact rfl); (case h2 => exact rfl); (case h3 => exact rfl); (case h4 => exact rfl); (case h5 => exact rfl)))
    repeat (first | with_reducible assumption | with_reducible apply Steady.ite | with_reducible apply Steady.foldl | with_reducible exact (rfl : _ = _) | intro _))

theorem State.assertGroup_steady {s₀ : State} (s : State) (c : CtxId) (hk : Steady s₀ s) : Steady s₀ (State.assertGroup s c) := by
  unfold State.assertGroup
  iterate 5 (
    repeat (first | with_reducible assumption | with_reducible apply State.forceTargets_steady | with_reducible apply State.modCtx_steady | with_reducible apply Steady.ite | with_reducible apply Steady.foldl | with_reducible exact (rfl : _ = _) | intro _))

theorem State.deassertGroup_steady {s₀ : State} (s : State) (c : CtxId) (hk : Steady s₀ s) : Steady s₀ (State.deassertGroup s c) := by
  unfold State.deassertGroup
  iterate 5 (
    repeat (first | with_reducible assumption | with_reducible apply State.modCtx_steady | with_reducible apply Steady.ite | with_reducible apply Steady.foldl | with_reducible exact (rfl : _ = _) | intro _))

theorem State.followGroup_steady {s₀ : State} (s : State) (c : CtxId) (hk : Steady s₀ s) : Steady s₀ (State.followGroup s c) := by
  unfold State.followGroup
  iterate 5 (
    repeat (first | with_reducible assumption | with_reducible apply State.deassertGroup_steady | with_reducible apply State.assertGroup_steady | with_reducible apply State.modCtx_steady | with_reducible apply Steady.ite | with_reducible apply Steady.foldl | with_reducible exact (rfl : _ = _) | intro _))

theorem State.followGroups_steady {s₀ : State} (s : State) (hk : Steady s₀ s) : Steady s₀ (State.followGroups s) := by
  unfold State.followGroups
  iterate 5 (
    repeat (first | with_reducible assumption | with_reducible apply State.followGroup_steady | with_reducible apply Steady.ite | with_reducible apply Steady.foldl | with_reducible exact (rfl : _ = _) | intro _))

theorem State.cragConfig_steady {s₀ : State} (s : State) (hk : Steady s₀ s) : Steady s₀ (State.cragConfig s) := by
  unfold State.cragConfig
  iterate 5 (
    repeat (first | with_reducible assumption | with_reducible apply State.followGroups_steady | with_reducible apply Steady.ite | with_reducible apply Steady.foldl | with_reducible exact (rfl : _ = _) | intro _)
    all_goals (try ((with_reducible apply Steady.lit); (case h1 => exact rfl); (case h2 => exact rfl); (case h3 => exact rfl); (case h4 => exact rfl); (case h5 => exact rfl)))
    repeat (first | with_reducible assumption | with_reducible apply State.followGroups_steady | with_reducible apply Steady.ite | with_reducible apply Steady.foldl | with_reducible exact (rfl : _ = _) | intro _))

theorem State.settle_steady {s₀ : State} (s : State) (ps : List PhaseId) (hk : Steady s₀ s) : Steady s₀ (State.settle s ps) := by
  unfold State.settle
  iterate 5 (
    repeat (first | with_reducible assumption | with_reducible apply State.halves_steady | with_reducible apply Steady.ite | with_reducible apply Steady.foldl | with_reducible exact (rfl : _ = _) | intro _))

theorem State.phaseCounts_steady {s₀ : State} (s : State) (code : BitVec 10) (irefBad : Bool) (p : PhaseId) (hk : Steady s₀ s) : Steady s₀ (State.phaseCounts s code irefBad p) := by
  unfold State.phaseCounts
  iterate 5 (
    repeat (first | with_reducible assumption | with_reducible apply State.calSample_steady | with_reducible apply State.imonFault_steady | with_reducible apply State.halves_steady | with_reducible apply State.modPh_steady | with_reducible apply State.modCtx_steady | with_reducible apply Steady.ite | with_reducible apply Steady.foldl | with_reducible exact (rfl : _ = _) | intro _))

theorem State.phaseWord_steady {s₀ : State} (s : State) (code : BitVec 10) (irefBad : Bool) (e : BcastErr) (p : PhaseId) (hk : Steady s₀ s) : Steady s₀ (State.phaseWord s code irefBad e p) := by
  unfold State.phaseWord
  iterate 5 (
    repeat (first | with_reducible assumption | with_reducible apply State.phaseCounts_steady | with_reducible apply Steady.ite | with_reducible apply Steady.foldl | with_reducible exact (rfl : _ = _) | intro _)
    all_goals (try ((with_reducible apply Steady.lit); (case h1 => exact rfl); (case h2 => exact rfl); (case h3 => exact rfl); (case h4 => exact rfl); (case h5 => exact rfl)))
    repeat (first | with_reducible assumption | with_reducible apply State.phaseCounts_steady | with_reducible apply Steady.ite | with_reducible apply Steady.foldl | with_reducible exact (rfl : _ = _) | intro _))

theorem State.holdWords_steady {s₀ : State} (s : State) (c : CtxId) (hk : Steady s₀ s) : Steady s₀ (State.holdWords s c) := by
  unfold State.holdWords
  iterate 5 (
    repeat (first | with_reducible assumption | with_reducible apply State.halves_steady | with_reducible apply Steady.ite | with_reducible apply Steady.foldl | with_reducible exact (rfl : _ = _) | intro _))

theorem State.followStart_steady {s₀ : State} (s : State) (p : PhaseId) (hk : Steady s₀ s) : Steady s₀ (State.followStart s p) := by
  unfold State.followStart
  iterate 5 (
    repeat (first | with_reducible assumption | with_reducible apply State.modPh_steady | with_reducible apply Steady.ite | with_reducible apply Steady.foldl | with_reducible exact (rfl : _ = _) | intro _)
    all_goals (try ((with_reducible apply Steady.lit); (case h1 => exact rfl); (case h2 => exact rfl); (case h3 => exact rfl); (case h4 => exact rfl); (case h5 => exact rfl)))
    all_goals (try split))

theorem State.follow_steady {s₀ : State} (s : State) (hk : Steady s₀ s) : Steady s₀ (State.follow s) := by
  unfold State.follow
  iterate 5 (
    all_goals (try ((with_reducible apply Steady.lit); (case h1 => exact rfl); (case h2 => exact rfl); (case h3 => exact rfl); (case h4 => exact rfl); (case h5 => exact rfl)))
    repeat (first | with_reducible assumption | with_reducible apply Steady.ite | with_reducible apply Steady.foldl | with_reducible exact (rfl : _ = _) | intro _))

theorem State.innerOne_steady {s₀ : State} (s : State) (c : CtxId) (hk : Steady s₀ s) : Steady s₀ (State.innerOne s c) := by
  unfold State.innerOne
  iterate 5 (
    repeat (first | with_reducible assumption | with_reducible apply State.followStart_steady | with_reducible apply State.holdWords_steady | with_reducible apply State.signalResidue_steady | with_reducible apply State.summary_steady | with_reducible apply State.event_steady | with_reducible apply Steady.ite | with_reducible apply Steady.foldl | with_reducible exact (rfl : _ = _) | intro _)
    all_goals (try ((with_reducible apply Steady.lit); (case h1 => exact rfl); (case h2 => exact rfl); (case h3 => exact rfl); (case h4 => exact rfl); (case h5 => exact rfl)))
    repeat (first | with_reducible assumption | with_reducible apply State.followStart_steady | with_reducible apply State.holdWords_steady | with_reducible apply State.signalResidue_steady | with_reducible apply State.summary_steady | with_reducible apply State.event_steady | with_reducible apply Steady.ite | with_reducible apply Steady.foldl | with_reducible exact (rfl : _ = _) | intro _)
    all_goals (try dsimp only)
    all_goals (try split))

theorem State.phaseWords_steady {s₀ : State} (s : State) (codes : Vector (BitVec 10) 96) (irefOut : BitVec 12) (errs : List (PhaseId × BcastErr)) (hk : Steady s₀ s) : Steady s₀ (State.phaseWords s codes irefOut errs) := by
  unfold State.phaseWords
  iterate 5 (
    repeat (first | with_reducible assumption | with_reducible apply State.phaseWord_steady | with_reducible apply Steady.ite | with_reducible apply Steady.foldl | with_reducible exact (rfl : _ = _) | intro _))

theorem State.phaseErr_steady {s₀ : State} (s : State) (errs : List (PhaseId × BcastErr)) (hk : Steady s₀ s) : Steady s₀ (State.phaseErr s errs) := by
  unfold State.phaseErr
  iterate 5 (
    repeat (first | with_reducible assumption | with_reducible apply State.bcast_steady | with_reducible apply Steady.ite | with_reducible apply Steady.foldl | with_reducible exact (rfl : _ = _) | intro _))

theorem State.signalAll_steady {s₀ : State} (t s : State) (hk : Steady s₀ s) : Steady s₀ (State.signalAll t s) :=
  Steady.foldl hk (fun _ _ h => State.signalResidue_steady _ _ _ h) _

theorem State.innerAll_steady {s₀ : State} (s : State) (hk : Steady s₀ s) : Steady s₀ (State.innerAll s) := by
  unfold State.innerAll
  iterate 5 (
    repeat (first | with_reducible assumption | with_reducible apply State.innerOne_steady | with_reducible apply Steady.ite | with_reducible apply Steady.foldl | with_reducible exact (rfl : _ = _) | intro _))

theorem State.capPut_steady {s₀ : State} (s : State) (c : CtxId) (a : Nat) (w : Word) (hk : Steady s₀ s) : Steady s₀ (State.capPut s c a w) := by
  unfold State.capPut
  iterate 5 (
    repeat (first | with_reducible assumption | with_reducible apply State.halves_steady | with_reducible apply Steady.ite | with_reducible apply Steady.foldl | with_reducible exact (rfl : _ = _) | intro _))

theorem State.modProbe_steady {s₀ : State} (s : State) (c : CtxId) (f : Probe → Probe) (hk : Steady s₀ s) : Steady s₀ (State.modProbe s c f) := by
  unfold State.modProbe
  iterate 5 (
    repeat (first | with_reducible assumption | with_reducible apply State.modCtx_steady | with_reducible apply Steady.ite | with_reducible apply Steady.foldl | with_reducible exact (rfl : _ = _) | intro _))

theorem State.probeInc_steady {s₀ : State} (s : State) (c : CtxId) (i : Nat) (hk : Steady s₀ s) : Steady s₀ (State.probeInc s c i).1 := by
  unfold State.probeInc
  iterate 5 (
    repeat (first | with_reducible assumption | with_reducible apply State.capRead_steady | with_reducible apply Steady.ite | with_reducible apply Steady.foldl | with_reducible exact (rfl : _ = _) | intro _)
    all_goals (try ((with_reducible apply Steady.lit); (case h1 => exact rfl); (case h2 => exact rfl); (case h3 => exact rfl); (case h4 => exact rfl); (case h5 => exact rfl)))
    all_goals (try split))

theorem State.probeDone_steady {s₀ : State} (s : State) (c : CtxId) (hk : Steady s₀ s) : Steady s₀ (State.probeDone s c) := by
  unfold State.probeDone
  iterate 5 (
    repeat (first | with_reducible assumption | with_reducible apply State.modProbe_steady | with_reducible apply State.event_steady | with_reducible apply Steady.ite | with_reducible apply Steady.foldl | with_reducible exact (rfl : _ = _) | intro _))

theorem State.probePoint_steady {s₀ : State} (s : State) (c : CtxId) (i : Nat) (hk : Steady s₀ s) : Steady s₀ (State.probePoint s c i) := by
  unfold State.probePoint
  iterate 5 (
    repeat (first | with_reducible assumption | with_reducible apply State.probeDone_steady | with_reducible apply State.probeInc_steady | with_reducible apply State.modProbe_steady | with_reducible apply Steady.ite | with_reducible apply Steady.foldl | with_reducible exact (rfl : _ = _) | intro _))

theorem State.probeStart_steady {s₀ : State} (s : State) (c : CtxId) (hk : Steady s₀ s) : Steady s₀ (State.probeStart s c) := by
  unfold State.probeStart
  iterate 5 (
    repeat (first | with_reducible assumption | with_reducible apply State.probePoint_steady | with_reducible apply State.modProbe_steady | with_reducible apply State.modCtx_steady | with_reducible apply Steady.ite | with_reducible apply Steady.foldl | with_reducible exact (rfl : _ = _) | intro _))

theorem State.probePause_steady {s₀ : State} (s : State) (c : CtxId) (pause : Bool) (hk : Steady s₀ s) : Steady s₀ (State.probePause s c pause) := by
  unfold State.probePause
  iterate 5 (
    repeat (first | with_reducible assumption | with_reducible apply State.probePoint_steady | with_reducible apply State.modProbe_steady | with_reducible apply Steady.ite | with_reducible apply Steady.foldl | with_reducible exact (rfl : _ = _) | intro _))

theorem State.probeInject_steady {s₀ : State} (s : State) (c : CtxId) (cur : Bool) (hk : Steady s₀ s) : Steady s₀ (State.probeInject s c cur) := by
  unfold State.probeInject
  iterate 5 (
    repeat (first | with_reducible assumption | with_reducible apply State.modProbe_steady | with_reducible apply Steady.ite | with_reducible apply Steady.foldl | with_reducible exact (rfl : _ = _) | intro _)
    all_goals (try ((with_reducible apply Steady.lit); (case h1 => exact rfl); (case h2 => exact rfl); (case h3 => exact rfl); (case h4 => exact rfl); (case h5 => exact rfl)))
    all_goals (try dsimp only)
    all_goals (try split))

theorem State.storeSums_steady {s₀ : State} (s : State) (c : CtxId) (hk : Steady s₀ s) : Steady s₀ (State.storeSums s c) := by
  unfold State.storeSums
  iterate 5 (
    repeat (first | with_reducible assumption | with_reducible apply State.capPut_steady | with_reducible apply Steady.ite | with_reducible apply Steady.foldl | with_reducible exact (rfl : _ = _) | intro _))

theorem State.probePair_steady {s₀ : State} (s : State) (c : CtxId) (inp out : Int) (hk : Steady s₀ s) : Steady s₀ (State.probePair s c inp out) := by
  unfold State.probePair
  iterate 5 (
    repeat (first | with_reducible assumption | with_reducible apply State.modProbe_steady | with_reducible apply State.capPut_steady | with_reducible apply Steady.ite | with_reducible apply Steady.foldl | with_reducible exact (rfl : _ = _) | intro _))

theorem State.probeAfter_steady {s₀ : State} (s : State) (c : CtxId) (inp out : Int) (hk : Steady s₀ s) : Steady s₀ (State.probeAfter s c inp out) := by
  unfold State.probeAfter
  iterate 5 (
    repeat (first | with_reducible assumption | with_reducible apply State.probePair_steady | with_reducible apply State.storeSums_steady | with_reducible apply State.probePoint_steady | with_reducible apply State.probeDone_steady | with_reducible apply State.probeInc_steady | with_reducible apply State.modProbe_steady | with_reducible apply Steady.ite | with_reducible apply Steady.foldl | with_reducible exact (rfl : _ = _) | intro _)
    all_goals (try ((with_reducible apply Steady.lit); (case h1 => exact rfl); (case h2 => exact rfl); (case h3 => exact rfl); (case h4 => exact rfl); (case h5 => exact rfl)))
    all_goals (try dsimp only)
    all_goals (try split))

theorem State.traceStop_steady {s₀ : State} (s : State) (c : CtxId) (hk : Steady s₀ s) : Steady s₀ (State.traceStop s c) := by
  unfold State.traceStop
  iterate 5 (
    repeat (first | with_reducible assumption | with_reducible apply State.event_steady | with_reducible apply State.modCtx_steady | with_reducible apply Steady.ite | with_reducible apply Steady.foldl | with_reducible exact (rfl : _ = _) | intro _))

theorem State.traceStep_steady {s₀ : State} (s : State) (c : CtxId) (sumI : Int) (hk : Steady s₀ s) : Steady s₀ (State.traceStep s c sumI) := by
  unfold State.traceStep
  iterate 5 (
    repeat (first | with_reducible assumption | with_reducible apply State.traceStop_steady | with_reducible apply State.capPut_steady | with_reducible apply State.modCtx_steady | with_reducible apply Steady.ite | with_reducible apply Steady.foldl | with_reducible exact (rfl : _ = _) | intro _)
    all_goals (try ((with_reducible apply Steady.lit); (case h1 => exact rfl); (case h2 => exact rfl); (case h3 => exact rfl); (case h4 => exact rfl); (case h5 => exact rfl)))
    all_goals (try split))

theorem State.rebind_steady {s₀ : State} (s : State) (c : CtxId) (hk : Steady s₀ s) : Steady s₀ (State.rebind s c) := by
  unfold State.rebind
  iterate 5 (
    repeat (first | with_reducible assumption | with_reducible apply State.halves_steady | with_reducible apply Steady.ite | with_reducible apply Steady.foldl | with_reducible exact (rfl : _ = _) | intro _)
    all_goals (try ((with_reducible apply Steady.lit); (case h1 => exact rfl); (case h2 => exact rfl); (case h3 => exact rfl); (case h4 => exact rfl); (case h5 => exact rfl)))
    repeat (first | with_reducible assumption | with_reducible apply State.halves_steady | with_reducible apply Steady.ite | with_reducible apply Steady.foldl | with_reducible exact (rfl : _ = _) | intro _))

theorem State.setNAct_steady {s₀ : State} (s : State) (c : CtxId) (n : Nat) (hk : Steady s₀ s) : Steady s₀ (State.setNAct s c n) := by
  unfold State.setNAct
  iterate 5 (
    repeat (first | with_reducible assumption | with_reducible apply State.halves_steady | with_reducible apply Steady.ite | with_reducible apply Steady.foldl | with_reducible exact (rfl : _ = _) | intro _))

theorem State.preAct_steady {s₀ : State} (s : State) (c : CtxId) (hk : Steady s₀ s) : Steady s₀ (State.preAct s c) := by
  unfold State.preAct
  iterate 5 (
    repeat (first | with_reducible assumption | with_reducible apply State.setNAct_steady | with_reducible apply Steady.ite | with_reducible apply Steady.foldl | with_reducible exact (rfl : _ = _) | intro _))

theorem State.formPass_steady {s₀ : State} (s : State) (c : CtxId) (hk : Steady s₀ s) : Steady s₀ (State.formPass s c) := by
  unfold State.formPass
  iterate 5 (
    repeat (first | with_reducible assumption | with_reducible apply State.probeStart_steady | with_reducible apply State.modCtx_steady | with_reducible apply Steady.ite | with_reducible apply Steady.foldl | with_reducible exact (rfl : _ = _) | intro _))

theorem State.formE_steady {s₀ : State} (s : State) (c : CtxId) (hk : Steady s₀ s) : Steady s₀ (State.formE s c).1 := by
  unfold State.formE
  iterate 5 (
    repeat (first | with_reducible assumption | with_reducible apply State.formPass_steady | with_reducible apply State.setNAct_steady | with_reducible apply State.flush_steady | with_reducible apply State.halves_steady | with_reducible apply State.modCtx_steady | with_reducible apply Steady.ite | with_reducible apply Steady.foldl | with_reducible exact (rfl : _ = _) | intro _))

theorem State.formTarget_steady {s₀ : State} (s : State) (c : CtxId) (hk : Steady s₀ s) : Steady s₀ (State.formTarget s c) := by
  unfold State.formTarget
  iterate 5 (
    repeat (first | with_reducible assumption | with_reducible apply State.modCtx_steady | with_reducible apply Steady.ite | with_reducible apply Steady.foldl | with_reducible exact (rfl : _ = _) | intro _))

theorem State.schedRun_steady {s₀ : State} (s : State) (c : CtxId) (hk : Steady s₀ s) : Steady s₀ (State.schedRun s c).1 := by
  unfold State.schedRun
  iterate 5 (
    repeat (first | with_reducible assumption | with_reducible apply State.settle_steady | with_reducible apply State.modSched_steady | with_reducible apply Steady.ite | with_reducible apply Steady.foldl | with_reducible exact (rfl : _ = _) | intro _))

theorem State.schedStep_steady {s₀ : State} (s : State) (c : CtxId) (hk : Steady s₀ s) : Steady s₀ (State.schedStep s c).1 := by
  unfold State.schedStep
  iterate 5 (
    repeat (first | with_reducible assumption | with_reducible apply State.schedRun_steady | with_reducible apply Steady.ite | with_reducible apply Steady.foldl | with_reducible exact (rfl : _ = _) | intro _)
    all_goals (try ((with_reducible apply Steady.lit); (case h1 => exact rfl); (case h2 => exact rfl); (case h3 => exact rfl); (case h4 => exact rfl); (case h5 => exact rfl)))
    all_goals (try split))

theorem State.noteSched_steady {s₀ : State} (s : State) (c : CtxId) (hk : Steady s₀ s) : Steady s₀ (State.noteSched s c) := by
  unfold State.noteSched
  iterate 5 (
    repeat (first | with_reducible assumption | with_reducible apply State.settle_steady | with_reducible apply State.modSched_steady | with_reducible apply Steady.ite | with_reducible apply Steady.foldl | with_reducible exact (rfl : _ = _) | intro _))

theorem State.formFloors_steady {s₀ : State} (s : State) (c : CtxId) (before : List Event) (hk : Steady s₀ s) : Steady s₀ (State.formFloors s c before) := by
  unfold State.formFloors
  iterate 5 (
    repeat (first | with_reducible assumption | with_reducible apply State.modSched_steady | with_reducible apply State.fresh_steady | with_reducible apply Steady.ite | with_reducible apply Steady.foldl | with_reducible exact (rfl : _ = _) | intro _))

theorem State.endEvents_steady {s₀ : State} (s : State) (c : CtxId) (hk : Steady s₀ s) : Steady s₀ (State.endEvents s c) := by
  unfold State.endEvents
  iterate 5 (
    repeat (first | with_reducible assumption | with_reducible apply State.endEntry_steady | with_reducible apply State.modSched_steady | with_reducible apply State.halves_steady | with_reducible apply Steady.ite | with_reducible apply Steady.foldl | with_reducible exact (rfl : _ = _) | intro _)
    all_goals (try ((with_reducible apply Steady.lit); (case h1 => exact rfl); (case h2 => exact rfl); (case h3 => exact rfl); (case h4 => exact rfl); (case h5 => exact rfl)))
    all_goals (try dsimp only)
    all_goals (try split))

theorem State.schedIdle_steady {s₀ : State} (s : State) (c : CtxId) (hk : Steady s₀ s) : Steady s₀ (State.schedIdle s c) := by
  unfold State.schedIdle
  iterate 5 (
    repeat (first | with_reducible assumption | with_reducible apply State.endEvents_steady | with_reducible apply State.formFloors_steady | with_reducible apply State.schedRun_steady | with_reducible apply State.flush_steady | with_reducible apply Steady.ite | with_reducible apply Steady.foldl | with_reducible exact (rfl : _ = _) | intro _)
    all_goals (try ((with_reducible apply Steady.lit); (case h1 => exact rfl); (case h2 => exact rfl); (case h3 => exact rfl); (case h4 => exact rfl); (case h5 => exact rfl)))
    repeat (first | with_reducible assumption | with_reducible apply State.endEvents_steady | with_reducible apply State.formFloors_steady | with_reducible apply State.schedRun_steady | with_reducible apply State.flush_steady | with_reducible apply Steady.ite | with_reducible apply Steady.foldl | with_reducible exact (rfl : _ = _) | intro _))

theorem State.shutPhase_steady {s₀ : State} (s : State) (p : PhaseId) (hk : Steady s₀ s) : Steady s₀ (State.shutPhase s p) := by
  unfold State.shutPhase
  iterate 5 (
    repeat (first | with_reducible assumption | with_reducible apply State.declareCtx_steady | with_reducible apply State.modPh_steady | with_reducible apply Steady.ite | with_reducible apply Steady.foldl | with_reducible exact (rfl : _ = _) | intro _))

theorem State.unshutPhase_steady {s₀ : State} (s : State) (p : PhaseId) (hk : Steady s₀ s) : Steady s₀ (State.unshutPhase s p) := by
  unfold State.unshutPhase
  iterate 5 (
    repeat (first | with_reducible assumption | with_reducible apply State.releasedEvent_steady | with_reducible apply State.modPh_steady | with_reducible apply Steady.ite | with_reducible apply Steady.foldl | with_reducible exact (rfl : _ = _) | intro _))

theorem State.enterShut_steady {s₀ : State} (s : State) (z : Fin 19) (hk : Steady s₀ s) : Steady s₀ (State.enterShut s z) := by
  unfold State.enterShut
  iterate 5 (
    repeat (first | with_reducible assumption | with_reducible apply State.shutPhase_steady | with_reducible apply State.loseElig_steady | with_reducible apply State.safeTrigger_steady | with_reducible apply Steady.ite | with_reducible apply Steady.foldl | with_reducible exact (rfl : _ = _) | intro _))

theorem State.leaveShut_steady {s₀ : State} (s : State) (z : Fin 19) (hk : Steady s₀ s) : Steady s₀ (State.leaveShut s z) := by
  unfold State.leaveShut
  iterate 5 (
    repeat (first | with_reducible assumption | with_reducible apply State.unshutPhase_steady | with_reducible apply State.modHs_steady | with_reducible apply Steady.ite | with_reducible apply Steady.foldl | with_reducible exact (rfl : _ = _) | intro _))

theorem State.zoneChange_steady {s₀ : State} (s : State) (z : Fin 19) (old new : Level) (v : Int) (hk : Steady s₀ s) : Steady s₀ (State.zoneChange s z old new v) := by
  unfold State.zoneChange
  iterate 5 (
    repeat (first | with_reducible assumption | with_reducible apply State.leaveShut_steady | with_reducible apply State.enterShut_steady | with_reducible apply State.summary_steady | with_reducible apply State.event_steady | with_reducible apply Steady.ite | with_reducible apply Steady.foldl | with_reducible exact (rfl : _ = _) | intro _)
    all_goals (try ((with_reducible apply Steady.lit); (case h1 => exact rfl); (case h2 => exact rfl); (case h3 => exact rfl); (case h4 => exact rfl); (case h5 => exact rfl)))
    repeat (first | with_reducible assumption | with_reducible apply State.leaveShut_steady | with_reducible apply State.enterShut_steady | with_reducible apply State.summary_steady | with_reducible apply State.event_steady | with_reducible apply Steady.ite | with_reducible apply Steady.foldl | with_reducible exact (rfl : _ = _) | intro _)
    all_goals (try split))

theorem State.throttleStep_steady {s₀ : State} (s : State) (z : Fin 19) (hk : Steady s₀ s) : Steady s₀ (State.throttleStep s z) := by
  unfold State.throttleStep
  iterate 5 (
    repeat (first | with_reducible assumption | with_reducible apply State.commit_steady | with_reducible apply Steady.ite | with_reducible apply Steady.foldl | with_reducible exact (rfl : _ = _) | intro _))

theorem State.evaluate_steady {s₀ : State} (s : State) (z : Fin 19) (hk : Steady s₀ s) : Steady s₀ (State.evaluate s z) := by
  unfold State.evaluate
  iterate 5 (
    repeat (first | with_reducible assumption | with_reducible apply State.throttleStep_steady | with_reducible apply State.zoneChange_steady | with_reducible apply Steady.ite | with_reducible apply Steady.foldl | with_reducible exact (rfl : _ = _) | intro _)
    all_goals (try ((with_reducible apply Steady.lit); (case h1 => exact rfl); (case h2 => exact rfl); (case h3 => exact rfl); (case h4 => exact rfl); (case h5 => exact rfl)))
    repeat (first | with_reducible assumption | with_reducible apply State.throttleStep_steady | with_reducible apply State.zoneChange_steady | with_reducible apply Steady.ite | with_reducible apply Steady.foldl | with_reducible exact (rfl : _ = _) | intro _))

theorem State.quarRelease_steady {s₀ : State} (s : State) (c : CtxId) (hk : Steady s₀ s) : Steady s₀ (State.quarRelease s c) := by
  unfold State.quarRelease
  iterate 5 (
    repeat (first | with_reducible assumption | with_reducible apply State.releasedEvent_steady | with_reducible apply State.modCtx_steady | with_reducible apply Steady.ite | with_reducible apply Steady.foldl | with_reducible exact (rfl : _ = _) | intro _))

theorem State.missed_steady {s₀ : State} (before s : State) (writes : Bool) (h : HalfId) (hk : Steady s₀ s) :
    Steady s₀ (State.missed before s writes h) := by
  have k1 : Steady s₀ (s.setHalf h (before.half h)) := State.setHalf_steady _ _ _ hk
  unfold State.missed
  dsimp only
  exact Steady.ite (State.loseElig_steady _ _ _ k1) hk

theorem State.judgeTarn_steady {s₀ : State} (s : State) (c : CtxId) (hk : Steady s₀ s) : Steady s₀ (State.judgeTarn s c) := by
  unfold State.judgeTarn
  iterate 5 (
    repeat (first | with_reducible assumption | with_reducible apply State.answer_steady | with_reducible apply State.modCtx_steady | with_reducible apply Steady.ite | with_reducible apply Steady.foldl | with_reducible exact (rfl : _ = _) | intro _)
    all_goals (try ((with_reducible apply Steady.lit); (case h1 => exact rfl); (case h2 => exact rfl); (case h3 => exact rfl); (case h4 => exact rfl); (case h5 => exact rfl)))
    all_goals (try dsimp only)
    all_goals (try split))

theorem State.vmeasAll_steady {s₀ : State} (s : State) (c : CtxId) (hk : Steady s₀ s) : Steady s₀ (State.vmeasAll s c) := by
  unfold State.vmeasAll
  iterate 5 (
    repeat (first | with_reducible assumption | with_reducible apply State.holdWords_steady | with_reducible apply State.halves_steady | with_reducible apply Steady.ite | with_reducible apply Steady.foldl | with_reducible exact (rfl : _ = _) | intro _))

theorem State.beginReg_steady {s₀ : State} (s : State) (c : CtxId) (hk : Steady s₀ s) : Steady s₀ (State.beginReg s c) := by
  unfold State.beginReg
  iterate 5 (
    repeat (first | with_reducible assumption | with_reducible apply State.halves_steady | with_reducible apply State.modPh_steady | with_reducible apply State.modCtx_steady | with_reducible apply Steady.ite | with_reducible apply Steady.foldl | with_reducible exact (rfl : _ = _) | intro _))

theorem State.begin_steady {s₀ : State} (s : State) (c : CtxId) (hk : Steady s₀ s) : Steady s₀ (State.begin s c) := by
  unfold State.begin
  iterate 5 (
    repeat (first | with_reducible assumption | with_reducible apply State.beginReg_steady | with_reducible apply State.onCmd_steady | with_reducible apply Steady.ite | with_reducible apply Steady.foldl | with_reducible exact (rfl : _ = _) | intro _))

theorem State.unavailable_steady {s₀ : State} (s : State) (c : CtxId) (hk : Steady s₀ s) : Steady s₀ (State.unavailable s c) := by
  unfold State.unavailable
  iterate 5 (
    repeat (first | with_reducible assumption | with_reducible apply State.declareCtx_steady | with_reducible apply State.stopReg_steady | with_reducible apply Steady.ite | with_reducible apply Steady.foldl | with_reducible exact (rfl : _ = _) | intro _))

theorem State.lawAll_steady {s₀ : State} (s : State) (c : CtxId) (en : Entry) (iff : Iff) (hk : Steady s₀ s) : Steady s₀ (State.lawAll s c en iff) := by
  unfold State.lawAll
  iterate 5 (
    repeat (first | with_reducible assumption | with_reducible apply State.holdWords_steady | with_reducible apply State.modCtx_steady | with_reducible apply Steady.ite | with_reducible apply Steady.foldl | with_reducible exact (rfl : _ = _) | intro _)
    all_goals (try ((with_reducible apply Steady.lit); (case h1 => exact rfl); (case h2 => exact rfl); (case h3 => exact rfl); (case h4 => exact rfl); (case h5 => exact rfl)))
    repeat (first | with_reducible assumption | with_reducible apply State.holdWords_steady | with_reducible apply State.modCtx_steady | with_reducible apply Steady.ite | with_reducible apply Steady.foldl | with_reducible exact (rfl : _ = _) | intro _))

theorem State.ringStep_steady {s₀ : State} (s : State) (c : CtxId) (hk : Steady s₀ s) : Steady s₀ (State.ringStep s c) := by
  unfold State.ringStep
  iterate 5 (
    repeat (first | with_reducible assumption | with_reducible apply State.halves_steady | with_reducible apply State.modCtx_steady | with_reducible apply Steady.ite | with_reducible apply Steady.foldl | with_reducible exact (rfl : _ = _) | intro _))

theorem State.shedStep_steady {s₀ : State} (s : State) (c : CtxId) (hk : Steady s₀ s) : Steady s₀ (State.shedStep s c) := by
  unfold State.shedStep
  iterate 5 (
    repeat (first | with_reducible assumption | with_reducible apply State.setNAct_steady | with_reducible apply State.halves_steady | with_reducible apply State.modCtx_steady | with_reducible apply Steady.ite | with_reducible apply Steady.foldl | with_reducible exact (rfl : _ = _) | intro _))

theorem State.startHeld_steady {s₀ : State} (s : State) (c : CtxId) (p : PhaseId) (hk : Steady s₀ s) : Steady s₀ (State.startHeld s c p) := by
  unfold State.startHeld
  iterate 5 (
    repeat (first | with_reducible assumption | with_reducible apply State.followStart_steady | with_reducible apply State.halves_steady | with_reducible apply Steady.ite | with_reducible apply Steady.foldl | with_reducible exact (rfl : _ = _) | intro _))

theorem State.dropNow_steady {s₀ : State} (s : State) (c : CtxId) (hk : Steady s₀ s) : Steady s₀ (State.dropNow s c) := by
  unfold State.dropNow
  iterate 5 (
    repeat (first | with_reducible assumption | with_reducible apply State.dropHeld_steady | with_reducible apply State.halves_steady | with_reducible apply Steady.ite | with_reducible apply Steady.foldl | with_reducible exact (rfl : _ = _) | intro _))

theorem State.passPhase_steady {s₀ : State} (s : State) (c : CtxId) (hk : Steady s₀ s) : Steady s₀ (State.passPhase s c) := by
  unfold State.passPhase
  iterate 5 (
    repeat (first | with_reducible assumption | with_reducible apply State.dropNow_steady | with_reducible apply State.startHeld_steady | with_reducible apply State.halves_steady | with_reducible apply State.modCtx_steady | with_reducible apply Steady.ite | with_reducible apply Steady.foldl | with_reducible exact (rfl : _ = _) | intro _)
    all_goals (try ((with_reducible apply Steady.lit); (case h1 => exact rfl); (case h2 => exact rfl); (case h3 => exact rfl); (case h4 => exact rfl); (case h5 => exact rfl)))
    all_goals (try dsimp only)
    all_goals (try split))

theorem State.passExit_steady {s₀ : State} (s : State) (c : CtxId) (hk : Steady s₀ s) : Steady s₀ (State.passExit s c) := by
  unfold State.passExit
  iterate 5 (
    repeat (first | with_reducible assumption | with_reducible apply State.dropNow_steady | with_reducible apply State.modCtx_steady | with_reducible apply Steady.ite | with_reducible apply Steady.foldl | with_reducible exact (rfl : _ = _) | intro _))

theorem State.formPhaseStatus_steady {s₀ : State} (s : State) (c : CtxId) (hk : Steady s₀ s) : Steady s₀ (State.formPhaseStatus s c) := by
  unfold State.formPhaseStatus
  iterate 5 (
    repeat (first | with_reducible assumption | with_reducible apply State.modCtx_steady | with_reducible apply Steady.ite | with_reducible apply Steady.foldl | with_reducible exact (rfl : _ = _) | intro _))

theorem State.formClass_steady {s₀ : State} (s : State) (c : CtxId) (hk : Steady s₀ s) : Steady s₀ (State.formClass s c) := by
  unfold State.formClass
  iterate 5 (
    repeat (first | with_reducible assumption | with_reducible apply State.event_steady | with_reducible apply State.modCtx_steady | with_reducible apply Steady.ite | with_reducible apply Steady.foldl | with_reducible exact (rfl : _ = _) | intro _))

theorem State.timers_steady {s₀ : State} (s : State) (c : CtxId) (hk : Steady s₀ s) : Steady s₀ (State.timers s c).1 := by
  unfold State.timers
  iterate 5 (
    repeat (first | with_reducible assumption | with_reducible apply State.modPh_steady | with_reducible apply State.modCtx_steady | with_reducible apply Steady.ite | with_reducible apply Steady.foldl | with_reducible exact (rfl : _ = _) | intro _))

theorem State.shedOc_steady {s₀ : State} (s : State) (c : CtxId) (ps : List PhaseId) (hk : Steady s₀ s) : Steady s₀ (State.shedOc s c ps) := by
  unfold State.shedOc
  iterate 5 (
    repeat (first | with_reducible assumption | with_reducible apply State.modPh_steady | with_reducible apply Steady.ite | with_reducible apply Steady.foldl | with_reducible exact (rfl : _ = _) | intro _))

theorem State.faultStep_steady {s₀ : State} (s : State) (c : CtxId) (hk : Steady s₀ s) : Steady s₀ (State.faultStep s c).1 := by
  unfold State.faultStep
  iterate 5 (
    repeat (first | with_reducible assumption | with_reducible apply State.shedOc_steady | with_reducible apply State.timers_steady | with_reducible apply State.declareCtx_steady | with_reducible apply Steady.ite | with_reducible apply Steady.foldl | with_reducible exact (rfl : _ = _) | intro _))

theorem State.pgStep_steady {s₀ : State} (s : State) (c : CtxId) (was starts runs : Bool) (hk : Steady s₀ s) : Steady s₀ (State.pgStep s c was starts runs) := by
  unfold State.pgStep
  iterate 5 (
    repeat (first | with_reducible assumption | with_reducible apply State.pgDrop_steady | with_reducible apply State.event_steady | with_reducible apply State.modCtx_steady | with_reducible apply Steady.ite | with_reducible apply Steady.foldl | with_reducible exact (rfl : _ = _) | intro _))

theorem State.rundownPark_steady {s₀ : State} (s : State) (c : CtxId) (hk : Steady s₀ s) : Steady s₀ (State.rundownPark s c) := by
  unfold State.rundownPark
  iterate 5 (
    repeat (first | with_reducible assumption | with_reducible apply State.stopReg_steady | with_reducible apply Steady.ite | with_reducible apply Steady.foldl | with_reducible exact (rfl : _ = _) | intro _))

theorem State.closeBoundary_steady {s₀ : State} (s : State) (c : CtxId) (hk : Steady s₀ s) : Steady s₀ (State.closeBoundary s c) := by
  unfold State.closeBoundary
  iterate 5 (
    repeat (first | with_reducible assumption | with_reducible apply State.noteSched_steady | with_reducible apply State.halves_steady | with_reducible apply State.modPh_steady | with_reducible apply State.modCtx_steady | with_reducible apply Steady.ite | with_reducible apply Steady.foldl | with_reducible exact (rfl : _ = _) | intro _))

theorem State.probeDisturb_steady {s₀ : State} (s : State) (c : CtxId) (redirect : Bool) (hk : Steady s₀ s) : Steady s₀ (State.probeDisturb s c redirect) := by
  unfold State.probeDisturb
  split
  · exact State.modProbe_steady _ _ _ hk
  · exact hk

theorem State.regulate_steady {s₀ : State} (s : State) (c : CtxId) (hk : Steady s₀ s) : Steady s₀ (State.regulate s c) := by
  unfold State.regulate
  iterate 5 (
    repeat (first | with_reducible assumption | with_reducible apply State.probeDisturb_steady | with_reducible apply State.passExit_steady | with_reducible apply State.passPhase_steady | with_reducible apply State.shedStep_steady | with_reducible apply State.ringStep_steady | with_reducible apply State.lawAll_steady | with_reducible apply State.judgeTarn_steady | with_reducible apply State.endEvents_steady | with_reducible apply State.formFloors_steady | with_reducible apply State.schedStep_steady | with_reducible apply State.formTarget_steady | with_reducible apply State.formE_steady | with_reducible apply State.preAct_steady | with_reducible apply State.traceStep_steady | with_reducible apply State.probeAfter_steady | with_reducible apply State.probeInject_steady | with_reducible apply State.probePause_steady | with_reducible apply State.modCtx_steady | with_reducible apply Steady.ite | with_reducible apply Steady.foldl | with_reducible exact (rfl : _ = _) | intro _))

theorem State.judgeBoundary_steady {s₀ : State} (s : State) (c : CtxId) (hk : Steady s₀ s) : Steady s₀ (State.judgeBoundary s c) := by
  unfold State.judgeBoundary
  iterate 5 (
    repeat (first | with_reducible assumption | with_reducible apply State.rundownPark_steady | with_reducible apply State.pgStep_steady | with_reducible apply State.faultStep_steady | with_reducible apply State.formPhaseStatus_steady | with_reducible apply State.modCtx_steady | with_reducible apply Steady.ite | with_reducible apply Steady.foldl | with_reducible exact (rfl : _ = _) | intro _))

theorem State.contextStep_steady {s₀ : State} (s : State) (c : CtxId) (hk : Steady s₀ s) : Steady s₀ (State.contextStep s c) := by
  unfold State.contextStep
  iterate 5 (
    repeat (first | with_reducible assumption | with_reducible apply State.judgeBoundary_steady | with_reducible apply State.regulate_steady | with_reducible apply State.formPhaseStatus_steady | with_reducible apply State.unavailable_steady | with_reducible apply State.begin_steady | with_reducible apply State.vmeasAll_steady | with_reducible apply State.judgeTarn_steady | with_reducible apply State.schedIdle_steady | with_reducible apply State.stopReg_steady | with_reducible apply Steady.ite | with_reducible apply Steady.foldl | with_reducible exact (rfl : _ = _) | intro _))

theorem State.lostPhases_steady {s₀ : State} (s : State) (c : CtxId) (hk : Steady s₀ s) : Steady s₀ (State.lostPhases s c) := by
  unfold State.lostPhases
  iterate 5 (
    repeat (first | with_reducible assumption | with_reducible apply State.stopReg_steady | with_reducible apply State.offCmd_steady | with_reducible apply Steady.ite | with_reducible apply Steady.foldl | with_reducible exact (rfl : _ = _) | intro _))

theorem State.inputFaults_steady {s₀ : State} (s : State) (hk : Steady s₀ s) : Steady s₀ (State.inputFaults s) := by
  unfold State.inputFaults
  iterate 5 (
    repeat (first | with_reducible assumption | with_reducible apply State.declareCtx_steady | with_reducible apply State.modCtx_steady | with_reducible apply Steady.ite | with_reducible apply Steady.foldl | with_reducible exact (rfl : _ = _) | intro _))

theorem State.inputRing_steady {s₀ : State} (s : State) (hk : Steady s₀ s) : Steady s₀ (State.inputRing s) := by
  unfold State.inputRing
  iterate 5 (
    repeat (first | with_reducible assumption | with_reducible apply State.halves_steady | with_reducible apply State.modCtx_steady | with_reducible apply Steady.ite | with_reducible apply Steady.foldl | with_reducible exact (rfl : _ = _) | intro _))

theorem State.inputStep_steady {s₀ : State} (s : State) (hk : Steady s₀ s) : Steady s₀ (State.inputStep s) := by
  unfold State.inputStep
  iterate 5 (
    repeat (first | with_reducible assumption | with_reducible apply State.traceStep_steady | with_reducible apply State.inputRing_steady | with_reducible apply State.inputFaults_steady | with_reducible apply State.formPhaseStatus_steady | with_reducible apply State.vmeasAll_steady | with_reducible apply State.modCtx_steady | with_reducible apply Steady.ite | with_reducible apply Steady.foldl | with_reducible exact (rfl : _ = _) | intro _))

theorem State.boundary_steady {s₀ : State} (s : State) (c : CtxId) (hk : Steady s₀ s) : Steady s₀ (State.boundary s c) := by
  unfold State.boundary
  iterate 5 (
    repeat (first | with_reducible assumption | with_reducible apply State.inputStep_steady | with_reducible apply State.lostPhases_steady | with_reducible apply State.contextStep_steady | with_reducible apply State.closeBoundary_steady | with_reducible apply State.formClass_steady | with_reducible apply State.rebind_steady | with_reducible apply Steady.ite | with_reducible apply Steady.foldl | with_reducible exact (rfl : _ = _) | intro _))

theorem State.ftArrives_steady {s₀ : State} (s : State) (c : CtxId) (e : BcastErr) (hk : Steady s₀ s) : Steady s₀ (State.ftArrives s c e) := by
  unfold State.ftArrives
  iterate 5 (
    repeat (first | with_reducible assumption | with_reducible apply State.toPorts_steady | with_reducible apply State.bcast_steady | with_reducible apply Steady.ite | with_reducible apply Steady.foldl | with_reducible exact (rfl : _ = _) | intro _))

theorem State.railOpen_steady {s₀ : State} (s : State) (c : CtxId) (full : Bool) (hk : Steady s₀ s) : Steady s₀ (State.railOpen s c full) := by
  unfold State.railOpen
  iterate 5 (
    repeat (first | with_reducible assumption | with_reducible apply State.declareCtx_steady | with_reducible apply State.modCtx_steady | with_reducible apply Steady.ite | with_reducible apply Steady.foldl | with_reducible exact (rfl : _ = _) | intro _))

theorem State.railCode_steady {s₀ : State} (s : State) (c : CtxId) (code : Nat) (hk : Steady s₀ s) : Steady s₀ (State.railCode s c code) := by
  unfold State.railCode
  iterate 5 (
    repeat (first | with_reducible assumption | with_reducible apply State.modCtx_steady | with_reducible apply Steady.ite | with_reducible apply Steady.foldl | with_reducible exact (rfl : _ = _) | intro _))

theorem State.formIsw_steady {s₀ : State} (s : State) (c : CtxId) (raw : Int) (hk : Steady s₀ s) : Steady s₀ (State.formIsw s c raw) := by
  unfold State.formIsw
  iterate 5 (
    repeat (first | with_reducible assumption | with_reducible apply State.modCtx_steady | with_reducible apply Steady.ite | with_reducible apply Steady.foldl | with_reducible exact (rfl : _ = _) | intro _))

theorem State.ledgerStep_steady {s₀ : State} (s : State) (c : CtxId) (hk : Steady s₀ s) : Steady s₀ (State.ledgerStep s c) := by
  unfold State.ledgerStep
  iterate 5 (
    repeat (first | with_reducible assumption | with_reducible apply State.halves_steady | with_reducible apply State.modCtx_steady | with_reducible apply Steady.ite | with_reducible apply Steady.foldl | with_reducible exact (rfl : _ = _) | intro _)
    all_goals (try ((with_reducible apply Steady.lit); (case h1 => exact rfl); (case h2 => exact rfl); (case h3 => exact rfl); (case h4 => exact rfl); (case h5 => exact rfl)))
    all_goals (try split))

theorem State.confirmStep_steady {s₀ : State} (s : State) (c : CtxId) (hk : Steady s₀ s) : Steady s₀ (State.confirmStep s c) := by
  unfold State.confirmStep
  iterate 5 (
    repeat (first | with_reducible assumption | with_reducible apply State.modSched_steady | with_reducible apply Steady.ite | with_reducible apply Steady.foldl | with_reducible exact (rfl : _ = _) | intro _))

theorem State.declareCause_steady {s₀ : State} (s : State) (c : CtxId) (hk : Steady s₀ s) : Steady s₀ (State.declareCause s c) := by
  unfold State.declareCause
  iterate 5 (
    repeat (first | with_reducible assumption | with_reducible apply State.declareChan_steady | with_reducible apply State.modChan_steady | with_reducible apply Steady.ite | with_reducible apply Steady.foldl | with_reducible exact (rfl : _ = _) | intro _)
    all_goals (try ((with_reducible apply Steady.lit); (case h1 => exact rfl); (case h2 => exact rfl); (case h3 => exact rfl); (case h4 => exact rfl); (case h5 => exact rfl)))
    all_goals (try split))

theorem State.shuntOpen_steady {s₀ : State} (s : State) (c : CtxId) (full : Bool) (hk : Steady s₀ s) : Steady s₀ (State.shuntOpen s c full) := by
  unfold State.shuntOpen
  iterate 5 (
    repeat (first | with_reducible assumption | with_reducible apply State.declareChan_steady | with_reducible apply State.modChan_steady | with_reducible apply State.modCtx_steady | with_reducible apply Steady.ite | with_reducible apply Steady.foldl | with_reducible exact (rfl : _ = _) | intro _))

theorem State.declareZero_steady {s₀ : State} (s : State) (c : CtxId) (hk : Steady s₀ s) : Steady s₀ (State.declareZero s c) := by
  unfold State.declareZero
  iterate 5 (
    repeat (first | with_reducible assumption | with_reducible apply State.declareChan_steady | with_reducible apply State.modChan_steady | with_reducible apply Steady.ite | with_reducible apply Steady.foldl | with_reducible exact (rfl : _ = _) | intro _))

theorem State.zeroStep_steady {s₀ : State} (s : State) (c : CtxId) (raw : Int) (hk : Steady s₀ s) : Steady s₀ (State.zeroStep s c raw) := by
  unfold State.zeroStep
  iterate 5 (
    repeat (first | with_reducible assumption | with_reducible apply State.modChan_steady | with_reducible apply State.modCtx_steady | with_reducible apply Steady.ite | with_reducible apply Steady.foldl | with_reducible exact (rfl : _ = _) | intro _)
    all_goals (try ((with_reducible apply Steady.lit); (case h1 => exact rfl); (case h2 => exact rfl); (case h3 => exact rfl); (case h4 => exact rfl); (case h5 => exact rfl)))
    all_goals (try dsimp only)
    all_goals (try split))

theorem State.shuntStep_steady {s₀ : State} (s : State) (c : CtxId) (code : Nat) (raw : Int) (hk : Steady s₀ s) : Steady s₀ (State.shuntStep s c code raw) := by
  unfold State.shuntStep
  iterate 5 (
    repeat (first | with_reducible assumption | with_reducible apply State.zeroStep_steady | with_reducible apply State.declareZero_steady | with_reducible apply State.shuntOpen_steady | with_reducible apply State.declareCause_steady | with_reducible apply State.confirmStep_steady | with_reducible apply State.ledgerStep_steady | with_reducible apply State.calSample_steady | with_reducible apply State.modChan_steady | with_reducible apply Steady.ite | with_reducible apply Steady.foldl | with_reducible exact (rfl : _ = _) | intro _)
    all_goals (try ((with_reducible apply Steady.lit); (case h1 => exact rfl); (case h2 => exact rfl); (case h3 => exact rfl); (case h4 => exact rfl); (case h5 => exact rfl)))
    all_goals (try split))

theorem State.releaseImon_steady {s₀ : State} (s : State) (p : PhaseId) (hk : Steady s₀ s) : Steady s₀ (State.releaseImon s p) := by
  unfold State.releaseImon
  iterate 5 (
    repeat (first | with_reducible assumption | with_reducible apply State.releasedEvent_steady | with_reducible apply State.modPh_steady | with_reducible apply Steady.ite | with_reducible apply Steady.foldl | with_reducible exact (rfl : _ = _) | intro _))

theorem State.azTake_steady {s₀ : State} (s : State) (p : PhaseId) (hk : Steady s₀ s) : Steady s₀ (State.azTake s p) := by
  unfold State.azTake
  iterate 5 (
    repeat (first | with_reducible assumption | with_reducible apply State.releaseImon_steady | with_reducible apply State.signalResidue_steady | with_reducible apply State.halves_steady | with_reducible apply State.modPh_steady | with_reducible apply Steady.ite | with_reducible apply Steady.foldl | with_reducible exact (rfl : _ = _) | intro _))

theorem State.unbind_steady {s₀ : State} (s : State) (ps : List PhaseId) (hk : Steady s₀ s) : Steady s₀ (State.unbind s ps) := by
  unfold State.unbind
  iterate 5 (
    repeat (first | with_reducible assumption | with_reducible apply State.halves_steady | with_reducible apply State.modPh_steady | with_reducible apply Steady.ite | with_reducible apply Steady.foldl | with_reducible exact (rfl : _ = _) | intro _))

theorem State.resyncStep_steady {s₀ : State} (s : State) (h : HalfId) (hk : Steady s₀ s) : Steady s₀ (State.resyncStep s h) := by
  unfold State.resyncStep
  iterate 5 (
    repeat (first | with_reducible assumption | with_reducible apply State.copyHalf_steady | with_reducible apply State.modHs_steady | with_reducible apply Steady.ite | with_reducible apply Steady.foldl | with_reducible exact (rfl : _ = _) | intro _)
    all_goals (try ((with_reducible apply Steady.lit); (case h1 => exact rfl); (case h2 => exact rfl); (case h3 => exact rfl); (case h4 => exact rfl); (case h5 => exact rfl)))
    all_goals (try split))

theorem State.markTag_steady {s₀ : State} (s : State) (hk : Steady s₀ s) : Steady s₀ (State.markTag s) := by
  unfold State.markTag
  iterate 5 (
    repeat (first | with_reducible assumption | with_reducible apply State.resyncStep_steady | with_reducible apply State.settle_steady | with_reducible apply State.halves_steady | with_reducible apply Steady.ite | with_reducible apply Steady.foldl | with_reducible exact (rfl : _ = _) | intro _))

theorem State.unattributed_steady {s₀ : State} (s : State) (t : Nat) (hk : Steady s₀ s) : Steady s₀ (State.unattributed s t) := by
  unfold State.unattributed
  iterate 5 (
    repeat (first | with_reducible assumption | with_reducible apply State.loseElig_steady | with_reducible apply State.summary_steady | with_reducible apply State.event_steady | with_reducible apply Steady.ite | with_reducible apply Steady.foldl | with_reducible exact (rfl : _ = _) | intro _)
    all_goals (try ((with_reducible apply Steady.lit); (case h1 => exact rfl); (case h2 => exact rfl); (case h3 => exact rfl); (case h4 => exact rfl); (case h5 => exact rfl)))
    repeat (first | with_reducible assumption | with_reducible apply State.loseElig_steady | with_reducible apply State.summary_steady | with_reducible apply State.event_steady | with_reducible apply Steady.ite | with_reducible apply Steady.foldl | with_reducible exact (rfl : _ = _) | intro _)
    all_goals (try dsimp only)
    all_goals (try split))

theorem State.retryContext_steady {s₀ : State} (s : State) (c : CtxId) (hk : Steady s₀ s) : Steady s₀ (State.retryContext s c) := by
  unfold State.retryContext
  iterate 5 (
    repeat (first | with_reducible assumption | with_reducible apply State.releasedEvent_steady | with_reducible apply State.modCtx_steady | with_reducible apply Steady.ite | with_reducible apply Steady.foldl | with_reducible exact (rfl : _ = _) | intro _)
    all_goals (try ((with_reducible apply Steady.lit); (case h1 => exact rfl); (case h2 => exact rfl); (case h3 => exact rfl); (case h4 => exact rfl); (case h5 => exact rfl)))
    all_goals (try dsimp only)
    all_goals (try split))

theorem State.retryChannel_steady {s₀ : State} (s : State) (c : CtxId) (hk : Steady s₀ s) : Steady s₀ (State.retryChannel s c) := by
  unfold State.retryChannel
  iterate 5 (
    repeat (first | with_reducible assumption | with_reducible apply State.releasedEvent_steady | with_reducible apply State.tryRelease_steady | with_reducible apply State.modChan_steady | with_reducible apply State.modCtx_steady | with_reducible apply Steady.ite | with_reducible apply Steady.foldl | with_reducible exact (rfl : _ = _) | intro _)
    all_goals (try ((with_reducible apply Steady.lit); (case h1 => exact rfl); (case h2 => exact rfl); (case h3 => exact rfl); (case h4 => exact rfl); (case h5 => exact rfl)))
    all_goals (try dsimp only)
    all_goals (try split))

theorem State.leaveRun_steady {s₀ : State} (s : State) (hk : Steady s₀ s) : Steady s₀ (State.leaveRun s) := by
  unfold State.leaveRun
  iterate 5 (
    repeat (first | with_reducible assumption | with_reducible apply State.flushAll_steady | with_reducible apply State.goto_steady | with_reducible apply Steady.ite | with_reducible apply Steady.foldl | with_reducible exact (rfl : _ = _) | intro _)
    all_goals (try ((with_reducible apply Steady.lit); (case h1 => exact rfl); (case h2 => exact rfl); (case h3 => exact rfl); (case h4 => exact rfl); (case h5 => exact rfl)))
    repeat (first | with_reducible assumption | with_reducible apply State.flushAll_steady | with_reducible apply State.goto_steady | with_reducible apply Steady.ite | with_reducible apply Steady.foldl | with_reducible exact (rfl : _ = _) | intro _))

theorem State.modPort_steady {s₀ : State} (s : State) (p : Port) (f : TarnPort → TarnPort) (hk : Steady s₀ s) : Steady s₀ (State.modPort s p f) := by
  unfold State.modPort
  iterate 5 (
    all_goals (try ((with_reducible apply Steady.lit); (case h1 => exact rfl); (case h2 => exact rfl); (case h3 => exact rfl); (case h4 => exact rfl); (case h5 => exact rfl)))
    repeat (first | with_reducible assumption | with_reducible apply Steady.ite | with_reducible apply Steady.foldl | with_reducible exact (rfl : _ = _) | intro _)
    all_goals (try split))

theorem State.modTarn_steady {s₀ : State} (s : State) (c : CtxId) (f : TarnS → TarnS) (hk : Steady s₀ s) : Steady s₀ (State.modTarn s c f) := by
  unfold State.modTarn
  iterate 5 (
    repeat (first | with_reducible assumption | with_reducible apply State.modCtx_steady | with_reducible apply Steady.ite | with_reducible apply Steady.foldl | with_reducible exact (rfl : _ = _) | intro _))

theorem State.drive_steady {s₀ : State} (s : State) (port : Port) (bs : List Byte) (hk : Steady s₀ s) : Steady s₀ (State.drive s port bs) := by
  unfold State.drive
  iterate 5 (
    repeat (first | with_reducible assumption | with_reducible apply State.modPort_steady | with_reducible apply Steady.ite | with_reducible apply Steady.foldl | with_reducible exact (rfl : _ = _) | intro _))

theorem State.enrol_steady {s₀ : State} (s : State) (old new : BitVec 64) (hk : Steady s₀ s) : Steady s₀ (State.enrol s old new) := by
  unfold State.enrol
  iterate 5 (
    repeat (first | with_reducible assumption | with_reducible apply State.modTarn_steady | with_reducible apply Steady.ite | with_reducible apply Steady.foldl | with_reducible exact (rfl : _ = _) | intro _))

theorem State.poll_steady {s₀ : State} (s : State) (port : Port) (a : CtxId) (kind budget : Nat) (hk : Steady s₀ s) : Steady s₀ (State.poll s port a kind budget) := by
  unfold State.poll
  iterate 5 (
    repeat (first | with_reducible assumption | with_reducible apply State.drive_steady | with_reducible apply State.modTarn_steady | with_reducible apply State.modPort_steady | with_reducible apply Steady.ite | with_reducible apply Steady.foldl | with_reducible exact (rfl : _ = _) | intro _))

theorem State.violate_steady {s₀ : State} (s : State) (a : CtxId) (code : Nat) (hk : Steady s₀ s) : Steady s₀ (State.violate s a code) := by
  unfold State.violate
  iterate 5 (
    repeat (first | with_reducible assumption | with_reducible apply State.modTarn_steady | with_reducible apply State.declareCtx_steady | with_reducible apply State.summaryFree_steady | with_reducible apply State.event_steady | with_reducible apply Steady.ite | with_reducible apply Steady.foldl | with_reducible exact (rfl : _ = _) | intro _))

theorem State.tarnViolation_steady {s₀ : State} (s : State) (a : CtxId) (code : Nat) (hk : Steady s₀ s) : Steady s₀ (State.tarnViolation s a code) := by
  have k1 := State.violate_steady s a code hk
  unfold State.tarnViolation
  generalize s.violate a code = u at k1
  dsimp only
  refine Steady.ite (State.quarRelease_steady _ _ (Steady.ite (State.modTarn_steady _ _ _ k1) k1)) k1

theorem State.keepReply_steady {s₀ : State} (s : State) (port : Port) (q : Poll) (r : TarnChars) (hk : Steady s₀ s) : Steady s₀ (State.keepReply s port q r) := by
  unfold State.keepReply
  iterate 5 (
    repeat (first | with_reducible assumption | with_reducible apply State.modTarn_steady | with_reducible apply State.modPort_steady | with_reducible apply Steady.ite | with_reducible apply Steady.foldl | with_reducible exact (rfl : _ = _) | intro _))

end Sys2Proof.Machine
end

