-- ==== Sys2Proof/WellFormed.lean ====
section
/-!
DEFINITION. Well-formed commands: operands that the outside can bring. The types of Syntax.lean hold most limits; these
are the rest.
-/
namespace Sys2Proof

/-- Fewer than 32 bits are clocked beyond the last whole word of a frame (R363). -/
def SpiFrame.wf (f : SpiFrame) : Bool := decide (f.tail < 32)
/-- At most the 100 characters that an extended slot of 80 µs can hold (R399, R401). -/
def TarnChars.wf (r : TarnChars) : Bool := decide (r.chars.length ≤ 100)
/-- Supply samples are 16-bit words, and the oscillator reading is 8 bits (R452 to R454). -/
def LivePins.wf (l : LivePins) : Bool :=
  [l.vsupIo, l.vsupA, l.vsupE, l.vsupW, l.vsupH, l.vin10mV, l.vhold10mV].all (fun n => decide (n < 65536)) && decide (l.rcMhz < 256)
/-- A PMBus write carries at most 255 bytes after its command byte (R389). -/
def PmbXfer.wf (x : PmbXfer) : Bool := match x.write with
  | none => x.pec.isNone
  | some bs => decide (bs.length ≤ 255)

/-- A command whose operands are within their limits. -/
def Instr.wf : Instr → Bool
  | .writeSlot f | .readSlot f | .readStatus f | .doorbell f | .eventPop f | .framing _ f => f.wf
  | .tarnReply _ r => r.wf
  | .paramRead l => l.wf
  | .mfrParamValue x l => x.wf && l.wf
  | .page x | .operation x | .clearFaults x | .storeUserAll x | .capability x | .voutMode x | .voutCommand x | .voutMax x
  | .voutTransitionRate x | .voutMin x | .voutOvFaultLimit x | .statusByte x | .statusWord x | .statusVout x | .statusIout x
  | .statusTemperature x | .statusCml x | .readVin x | .readVout x | .readIout x | .readTemperature1 x | .readTemperature2 x
  | .readPout x | .pmbusRevision x | .mfrId x | .mfrModel x | .mfrParamIndex x => x.wf
  | .holdTest v _ => decide (v < 65536)
  | .vinUvloRise | .selfSuppliesUp | .pinDriversEnabled | .heathSyncPulse _ _ | .selfTestWindowClose _ _ | .configRestore
    | .ledgerRecovery | .vinUvloFall | .lastGasp _ | .lastGaspStop | .lastGaspComplete | .vholdMinimum | .resetNLow _
    | .resetNRise | .supplyUndervoltage _ | .supplyRecovered _ | .coreUndervoltage _ | .safeNLow _ _ | .clockLoss _
    | .clockReturn | .requalification _ _ | .runReq _ | .rundown _ | .rundownComplete | .rundownLimit | .safeClr _
    | .innerDecision _ _ _ | .pulseEnd _ | .peakMiss _ | .outerStep _ | .cellScrub _ | .railWord _ _ _
    | .shuntWord _ _ _ _ _ | .autoZero _ | .shuntAutoZero _ | .bindingTableScrub _ | .tokenCheck | .halfComparison
    | .disagreementJudgement | .tagMarkSilent _ | .heartbeatLost _ | .failover | .handoverDone | .resyncStart _
    | .resyncComplete _ | .resyncFail _ | .watchdogExpiry _ | .handover _ | .commitTag | .w1cClear _ _ _ | .sel _ _ _
    | .swap _ _ _ | .view _ _ _ | .compat _ _ | .compatMap _ _ _ | .railP1 _ _ | .railP2 _ _ | .phaseGain _ _
    | .shuntGain _ _ | .calCaptureDone | .calRecordWritten | .tsyncEdge _ | .holdover | .arm _ | .ftNowHi _ | .ftNowLo _
    | .gateStart _ | .deferredGateStart _ | .confirmationTimeout _ | .conductionEdge _ _ _ | .seatLow _ | .seated _
    | .seatLost _ | .fastTrip _ _ | .gateNotRising _ | .insertionTimeout _ | .foldbackTimeout _ | .gateStuck _
    | .vgsBelow1V _ | .switchOn _ _ | .switchOff _ _ | .switchClear _ _ | .cragCrossing _ _ | .tripGroupAssert _
    | .tripGroupDeassert _ | .retryInterval _ | .retryUsedExpiry _ | .faultClear _ _ | .retryReset _ _ | .zoneEvaluation _ _
    | .ledgerTake | .tallyEntryCommitted | .consolidation | .reclaim _ | .deferredWritesResume | .hostRecordWriteDone
    | .cairnRecordWrite | .ledgerResolveAdd _ _ | .ledgerResolveDismiss _ _ | .ledgerMarkClr _ _ | .cairnAck _ _
    | .cairnErase _ | .cairnEraseDone | .fwErase _ | .fwVerify _ | .fwRestart _ | .fwOperationDone | .supervisorBooted _
    | .paramWrite | .schedPost | .schedCancel | .cellStatus | .captureRead | .traceStart | .traceRelease | .ledgerRead
    | .itemRead | .cairnRead | .configSave | .configErase | .identRead | .identWrite | .authChallenge | .authResponse
    | .authLockoutEnd | .sessionEnd | .sessionTimeout | .flashWrite | .flashRead | .pmbusTimeoutReset _ | .beaconSlot _
    | .normalSlot _ | .extendedSlot _ | .noReply _ | .tarnRelease _ _ | .tarnStray _ | .extest _ | .samplePreload _
    | .bypass _ | .flashLoad _ | .flashStatus | .debugHalt _ | .debugResume _ | .debugStep _ | .freeze _ | .unfreeze _
    | .debugStatus | .invalidCommand _ | .freshSave | .flashLoadEraseDone => true

end Sys2Proof
end

