-- ==== Sys2Proof/Tests/Slice0.lean ====
section
/-!
SUPPORT. Tests: worked examples of the spec on the operations that its rules name, ill-formed operands that the check
refuses, and for every statement of Certificates/Slice0/Obligations.lean that has hypotheses a witness that meets them.
-/
namespace Sys2Proof.Tests
open Sys2Proof.Machine
set_option maxRecDepth 8000

/-! ### The queue, the form of the state after reset, and well-formed operands -/

theorem test_reset_queue_empty : State.reset.pending = [] := by decide
theorem test_reset_boot : State.reset.dev.st = .boot := by decide
theorem test_step_takes_front : ∃ t, step { State.reset with pending := [.vinUvloRise, .commitTag] } = .next t ∧ t.pending = [.commitTag] :=
  ⟨_, rfl, by decide⟩
theorem test_no_row_has_bits (n w : Nat) : decodeTableWord n w = none := rfl
theorem test_wf_refuses_spi_tail : Instr.wf (.writeSlot { hdr := 0, rest := [], tail := 32 }) = false := by decide
theorem test_wf_refuses_tarn_length : Instr.wf (.tarnReply .a { chars := List.replicate 101 0 }) = false := by decide
theorem test_wf_refuses_supply_sample : Instr.wf (.paramRead { vsupIo := 65536 }) = false := by decide
theorem test_wf_refuses_oscillator : Instr.wf (.paramRead { rcMhz := 256 }) = false := by decide
theorem test_wf_refuses_pmbus_read_with_pec : Instr.wf (.page { write := none, pec := some 1 }) = false := by decide
theorem test_wf_refuses_pmbus_length : Instr.wf (.page { write := some (List.replicate 256 0) }) = false := by decide
theorem test_wf_refuses_holdup_voltage : Instr.wf (.holdTest 65536 0) = false := by decide
theorem test_wf_accepts : Instr.wf (.page { write := some [3], pec := some 7 }) = true ∧ Instr.wf .commitTag = true := by decide

/-! ### Worked examples of the spec -/

/-- R54: the five rounded samples of the proportional term, 02_fell_cell_arithmetic.md. -/
theorem test_round_carry : roundCarry 4402341544 0 16777216 v24Lo v24Hi = ⟨262, 6710952, false⟩ ∧
    roundCarry 4402341544 6710952 16777216 v24Lo v24Hi = ⟨263, -3355312, false⟩ ∧
    roundCarry 4402341544 (-3355312) 16777216 v24Lo v24Hi = ⟨262, 3355640, false⟩ ∧
    roundCarry 4402341544 (-6710624) 16777216 v24Lo v24Hi = ⟨262, 328, false⟩ := by decide
theorem test_residue3 : residue3 (-5) = 1 ∧ residue3 (-26843546) = 1 := by decide
/-- R407: the check value of CRC-16/CCITT-FALSE over "123456789". -/
theorem test_crc16 : crc16 [0x31, 0x32, 0x33, 0x34, 0x35, 0x36, 0x37, 0x38, 0x39] = 0x29B1 := by decide +kernel
/-- The PEC of VOUT_COMMAND at address 0x48, 12_host_mailbox_and_pmbus.md. -/
theorem test_pec : crc8 [0x90, 0x21, 0x00, 0x60] = 0x59 := by decide +kernel
/-- VOUT_TRANSITION_RATE of 1 mV/µs at M_RATIO 25, in both directions. -/
theorem test_transition_rate : slewOf (unpack11 0xBA00).1 (unpack11 0xBA00).2 25 = 1099511628 ∧ rateOf 1099511628 25 = 0xBA00 := by decide
/-- R216: one sine point of the probe, 07_rail_modes.md. -/
theorem test_sine : sineTable 1024 = 8388607 ∧ (3277 * sineTable 1024).fdiv 8388608 = 3276 := by decide
/-- R209: PASS, SHED, COMMAND and CURRENT compose to 0b1000_0110, 07_rail_modes.md. -/
theorem test_effective_set : effective 0x96 true false true = 0x86 := by decide
/-- R338: one shunt word of a 60 A section, 11_ledger_and_record_store.md. -/
theorem test_ledger_word :
    let k := { Cell.boot with portIsw := tag 983040, last := { Cell.boot.last with vmeas := tag 1572864 } }.ledger
    k.uCharge.v = 62 ∧ k.qRem.v = 914560 ∧ k.uEnergy.v = 94 ∧ k.eRem.v = 6092226560 := by decide
/-- R411: a node asks for 25 V and TARN_VMAX holds it at 24 V, 13_tarn_link.md. -/
theorem test_tarn_target : tarnTarget 25000 655360 1572864 = 1572864 ∧ tarnTarget 25000 655360 1703936 = 1638400 ∧
    tarnRequest 1 [0x61, 0xA8, 0x24] = { kind := 1, slew := 2, prio := 1, value := 25000 } := by decide
/-- R436: the pairs of ADD_3 and SHED_3, 14_parameter_space.md. -/
theorem test_config_pairs : pairBytes (0x161C, 2, 0x000B4000) = [0x1C, 0x16, 0x02, 0x00, 0x40, 0x0B, 0x00] ∧
    pairBytes (0x161D, 2, 0x000A0000) = [0x1D, 0x16, 0x02, 0x00, 0x00, 0x0A, 0x00] := by decide
/-- R479: forerunner index 0x1A04 reaches VSET of context 21, 16_design_in.md. -/
theorem test_compat_index : State.reset.compatIndex 0x1A04 = some 0x1A84 := by decide
/-- R482: two tally sequences 32,768 apart are neither newer. -/
theorem test_serial_half_range : serialNewer 16 0 32768 = false ∧ serialNewer 16 32768 0 = false ∧ serialNewer 16 0 65535 = true := by decide
/-- SHA-256 of the empty message, the published algorithm that R383 names. -/
theorem test_sha256 : (sha256 []).take 4 = [0xE3, 0xB0, 0xC4, 0x42] := by decide +kernel

/-! ### Witnesses of the statements' hypotheses -/

/-- A device in a state, clocked, with its drivers on. -/
def inState (d : DevState) : State := { State.reset with
  dev := { State.reset.dev with st := d, drivers := true, powerUp := false, uvIo := false, uvA := false, uvH := false, uvE := false, uvW := false }
  clk := { State.reset.clk with fast := 1600000, time := 8000000000, synced := true, rootOk := true, lockE := true, lockW := true, lockH := true } }
/-- Both halves eligible with their supervisors running, East at the summit, and a session open. -/
def served (d : DevState) : State := { inState d with
  sum := { State.reset.sum with
    armA := some .east, armB := some .east, armC := some .east
    east := { eligible := true, supRunning := true }, west := { eligible := true, supRunning := true } }
  mb := { State.reset.mb with session := true } }
/-- One write waits, and its commit tag has come. -/
def due (a : Act) (s : State) : State := { s with commits := [⟨0, a⟩] }
/-- A context parameter in force and newest. -/
def setCtx (c : CtxId) (p : CP) (v : Int) (s : State) : State := (s.setForce c p v).setNew c p v
/-- A global parameter in force and newest. -/
def setGlob (g : GP) (v : Int) (s : State) : State := (s.setGlobForce g v).setGlobNew g v
/-- At another fast tick. -/
def withFast (n : Nat) (s : State) : State := { s with clk := { s.clk with fast := n } }
/-- BOOT at a step. -/
def bootAt (n : Nat) : State := { inState .boot with dev := { (inState .boot).dev with bootStep := n } }
/-- HOLDUP with a record half programmed. -/
def gasping : State := { inState .holdup with cairn := { State.reset.cairn with gaspCell := some (64, [1, 2, 3, 4, 5, 6, 7, 8, 9, 10]) } }
/-- HOLDUP with a hot die. -/
def gasped : State := { inState .holdup with th := { State.reset.th with reading := State.reset.th.reading.set 0 20000 } }
/-- The device state moved in this fab cycle. -/
def moved (d : DevState) : State := { served d with dev := { (served d).dev with movedAt := some (served d).fab } }
/-- A context regulates. -/
def regulated (c : CtxId) (s : State) : State := s.modCtx c (fun x => { x with regulating := true })
/-- A phase changed in both halves. -/
def setHPh (p : PhaseId) (f : HPhase → HPhase) (s : State) : State := s.halves (fun x => { x with ph := upd x.ph p f })
/-- A phase of context 3 with a pulse in flight in both halves. -/
def pulsing (q : Pulse) : State := setHPh 95 (fun h => { h with state := .on, bind := 3, pulse := some q }) (served .run)
/-- A pulse whose end has come. -/
def pulseDone : Pulse := { start := 100, min := 32, fall := some 400, endAt := some 51200000, paired := false }
/-- An OFFTIME pulse with no end yet. -/
def pulseOpen : Pulse := { start := 51190000, min := 32, fall := none, endAt := none, paired := true }
/-- The OFFTIME pulse has come to S + TON_MAX. -/
def pulseMissed : State := setHPh 95 (fun h => { h with act := { h.act with tonMax := 10000, dtFall := 8 } }) (pulsing pulseOpen)
/-- An inner decision with phase 95 bound. -/
def innerIn : InnerIn where
  t := 100000
  offtime := false
  vin := 1
  bound := [95]
  boundary := false
  balance := false
  paired := fun _ => false
  commits := []
/-- A half whose phase 95 asks for a width, with a deficit and a least width. -/
def requesting (w d : Int) (m : Nat) : Half :=
  { (served .run).east with
    ph := upd (served .run).east.ph 95 (fun h => { h with ton := tag w, pend := { h.pend with tmin := m }, state := .active })
    cell := upd (served .run).east.cell 3 (fun k => { k with deficit := d }) }
/-- A stored word of context 3 in East fails its residue check. -/
def badTag : State := let s := served .run
  { s with east := s.east.modCell 3 (fun k => { k with ref := ⟨5, 0⟩ }) }
/-- A cell with words at the ends of their range. -/
def identityCell : Cell := { Cell.boot with pid := tag (-8388608), bq1 := tag 8388607 }
/-- The next open reading of context 3 is the sixteenth. -/
def openNext : State := (setCtx 3 .faultResp0 0 (served .run)).modCtx 3 (fun x => { x with sense := { x.sense with openRun := 15 } })
/-- Channel 3 is OFF and seated. -/
def seatedOff (d : DevState) : State := (served d).modChan 3 (fun x => { x with st := .off, seated := true })
/-- A channel is ON. -/
def seatedOn (c : CtxId) : State := (served .run).modChan c (fun x => { x with st := .on, seated := true, zeroed := true, on := true })
/-- A calibration has taken its words. -/
def calibrating (t : CalTarget) (n : Nat) : State := { served .run with cal := { running := some t, count := n, sum := 2048 * 7, trueV := 65536 } }
/-- Phase 5 is active. -/
def calActive : State := setHPh 5 (fun h => { h with state := .active, bind := 3 }) ((served .run).modPh 5 (fun x => { x with offsetValid := true }))
/-- Phase 5 is the one active phase. -/
def calOne : State := calActive.halves (fun x => x.modCell 3 (fun k => { k with nAct := 1 }))
/-- A request is at the head of the queue. -/
def asking (box : Iface) (ws : List Word) (s : State) : State :=
  let m := s.mb.modSlot ⟨box, 2⟩ (fun _ => { st := .busy, words := words64 ws, written := ws.length })
  { s with mb := { m with queue := [⟨box, 2⟩] } }
/-- The first word of a request. -/
def cmdWord (cmd narg : Nat) : Word := word (16777216 * cmd + 65536 * narg)
/-- FIELD_TIME follows TSYNC. -/
def disciplined (f : FieldT → FieldT) : State := { setGlob .ftCfg 1 (served .run) with ft := f { openSrc := false, lastEdge := some 0 } }
/-- An armed event. -/
def someEvent (k : EvKind) : Event :=
  { serial := 4, w0 := 0, w1 := 0, w2 := 0, w3 := 0, kind := k, t := 1000, lead := 0, di := 0, peak := 0, ident := 9, armed := some 1000 }
/-- Context 3 holds an event. -/
def holding (e : Event) : State := { ((served .run).modSched 3 (fun x => { x with events := [e] })) with ft := { ft := 2000, ftTag := 2 ^ 60 } }
/-- An ON is deferred. -/
def deferredOn (n : Nat) : State := ((seatedOff .run).modChan 3 (fun x => { x with tripped := false, deferred := some ⟨100, n, none⟩ })).modCtx 3
  (fun x => { x with regulating := true })
/-- Channel 3 changed. -/
def chan (f : Chan → Chan) : State := (served .run).modChan 3 f
/-- The trip filter of context 3 runs. -/
def tripping (n : Nat) : State :=
    ((setCtx 3 .tripCfg (0x7F00 + 20) (served .run)).modCtx 3 (fun x => { x with prot := { x.prot with tripFilter := some n } }))
/-- A retry of context 3 is due. -/
def retrying (n : Nat) : State := (served .run).modCtx 3 (fun x => { x with prot := { x.prot with retryDue := some n, latched := true } })
/-- Every sensor reads a value, and a zone is one evaluation from a change. -/
def zoneNear (z : Fin 19) (v : Int) (lv : Level) : State := { served .run with th := { (served .run).th with
  reading := Vector.replicate 24 v, zone :=
      upd (served .run).th.zone z (fun x => { x with seen := true, level := lv, run := 7, runUp := true, best := .shut }) } }
/-- A calibration record is in progress. -/
def calW (x : CalTarget) (prov : Bool) : State :=
    { served .run with cal := { writing := some (x, 3, [1, 2, 3], 16777216, 5, prov) }, nv := { State.reset.nv with work := .cal } }
/-- A shunt calibration has taken its words. -/
def shuntDone : State :=
    { served .run with cal := { running := some (.shuntGain 3), count := 2048, sum := 4194304, trueV := sgainNominal ((served .run).cp 3 .rshunt) / 4 } }
/-- The die is out of the write window. -/
def hot (s : State) : State := { s with th := { s.th with reading := s.th.reading.set 0 20000 } }
/-- Account 7 has staged energy, and its entry is in progress. -/
def staging (v : Int) (s : State) : State :=
    { (s.halves (fun x => x.modCell 3 (fun k => { k with sEnergy := tag v }))) with led := { s.led with queue := [7, 9], nextSeq := 65535 }, nv := { s.nv with work := .entry } }
/-- An open item that a run left in doubt. -/
def itemOf (add : Byte) : List Byte := add :: 1 :: 0x34 :: 0x12 :: List.replicate 48 7
/-- Item 5 is open. -/
def openItem (add : Byte) : State :=
    { served .run with led := { (served .run).led with items := (served .run).led.items.set 5 (some (itemOf add)), nextSeq := 17 } }
/-- A slot of M0. -/
def m0r : Req := ⟨.m0, 2⟩
/-- A slot of M1. -/
def m1r : Req := ⟨.m1, 2⟩
/-- A request of M0. -/
def asked (cmd : Nat) (args : List Word) : State := asking .m0 (cmdWord cmd args.length :: args) (served .run)
/-- A request of M1. -/
def askedM1 (cmd : Nat) (args : List Word) : State := asking .m1 (cmdWord cmd args.length :: args) (served .run)
/-- The record store changed. -/
def bumpNv (f : Store → Store) (s : State) : State := { s with nv := f s.nv }
/-- The write engine has something in progress. -/
def work (w : Work) (s : State) : State := bumpNv (fun x => { x with work := w }) s
/-- Positions of the tally ring are written. -/
def used (n : Nat) (s : State) : State := { s with nv := { s.nv with
  mem := (List.range n).map (fun k => ((tallyAddr k, (5 : Byte)) : Host.Cell)), ptrTally := n } }
/-- The payload of a base record. -/
def markBytes : List Byte := 1 :: 3 :: List.replicate 50 0
/-- A host-initiated write has its next record in progress. -/
def hostW (q : List (Nat × Nat × List Byte)) (n : Nat) (r : Option Req) : State :=
  work .host (bumpNv (fun x => { x with hostQueue := q, hostWrite := some (n, r) }) (openItem 1))
/-- A summary of the Cairn. -/
def aSummary : CairnReq :=
    { source := 3, code := 4, fclass := 5, tag := 77, ftime := 88, devState := 3, valid := true, words := [1, 2, 3, 4, 5, 6, 7, 8], signal := none }
/-- The next Cairn record is in progress. -/
def cairning (r : CairnReq) : State :=
    work .cairn { openItem 1 with cairn := { (served .run).cairn with queue := [r, aSummary], newest := 41 }, nv := { (served .run).nv with ptrCairn := 511 } }
/-- A firmware operation runs. -/
def fwAt (op : Nat) (b : Bool) : State := { served .run with sum := { (served .run).sum with fwRunning := true, fwOp := op, fwBank := b } }
/-- The supervisor of West boots. -/
def restarting : State := (served .run).modHs .west (fun x => { x with supBoot := some 5, supRunning := false })
/-- A frame of the SPI. -/
def frame (op mb slot len seq : Nat) (ws : List Word) : SpiFrame :=
  { hdr := BitVec.ofNat 28 (67108864 * mb + 16777216 * slot + 65536 * len + seq)
    rest := ws ++ [crcWords (word (268435456 * op + 67108864 * mb + 16777216 * slot + 65536 * len + seq) :: ws)] }
/-- Slot 1 of M0 is loaded. -/
def loadedSlot (n : Nat) (s : State) : State :=
    { s with mb := (s.mb.modSlot ⟨.m0, 1⟩ (fun _ => { st := .loaded, words := words64 [5, 6, 7], written := n })) }
/-- Two events wait. -/
def eventWaits : State :=
    { served .run with mb := { (served .run).mb with lastHseq := some 65535, events := [⟨0x0103, 68, 4, 0, 0, 0⟩, ⟨0x0104, 68, 4, 0, 0, 0⟩] } }
/-- A host write is being programmed. -/
def programming (d : DevState) : State := { served d with nv := { (served d).nv with hostWrite := some (1, none), work := .host } }
/-- The pin drivers are not enabled. -/
def undriven (d : DevState) : State := { inState d with dev := { (inState d).dev with drivers := false } }
/-- Item 5 is open. -/
def withItem (s : State) : State := { s with led := (openItem 0).led }
/-- Live pin readings. -/
def livePins : LivePins := { mf := 5, vsupIo := 1000, vin10mV := 4800, chgLimit := true }
/-- An empty record. -/
def rec0 : Rec := { typ := 0, len := 0, slotB := false, ident := 0, seq := 0, payload := [] }
/-- A STEP event is posted to context 3. -/
def posting : State := asking .m0 [cmdWord 0x10 4, 0x03300000, 1000000, 0x100,
    0x0009] ((setCtx 3 .mode (2 ^ modeSchedule) (setHPh 9 (fun h => { h with bind := 3, state := .active })
  { served .run with ft := { (served .run).ft with valid := true } })).modCtx 3 (fun x => { x with mode := { x.mode with eff := 8 } }))
/-- An event of context 3 is cancelled. -/
def cancelling : State := asking .m0 [cmdWord 0x11 2, 3, 9] (holding { someEvent .on with armed := none, t := 2000000 })
/-- Two words are written to the shadow. -/
def fwTarget : State := askedM1 0x50 [0, 2, 0x11, 0x22]
/-- Both banks are erased. -/
def shadowErased : State := { fwTarget with sum := { fwTarget.sum with erasedA := true, erasedB := true } }
/-- A width and its deficit, and the least width, of the short-pulse rule (R122). -/
def least (i : InnerIn) (base : Nat) (x : Half) (p : PhaseId) : Int := (x.ph[p].pendAt p i.commits (presentAt base i.bound p)).minimum (i.paired p)
/-- The width a phase asks for. -/
def asks (i : InnerIn) (c : CtxId) (base : Nat) (x : Half) (p : PhaseId) : Int :=
  let m := least i base x p
  let d := x.cell[c].deficit
  x.ph[p].ton.v.toNat + (if 4 * m < d then 4 * m else if d < -(4 * m) then -(4 * m) else d)
/-- Every sensor and zone was evaluated one tick ago. -/
def sampledNow : State := { zoneNear 5 30000 .warn with th := { (zoneNear 5 30000 .warn).th with
  sampledAt := every (served .run).th.sampledAt (fun _ _ => some 7999999999), evalAt := every (served .run).th.evalAt (fun _ _ => some 7999999999) } }
/-- The store's cells that hold a record. -/
def recCells (a : Nat) (r : Rec) : List Host.Cell := (r.bytes.zipIdx.filter (fun x => decide (x.1 ≠ 0xFF))).map (fun x => (a + x.2, x.1))
/-- A Cairn record. -/
def aRec (seq : Nat) : Rec := { rec0 with typ := 1, len := 52, seq := seq, payload := List.replicate 52 7 }
/-- Two Cairn records are written, and one asks for records from sequence 0 on. -/
def recordedMem : State := asking .m1 [cmdWord 0x32 2, 0,
    3] (bumpNv (fun x => { x with mem := recCells 320 (aRec 42) ++ recCells 384 (aRec 43), ptrCairn := 7 }) (served .run))
/-- The last word of an image of length 0 is awaited. -/
def loadedImage : State :=
  let s := (served .standby).modHs .west (fun x => { x with eligible := false })
  { s with jtag := { s.jtag with loadPhase := 2, loadTarget := some .west, loadWords := 64 }, sum := { s.sum with flashB := [(3, some 0)] } }
/-- The root clock is lost. -/
def clkBad (s : State) : State := { s with clk := { s.clk with rootOk := false } }
/-- A rundown runs. -/
def runningDown (n : Nat) (s : State) : State := { s with dev := { s.dev with rundown := some n } }
/-- Several writes wait, and their commit tag has come. -/
def dueList (l : List Act) (s : State) : State := { s with commits := l.map (fun a => ⟨0, a⟩) }
/-- The device registers changed. -/
def devWith (f : Dev → Dev) (s : State) : State := { s with dev := f s.dev }
/-- The forerunner view is on. -/
def viewing (s : State) : State := devWith (fun d => { d with compatEn := true }) s
/-- Channel 3 is in a state, with ON set. -/
def channelIn (st : ChState) (s : State) : State := s.modChan 3 (fun x => { x with st := st, seated := true, tripped := false, on := true })
/-- A write of SW_CTL.ON of context 3 is due. -/
def switchingOn (s : State) : State := dueList [.swCtl 3 true false] s
/-- Phase 95 is owned by context 3 and bound to none. -/
def misbound95 : State := { served .run with ph := upd (served .run).ph 95 (fun x => { x with inF := x.inF.set PP.owner.ix 3 PP.owner.ix_lt }) }
/-- Both binding words of a phase are damaged in West. -/
def eccPair (p : PhaseId) (a b : Ecc) : State :=
    (served .run).modHs .west (fun x => { x with bindA := x.bindA.set p (0, a), bindB := x.bindB.set p (0, b) })
/-- A disagreement stands. -/
def disagreeing (errs : List Nat) : State := { served .run with sum := { (served .run).sum with
  disagreeTag := some 99997, lastDisagree := some 0, east := { (served .run).sum.east with errTags := errs } } }
/-- East is not eligible. -/
def lost (w : Bool) : State := ((served .run).modHs .east (fun x => { x with eligible := false })).modHs .west (fun x => { x with eligible := w })
/-- A release of the summit waits. -/
def released (n : Nat) (w : Bool) : State := { (served .run).modHs .west (fun x => { x with eligible := w }) with
  sum := { ((served .run).modHs .west (fun x => { x with eligible := w })).sum with handoverAt := some n } }
/-- No half holds the summit. -/
def vacant : State := { served .safe with sum := { (served .safe).sum with armA := none, armB := none, armC := none
                                                                           east := { (served .safe).sum.east with eligible := false } } }
/-- East resynchronises. -/
def resyncing (n k : Nat) : State := (lost true).modHs .east (fun x => { x with resyncTag := some n, resyncFails := k })
/-- West holds the summit. -/
def westHolds (s : State) : State := s.setHolder (some .west)
/-- Phase 95 is owned by context 3 and active in both halves. -/
def boundPhase : State :=
    setHPh 95 (fun h => { h with state := .active, bind := 3 }) (setGlob .ftCfg 0 { served .run with ph := upd (served .run).ph 95 (fun x => { x with inF := x.inF.set PP.owner.ix 3 PP.owner.ix_lt, offsetValid := true }) })
/-- A boundary of context 3 is at hand. -/
def atBoundary3 (f : State → State) : State := f (boundPhase.modCtx 3 (fun x => { x with anchor := 100000 }))
/-- An auto-zero of phase 3 runs. -/
def zeroing (ok : Bool) (v : Int) : State :=
    withFast 1601024 (setHPh 3 (fun h => { h with azSum := if ok then accOf v else { accOf v with bad := true } }) ((served .run).modPh 3 (fun x => { x with azRun := some 64 })))
/-- West has missed heartbeats. -/
def beating (n : Nat) (t : Option Nat) : State := withFast 1600016 ((served .run).modHs .west (fun x => { x with hbMisses := n, hbTag := t }))
/-- East has copied. -/
def copying (n k : Nat) (cp bad : Bool) : State :=
    westHolds ((lost true).modHs .east (fun x => { x with resyncTag := some n, resyncFails := k, resyncing := true, resyncCopied := cp, resyncBad := bad }))
/-- An beforeEdge of TSYNC. -/
def edgesAt (h : Bool) (n : Nat) : State :=
    disciplined (fun x => { x with ft := 1000000 * 2 ^ 40 + n, holdover := h, freq := x.freq + 7, locked := true, good := 3 })
/-- A retry of channel 3 is due. -/
def chRetry (v : Fin 4) : State := (served .run).modChan 3 (fun x => { x with st := .fault, vgs := v, retryDue := some 8000000000, seated := true })
/-- This session has read two Cairn records. -/
def exported : State := { served .run with cairn := { (served .run).cairn with returned := [6, 7] } }
/-- A host-initiated write waits. -/
def hostWriting (n : Nat) (s : State) : State := bumpNv (fun x => { x with hostWrite := some (n, none) }) s
/-- A capture word is damaged in a half. -/
def capBad (e w : Ecc) (n : Nat) : State := (asked 0x21 [3, 2047, word n]).halves (fun x => x) |> fun s =>
  let z (v : Word) (e : Ecc) (k : Cell) : Cell := { k with capture := Memory.write {} k.capture 2047 { w := v, ecc := e } }
  { s with east := s.east.modCell 3 (z 11 e), west := s.west.modCell 3 (z 12 w) }
/-- An event is posted. -/
def post (a b c d : Word) : State := asking .m0 [cmdWord 0x10 4, a, b, c, d] posting
/-- A trace runs. -/
def tracing : State → State := fun s => s.modCtx 3 (fun x => { x with owner := .trace, traceRunning := true })
/-- Words are written to an erased shadow. -/
def fw50 (a : List Word) : State := { askedM1 0x50 a with sum := shadowErased.sum }
/-- Challenges are locked out. -/
def lockedFor (n : Nat) (s : State) : State := { s with mb := { s.mb with lockout := some n, failures := 2 } }
/-- A PMBus page. -/
def onPage (n : Nat) (s : State) : State := { s with pmb := { s.pmb with page := n } }
/-- A PMBus read. -/
def aRead : PmbXfer := { write := none }
/-- A PMBus write with its PEC. -/
def aWrite (s : State) (code : Nat) (bs : List Byte) : PmbXfer :=
    { write := some bs, pec := some (crc8 (BitVec.ofNat 8 (2 * s.pmb.addr) :: BitVec.ofNat 8 code :: bs)) }
/-- Page 3. -/
def page3 : State := onPage 3 (served .run)
/-- A mailbox request waits. -/
def queuedPg : State := onPage 3 (asked 0x20 [3])
/-- A PMBus write behind a mailbox request. -/
def jobPg (j : PmbJob) : State := { queuedPg with mb := { queuedPg.mb with queue := [⟨.m0, 2⟩, ⟨.pmb, 0⟩] }
                                                  pmb := { queuedPg.pmb with jobs := [j] } }
/-- A PMBus parameter index. -/
def indexed (n : Nat) (s : State) : State := { s with pmb := { s.pmb with index := n } }
/-- Port A is enabled. -/
def onTarn (f : TarnPort → TarnPort) : State := (served .run).modPort .a (fun x => f { x with enabled := true })
/-- Port A polls context 3. -/
def polling (kind : Nat) : State :=
    setCtx 3 .faultResp0 0 (onTarn (fun x => { x with pos := 1, map := 8#64, poll := some { addr := 3, kind := kind, seq := 0, budget := 4 } }))
/-- A framed reply. -/
def reply (addr seq st : Nat) (pay : List Byte) : TarnChars :=
  { chars := framed ([0x5A, BitVec.ofNat 8 addr, BitVec.ofNat 8 seq, BitVec.ofNat 8 st, BitVec.ofNat 8 pay.length] ++ pay) }
/-- The Tarn record of context 3 changed. -/
def tarn3 (f : TarnS → TarnS) (s : State) : State := s.modCtx 3 (fun x => { x with tarn := f x.tarn })
/-- The JTAG port changed. -/
def jtagOn (s : State) (f : Jtag → Jtag) : State := { s with jtag := f s.jtag }
/-- West is not eligible. -/
def notEligible : State := (served .standby).modHs .west (fun x => { x with eligible := false })
/-- A FLASH_LOAD to West has come to a word. -/
def loading (p n : Nat) : State := jtagOn notEligible (fun x => { x with loadPhase := p, loadTarget := some .west, loadWords := n })
/-- The next tick begins a fab cycle. -/
def beforeEdge (s : State) : State := { s with clk := { s.clk with time := 8000000003 } }
/-- The inner decision of context 3 is at hand. -/
def innerNow : State := let s := regulated 3 boundPhase; { s with ctx := every s.ctx (fun _ x => { x with lastDone := some 100000 }) }
/-- The outer step of context 3 is at hand, with an over-voltage and an over-current standing. -/
def stepsNow : State := ((setCtx 3 .faultResp0 0 ((regulated 3 (atBoundary3 id)).modPh 95 (fun x => { x with gainFinal := some 16777216, ocSeen := true, ocTimer := 1000 }))).modCtx 3
  (fun x => { x with firstStep := false, prot := { x.prot with ovTimer := 100000 } }))
/-- Both halves. -/
theorem forall_half {P : HalfId → Prop} (east : P .east) (west : P .west) : ∀ h, P h
  | .east => east
  | .west => west
/-- Parameters at their resets are no pairs of a save. -/
theorem no_pairs (s : State) (hg : s.globPairs = []) (hc : s.ctx = State.reset.ctx) (hp : s.ph = State.reset.ph)
    (he : s.east.cell = State.reset.east.cell) (hostWriting : s.west.cell = State.reset.west.cell) : s.savedPairs = [] := by
  have pw : ∀ p : CP, (if p = .mode then wordOf (Ctx.reset.newest p) &&& ~~~ (64 : Word) else wordOf (Ctx.reset.newest p)) = wordOf p.row.rst := by
    intro p; cases p <;> decide +revert
  have pp : ∀ e : PP, wordOf (PhaseS.reset.newest e) = wordOf e.row.rst := by intro e; cases e <;> decide +revert
  have pk : ∀ k : Fin 15, wordOf Cell.boot.bank[k].v = wordOf (Coef.rst k) := by decide
  have hx : ∀ c : CtxId, s.ctx[c] = Ctx.reset := by intro c; rw [hc]; exact Vector.getElem_replicate ..
  have hy : ∀ p : PhaseId, s.ph[p] = PhaseS.reset := by intro c; rw [hp]; exact Vector.getElem_replicate ..
  have hk : ∀ c : CtxId, s.cell c = Cell.boot := by
    intro c; unfold State.cell State.half; split
    · rw [he]; exact Vector.getElem_replicate ..
    · rw [hostWriting]; exact Vector.getElem_replicate ..
  unfold State.savedPairs
  rw [hg, List.nil_append, List.append_eq_nil_iff]
  constructor
  · refine List.flatMap_eq_nil_iff.2 (fun c _ => ?_)
    simp [State.ctxPairs, State.savedWord, hx, hk, pairOf]
    exact ⟨fun x _ _ _ => pw x, fun _ k => pk k, fun x _ _ _ => pw x⟩
  · refine List.flatMap_eq_nil_iff.2 (fun p _ => ?_)
    simp [State.phPairs, hy, pp, pairOf]
/-- A temperature out of the write window refuses a save. -/
theorem save_refused (s : State) (l : List Pair) (hp : s.protects 2 = false) (h : s.inWindow = false) : s.saveRefusal l ≠ 0 := by
  unfold State.saveRefusal State.hostRefusal
  split
  · decide
  · simp [show Area.quarter .q2 = 2 from rfl, hp, h]
theorem shaRound_length (v : List Word) (k w : Word) (h : v.length = 8) : (shaRound v k w).length = 8 := by
  unfold shaRound; split <;> simp_all
theorem shaRounds_length (l : List (Word × Word)) (v : List Word) (h : v.length = 8) :
    (l.foldl (fun v kw => shaRound v kw.1 kw.2) v).length = 8 := by
  induction l generalizing v with
  | nil => exact h
  | cons a l ih => exact ih _ (shaRound_length v _ _ h)
theorem shaBlocks_length (n : Nat) (h : List Word) (bs : List Byte) (hh : h.length = 8) : (shaBlocks n h bs).length = 8 := by
  induction n generalizing h bs with
  | zero => exact hh
  | succ n ih => exact ih _ _ (by simp [shaBlock, shaRounds_length _ h hh, hh])
theorem sha256_words (bs : List Byte) : ∃ a b c d e f g h : Word, sha256 bs = [a, b, c, d, e, f, g, h].flatMap (fun w => beBytes 4 w.toNat) := by
  have hl := shaBlocks_length ((bs ++ shaPad bs.length).length / 64) shaInit (bs ++ shaPad bs.length) rfl
  have hs : sha256 bs = (shaBlocks ((bs ++ shaPad bs.length).length / 64) shaInit (bs ++ shaPad bs.length)).flatMap (fun w => beBytes 4 w.toNat) :=
      rfl
  match hm : shaBlocks ((bs ++ shaPad bs.length).length / 64) shaInit (bs ++ shaPad bs.length), hl with
  | [a, b, c, d, e, f, g, h], _ => exact ⟨a, b, c, d, e, f, g, h, by rw [hs, hm]⟩
theorem mac_words (s : State) (n : Nat) : ∃ a b c d e f g h : Word, s.mac n = [a, b, c, d, e, f, g, h].flatMap (fun w => beBytes 4 w.toNat) := by
  unfold State.mac hmacSha256
  exact sha256_words _
theorem mac_congr (s t : State) (n : Nat) (h : s.mb.challenges = t.mb.challenges) : s.mac n = t.mac n := by simp only [State.mac, h]
theorem authOk_of (s : State) (n m : Nat) (mac : List Word) (hc : s.mb.challenge = some (n, m)) (ht : s.clk.time < m + tenSeconds)
    (hm : s.mac n = mac.flatMap (fun w => beBytes 4 w.toNat)) : s.authOk n mac = true := by simp [State.authOk, hc, ht, hm]
/-- A challenge is out, and a response of eight words is at the head of the queue. -/
def responding (s : State) (ws : List Word) : State :=
  let t := asking .m0 (cmdWord 0x41 9 :: 0 :: ws) s
  { t with mb := { t.mb with challenge := some (0, s.clk.time), challenges := 1 } }
theorem responding_slot (s : State) (ws : List Word) : (responding s ws).mb.slot ⟨.m0, 2⟩ =
    { st := .busy, words := words64 (cmdWord 0x41 9 :: 0 :: ws), written := ws.length + 2 } := by
  simp [responding, asking, Mbox.slot, Mbox.modSlot, upd]
theorem responding_challenges (s : State) (ws : List Word) : (responding s ws).mb.challenges = 1 := rfl
theorem words64_get (ws : List Word) (k : Nat) (h : k < 64) : (words64 ws)[k] = ws.getD k 0 := by simp [words64]
theorem responding_ok (s : State) (hs : s.takes = true) (hj : s.pmb.jobs = []) : ∃ ws : List Word, (responding s ws).Asks 0x41 9 ⟨.m0, 2⟩ ∧
    (responding s ws).authOk (((responding s ws).mb.slot ⟨.m0, 2⟩).arg 1) (((responding s ws).mb.slot ⟨.m0, 2⟩).args 2 8) = true := by
  obtain ⟨a, b, c, d, e, f, g, h, hm⟩ := mac_words (responding s []) 0
  refine ⟨[a, b, c, d, e, f, g, h], ⟨hs, rfl, ?_, ?_, ?_, by decide, hj⟩, ?_⟩
  · rw [responding_slot]; simp only [Slot64.cmd, words64_get, List.getD_cons_zero]; decide
  · rw [responding_slot]; simp only [Slot64.narg, words64_get, List.getD_cons_zero]; decide
  · rw [responding_slot]; simp
  · have h1 : ((responding s [a, b, c, d, e, f, g, h]).mb.slot ⟨.m0, 2⟩).arg 1 = 0 := by
      rw [responding_slot]; simp [Slot64.arg, Slot64.argW, words64_get]
    have h2 : ((responding s [a, b, c, d, e, f, g, h]).mb.slot ⟨.m0, 2⟩).args 2 8 = [a, b, c, d, e, f, g, h] := by
      rw [responding_slot]; simp [Slot64.args, Slot64.argW, words64_get, List.range_succ]
    have ht : s.clk.time < s.clk.time + tenSeconds := Nat.lt_add_of_pos_right (by decide)
    rw [h1, h2]
    exact authOk_of (responding s [a, b, c, d, e, f, g, h]) 0 s.clk.time [a, b, c, d, e, f, g, h] rfl ht
      ((mac_congr (responding s [a, b, c, d, e, f, g, h]) (responding s []) 0
        ((responding_challenges s _).trans (responding_challenges s _).symm)).trans hm)
theorem witness_IdleStepIsOneTick :
    (∃ s : State, s.pending = [] ∧ (s.clk.time + 1) % 4 ≠ 0 ∧ s.clocked = false) ∧
    (∃ s : State, s.pending = [] ∧ (s.clk.time + 1) % 4 ≠ 0 ∧ s.clocked = true) ∧
    (∃ s : State, s.pending = [] ∧ (s.clk.time + 1) % 4 = 0 ∧ s.dev.lost = [] ∧ s.pmb.jobs = [] ∧ s.nv.routine = []) ∧
    (∃ s : State, ∃ j : PmbJob, s.pending = [] ∧ (s.clk.time + 1) % 4 = 0 ∧ s.dev.lost = [] ∧ s.takes = true ∧ s.nv.work ≠ Work.idle ∧
        s.mb.queue = [{ box := Iface.pmb, slot := 0 }] ∧ s.pmb.jobs = [j]) :=
  ⟨⟨(served .cold), by decide⟩,
    ⟨(served .boot), by decide⟩,
    ⟨(beforeEdge (served .cold)), by decide⟩,
    ⟨{ (beforeEdge (served .standby)) with nv := { (beforeEdge (served .standby)).nv with work := .own }, mb := { (beforeEdge (served .standby)).mb with queue := [⟨.pmb, 0⟩] }, pmb := { (beforeEdge (served .standby)).pmb with jobs := [⟨0x21, 3, 0, [0, 0], 5⟩] } }, ⟨0x21, 3, 0, [0, 0], 5⟩, by decide⟩⟩
theorem witness_DeviceTransitions :
    (∃ s t : State, step s = .next t ∧ s.pending = []) ∧
    (∃ s t : State, ∃ c : Instr, step s = .next t ∧ s.pending = [c] ∧ c ≠ .commitTag) ∧
    (∃ s t : State, step s = .next t ∧ s.pending = [.commitTag]) ∧
    (∃ s : State, s.pending = [] ∧ (s.clk.time + 1) % 4 = 0 ∧ s.dev.movedAt ≠ some ((s.clk.time + 1) / 4) ∧ s.pmb.jobs = [] ∧ .holdup ∈ s.dev.lost ∧
        s.dev.st.powered = true ∧ s.dev.vinOn = false) ∧
    (∃ s : State, s.pending = [] ∧ (s.clk.time + 1) % 4 = 0 ∧ s.dev.movedAt ≠ some ((s.clk.time + 1) / 4) ∧ s.pmb.jobs = [] ∧ .reset ∈ s.dev.lost ∧
        s.dev.st.resets = true ∧ .holdup ∉ s.dev.lost) ∧
    (∃ s : State, s.pending = [] ∧ (s.clk.time + 1) % 4 = 0 ∧ s.dev.movedAt ≠ some ((s.clk.time + 1) / 4) ∧ s.pmb.jobs = [] ∧ s.dev.lost = [.safe] ∧
        s.safeFrom = true ∧ s.dev.caused = true) ∧
    (∃ s : State, s.pending = [] ∧ (s.clk.time + 1) % 4 = 0 ∧ s.dev.movedAt ≠ some ((s.clk.time + 1) / 4) ∧ s.pmb.jobs = [] ∧ s.dev.lost = [.safe] ∧
        s.dev.caused = false) ∧
    (∃ s : State, s.pending = [] ∧ (s.clk.time + 1) % 4 = 0 ∧ s.dev.movedAt ≠ some ((s.clk.time + 1) / 4) ∧ s.pmb.jobs = [] ∧ s.dev.lost = [.run] ∧
        s.dev.st = .standby ∧ s.dev.runReq = true) ∧
    (∃ s : State, s.pending = [] ∧ (s.clk.time + 1) % 4 = 0 ∧ s.dev.movedAt ≠ some ((s.clk.time + 1) / 4) ∧ s.pmb.jobs = [] ∧ s.dev.lost = [.run] ∧
        s.dev.st ≠ .standby) ∧
    (∃ s : State, s.pending = [] ∧ (s.clk.time + 1) % 4 = 0 ∧ s.dev.movedAt ≠ some ((s.clk.time + 1) / 4) ∧ s.pmb.jobs = [] ∧
        s.dev.lost = [.standby] ∧ s.dev.st = .safe ∧ s.dev.caused = false) ∧
    (∃ s : State, s.pending = [] ∧ (s.clk.time + 1) % 4 = 0 ∧ s.dev.movedAt ≠ some ((s.clk.time + 1) / 4) ∧ s.pmb.jobs = [] ∧
        s.dev.lost = [.standby] ∧ s.dev.st = .boot ∧ s.dev.bootStep = 6 ∧ s.gp .autoRun = 2) ∧
    (∃ s : State, s.pending = [] ∧ (s.clk.time + 1) % 4 = 0 ∧ s.dev.movedAt ≠ some ((s.clk.time + 1) / 4) ∧ s.pmb.jobs = [] ∧ (∃ u : Nat,
        s.dev.rundown = some u ∧ s.dev.lost = [.standby] ∧ s.dev.st = .run ∧ u + 100 * msTicks ≤ s.clk.time + 1)) :=
  ⟨⟨inState .run, _, rfl, by decide⟩,
    ⟨{ inState .cold with pending := [.vinUvloRise] }, _, .vinUvloRise, rfl, by decide, by decide⟩,
    ⟨{ due .safeClr (served .safe) with pending := [.commitTag] }, _, rfl, by decide⟩,
    ⟨{ beforeEdge (served .run) with dev := { (beforeEdge (served .run)).dev with lost := [.safe, .holdup], vinOn := false } }, by decide⟩,
    ⟨{ beforeEdge (served .run) with dev := { (beforeEdge (served .run)).dev with lost := [.reset] } }, by decide⟩,
    ⟨{ beforeEdge (served .run) with dev := { (beforeEdge (served .run)).dev with lost := [.safe], causePin := true } }, by decide⟩,
    ⟨{ beforeEdge (served .run) with dev := { (beforeEdge (served .run)).dev with lost := [.safe] } }, by decide⟩,
    ⟨{ beforeEdge (served .standby) with dev := { (beforeEdge (served .standby)).dev with lost := [.run], runReq := true } }, by decide⟩,
    ⟨{ beforeEdge (served .run) with dev := { (beforeEdge (served .run)).dev with lost := [.run], runReq := true } }, by decide⟩,
    ⟨{ beforeEdge (served .safe) with dev := { (beforeEdge (served .safe)).dev with lost := [.standby] } }, by decide⟩,
    ⟨setGlob .autoRun 2 { beforeEdge (served .boot) with dev := { (beforeEdge (served .boot)).dev with lost := [.standby], bootStep := 6 } },
        by decide⟩,
    ⟨{ beforeEdge (served .run) with dev := { (beforeEdge (served .run)).dev with lost := [.standby], rundown := some 0 } }, by decide, by decide,
        by decide, by decide, 0, by decide⟩⟩
theorem witness_PowerUp :
    (∃ s : State, s.dev.st = DevState.cold) ∧
    (∃ s : State, s.dev.st ≠ DevState.cold) :=
  ⟨⟨inState .cold, by decide⟩,
    ⟨inState .boot, by decide⟩⟩
theorem witness_BootSteps :
    (∃ s : State, s.dev.st = DevState.boot ∧ (s.dev.powerUp = false ∨ s.dev.drivers = false)) ∧
    (∃ s : State, s.dev.st = DevState.boot ∧ s.dev.bootStep = 2 ∧ s.dev.rstLow = false ∧ s.dev.uvIo = false ∧ s.dev.uvA = false ∧ s.dev.uvH = false) ∧
    (∃ ohm : Nat, ohm ≤ 100) ∧
    (∃ k : Fin 14, ∃ ohm : Nat, 99 * pmbOhms.getD (↑k) 0 ≤ 100 * ohm ∧ 100 * ohm ≤ 101 * pmbOhms.getD (↑k) 0) ∧
    (∃ s : State, s.dev.st = DevState.boot ∧ s.dev.bootStep = 3) :=
  ⟨⟨inState .boot, by decide⟩,
    ⟨bootAt 2, by decide⟩,
    ⟨0, by decide⟩,
    ⟨0, 990, by decide⟩,
    ⟨bootAt 3, by decide⟩⟩
theorem witness_BootEnds :
    (∃ s : State, s.bootAt 4 = true) ∧
    (∃ s : State, s.bootAt 5 = true) :=
  ⟨⟨bootAt 4, by decide⟩,
    ⟨bootAt 5, by decide⟩⟩
theorem witness_HoldupEntry :
    (∃ s : State, (s.dev.st = DevState.boot ∨ s.dev.st = DevState.standby ∨ s.dev.st = DevState.run ∨ s.dev.st = DevState.safe) ∧
        s.mayMove Trig.holdup = true) ∧
    (∃ s : State, (s.dev.st = DevState.boot ∨ s.dev.st = DevState.standby ∨ s.dev.st = DevState.run ∨ s.dev.st = DevState.safe) ∧
        s.mayMove Trig.holdup = false) ∧
    (∃ s : State, s.dev.st = DevState.cold ∨ s.dev.st = DevState.holdup) :=
  ⟨⟨inState .boot, by decide⟩,
    ⟨moved .run, by decide⟩,
    ⟨inState .cold, by decide⟩⟩
theorem witness_HoldupGaspAndEnd :
    (∃ s : State, ∃ a : Nat, ∃ b : List Byte, s.dev.st = DevState.holdup ∧ s.dieWithin (-5120) 16000 = true ∧ s.cairn.gaspCell = some (a, b)) ∧
    (∃ s : State, s.dev.st = DevState.holdup ∧ s.gaspOver = true) :=
  ⟨⟨gasping, 64, [1, 2, 3, 4, 5, 6, 7, 8, 9, 10], by decide⟩,
    ⟨inState .holdup, by decide⟩⟩
theorem witness_ResetN :
    (∃ ns : Nat, ∃ s : State, 800 ≤ ns ∧ (s.dev.st = DevState.boot ∨ s.dev.st = DevState.standby ∨ s.dev.st = DevState.run ∨
        s.dev.st = DevState.safe) ∧ s.mayMove Trig.reset = true) ∧
    (∃ ns : Nat, ∃ s : State, 800 ≤ ns ∧ (s.dev.st = DevState.boot ∨ s.dev.st = DevState.standby ∨ s.dev.st = DevState.run ∨
        s.dev.st = DevState.safe) ∧ s.mayMove Trig.reset = false) ∧
    (∃ ns : Nat, ∃ s : State, 800 ≤ ns ∧ (s.dev.st = DevState.holdup ∨ s.dev.st = DevState.cold)) ∧
    (∃ ns : Nat, ns ≤ 500) :=
  ⟨⟨800, inState .boot, by decide⟩,
    ⟨800, moved .run, by decide⟩,
    ⟨800, inState .cold, by decide⟩,
    ⟨0, by decide⟩⟩
theorem witness_SuppliesAndSafeN :
    (∃ r : Supply, ∃ s : State, r ≠ Supply.e ∧ r ≠ Supply.w ∧ (s.dev.st = DevState.boot ∨ s.dev.st = DevState.standby ∨ s.dev.st = DevState.run ∨
        s.dev.st = DevState.safe) ∧ s.mayMove Trig.reset = true) ∧
    (∃ s : State, s.dev.st = DevState.boot ∨ s.dev.st = DevState.standby ∨ s.dev.st = DevState.run ∨ s.dev.st = DevState.safe) ∧
    (∃ s : State, s.dev.st ≠ DevState.boot) ∧
    (∃ s : State, s.dev.st = DevState.boot) ∧
    (∃ ns : Nat, ∃ s : State, 100 ≤ ns ∧ s.safeFrom = true ∧ s.mayMove Trig.safe = true) ∧
    (∃ ns : Nat, ∃ s : State, 100 ≤ ns ∧ s.safeFrom = false) ∧
    (∃ ns : Nat, ns < 50) :=
  ⟨⟨.io, inState .boot, by decide⟩,
    ⟨inState .boot, by decide⟩,
    ⟨inState .cold, by decide⟩,
    ⟨inState .boot, by decide⟩,
    ⟨100, inState .standby, by decide⟩,
    ⟨100, inState .cold, by decide⟩,
    ⟨0, by decide⟩⟩
theorem witness_ClockLossAndReturn :
    (∃ s : State, s.clk.synced = true ∧ s.clk.ok = true ∧ s.safeFrom = true ∧ s.mayMove Trig.safe = true) ∧
    (∃ s : State, s.clk.synced = true ∧ s.clk.ok = false) ∧
    (∃ s : State, s.clk.synced = true ∧ s.clk.ok = false ∧ s.dev.st = DevState.safe) ∧
    (∃ s : State, s.clk.synced = true ∧ s.clk.ok = false ∧ s.dev.st ≠ DevState.safe) :=
  ⟨⟨served .standby, by decide⟩,
    ⟨clkBad (served .safe), by decide⟩,
    ⟨clkBad (served .safe), by decide⟩,
    ⟨clkBad (served .run), by decide⟩⟩
theorem witness_RunControlWrites : ∃ i : Iface, ∃ s : State, s.carries i = true :=
  ⟨.m0, served .standby, by decide⟩
theorem witness_RunAndRundown :
    (∃ s : State, ∃ n : Nat, ∃ a : Int, n ≤ s.enables ∧ s.commits = [{ tag := n, act := Act.glob GP.autoRun a },
        { tag := n, act := Act.runReq true }] ∧ s.dev.st = DevState.standby ∧ s.mayMove Trig.run = true) ∧
    (∃ s : State, ∃ n : Nat, ∃ a : Int, n ≤ s.enables ∧ s.commits = [{ tag := n, act := Act.glob GP.autoRun a },
        { tag := n, act := Act.runReq true }] ∧ s.dev.st = DevState.standby ∧ s.mayMove Trig.run = false) ∧
    (∃ s : State, ∃ n : Nat, ∃ a : Int, n ≤ s.enables ∧ s.commits = [{ tag := n, act := Act.glob GP.autoRun a },
        { tag := n, act := Act.runReq true }] ∧ s.dev.st ≠ DevState.standby) ∧
    (∃ s : State, ∃ n : Nat, ∃ a : Int, n ≤ s.enables ∧ s.commits = [{ tag := n, act := Act.glob GP.autoRun a },
        { tag := n, act := Act.runReq false }] ∧ s.dev.st = DevState.run ∧ s.dev.rundown = none) ∧
    (∃ s : State, ∃ n : Nat, ∃ a : Int, n ≤ s.enables ∧ ∃ on : Bool, s.commits = [{ tag := n, act := Act.glob GP.autoRun a },
        { tag := n, act := Act.runReq on }, { tag := n, act := Act.safeClr }] ∧ s.dev.st = DevState.safe ∧ s.mayMove Trig.standby = true) ∧
    (∃ s : State, (s.dev.st = DevState.run ∧ s.dev.rundown.isSome = true) ∧ (∀ (c : CtxId), s.ctx[c].regulating = false) ∧ (∀ (p : PhaseId),
        (s.hph p).pulse = none) ∧ s.mayMove Trig.standby = true) ∧
    (∃ s : State, s.dev.st = DevState.run ∧ s.rundownOver = true ∧ s.mayMove Trig.standby = false) ∧
    (∃ s : State, ∃ c : CtxId, s.ctx[c].regulating = true) ∧
    (∃ s : State, ∃ p : PhaseId, ∃ q : Pulse, (s.hph p).pulse = some q ∧ q.fall = none ∧ q.endAt = none ∧ s.steps < q.start + (s.hph p).act.tonMax) ∧
    (∃ s : State, ∃ p : PhaseId, ∃ q : Pulse, (s.hph p).pulse = some q ∧ q.fall.isSome = true ∧
        Option.all (fun e => decide (s.steps < e)) q.endAt = true) ∧
    (∃ s : State, ∃ n : Nat, s.dev.st = DevState.run ∧ s.dev.rundown = some n ∧ n + 40000000 ≤ s.clk.time) ∧
    (∃ s : State, ∃ n : Nat, s.dev.rundown = some n ∧ s.clk.time < n + 40000000) :=
  ⟨⟨dueList [.glob .autoRun 1, .runReq true] (served .standby), 0, 1, by decide⟩,
    ⟨dueList [.glob .autoRun 1, .runReq true] (moved .standby), 0, 1, by decide⟩,
    ⟨dueList [.glob .autoRun 1, .runReq true] (served .safe), 0, 1, by decide⟩,
    ⟨dueList [.glob .autoRun 1, .runReq false] (channelIn .on (served .run)), 0, 1, by decide⟩,
    ⟨dueList [.glob .autoRun 1, .runReq true, .safeClr] (served .safe), 0, 1, by decide, true, by decide⟩,
    ⟨runningDown 0 (served .run), by decide, by decide, by decide, by decide⟩,
    ⟨runningDown 0 (moved .run), by decide⟩,
    ⟨regulated 3 (runningDown 0 (served .run)), 3, by decide⟩,
    ⟨runningDown 0 (pulsing pulseOpen), 95, _, rfl, by decide⟩,
    ⟨runningDown 0 (pulsing { pulseDone with endAt := some 60000000 }), 95, _, rfl, by decide⟩,
    ⟨runningDown 0 (served .run), 0, by decide⟩,
    ⟨runningDown 7999000000 (served .run), _, rfl, by decide⟩⟩
theorem witness_RestrictedWrites :
    (∃ s : State, (s.takes = true ∧ s.mb.session = true) ∧ ∃ v : Fin 8, ↑v % 4 ≠ 3 ∧ s.gNew GP.ftCfg = ↑↑v ∧
        (↑v % 4 ≠ 0 → s.ftLoad % pulseUs (↑v % 4) = 0)) ∧
    (∃ s : State, (s.takes = true ∧ s.mb.session = true) ∧ ∃ c : CtxId, ↑c ≠ 0) ∧
    (∃ s : State, s.takes = true ∧ ∃ i : Iface, i ≠ Iface.m1) ∧
    (∃ s : State, ∃ n : Nat, ∃ h : HalfId, s.commits = [{ tag := n, act := Act.handover }] ∧ n ≤ s.enables ∧ s.holder = some h ∧
        (s.sum.half h).eligible = true) ∧
    (∃ s : State, ∃ n : Nat, ∃ c : CtxId, s.commits = [{ tag := n, act := Act.tarnRelease c }] ∧ n ≤ s.enables ∧ s.ctx[c].tarn.quarantined = true) ∧
    (∃ s : State, ∃ n : Nat, ∃ v : Fin 8, s.commits = [{ tag := n, act := Act.glob GP.ftCfg ↑↑v }, { tag := n, act := Act.ftArm true }] ∧
        n ≤ s.enables) ∧
    (∃ s : State, ∃ n : Nat, ∃ v : Fin 8, s.commits = [{ tag := n, act := Act.glob GP.ftCfg ↑↑v }, { tag := n, act := Act.ftArm false }] ∧
        n ≤ s.enables) :=
  ⟨⟨served .run, by decide, 0, by decide⟩,
    ⟨served .run, by decide, 3, by decide⟩,
    ⟨served .run, by decide, .m0, by decide⟩,
    ⟨due .handover (served .run), 0, .east, by decide⟩,
    ⟨due (.tarnRelease 3) ((served .run).modCtx 3 (fun x => { x with tarn := { x.tarn with quarantined := true, run := 4 } })), 0, 3, by decide⟩,
    ⟨dueList [.glob .ftCfg 0, .ftArm true] (served .run), 0, 0, by decide⟩,
    ⟨dueList [.glob .ftCfg 0, .ftArm false] (served .run), 0, 0, by decide⟩⟩
theorem witness_SelSwapView :
    (∃ i : Iface, ∃ c : CtxId, ∃ s : State, s.carries i = true ∧ ∃ w : Word, s.hides i c = false ∧ selOk w = true) ∧
    (∃ i : Iface, ∃ c : CtxId, ∃ s : State, s.carries i = true ∧ ∃ w : Word, s.hides i c = false ∧ selOk w = false) ∧
    (∃ i : Iface, ∃ c : CtxId, ∃ s : State, s.carries i = true ∧ s.hides i c = true) ∧
    (∃ i : Iface, ∃ c : CtxId, ∃ s : State, (s.carries i = true ∧ ↑c ≠ 0) ∧ s.ctx[c].swapPending = false) ∧
    (∃ i : Iface, ∃ c : CtxId, ∃ s : State, (s.carries i = true ∧ ↑c ≠ 0) ∧ s.ctx[c].swapPending = true) ∧
    (∃ s : State, ∃ n : Nat, ∃ c : CtxId, (s.commits = [{ tag := n, act := Act.swap c }] ∧ n ≤ s.enables) ∧ (∀ (h : HalfId),
        (s.sum.half h).stopped s.enables = false)) :=
  ⟨⟨.m0, 0, served .standby, by decide, 0, by decide⟩,
    ⟨.m0, 0, served .standby, by decide, 0x00600000, by decide⟩,
    ⟨.m0, 0, viewing (served .standby), by decide⟩,
    ⟨.m0, 3, served .standby, by decide, by decide⟩,
    ⟨.m0, 3, (served .run).modCtx 3 (fun x => { x with swapPending := true }), by decide, by decide⟩,
    ⟨due (.swap 3) (served .run), 0, 3, by decide, forall_half (by decide) (by decide)⟩⟩
theorem witness_CompatWrites :
    (∃ s : State, ∃ w : Word, s.carries Iface.m1 = true ∧ ∃ k : Fin 6, s.dev.st = DevState.standby ∧ s.mapOk k ↑(BitVec.toNat w) = false) ∧
    (∃ s : State, ∃ w : Word, s.carries Iface.m1 = true ∧ ∃ k : Fin 6, s.dev.st = DevState.standby ∧ s.mapOk k ↑(BitVec.toNat w) = true) ∧
    (∃ s : State, s.carries Iface.m1 = true ∧ s.dev.st ≠ DevState.standby) ∧
    (∃ s : State, s.carries Iface.m1 = true ∧ s.dev.st ≠ DevState.standby) ∧
    (∃ s : State, ∃ n : Nat, ∃ a : Int, n ≤ s.enables ∧ s.commits = [{ tag := n, act := Act.glob GP.autoRun a },
        { tag := n, act := Act.runReq true }] ∧ s.dev.st = DevState.standby ∧ s.mayMove Trig.run = true) ∧
    (∃ s : State, s.bootAt 5 = true ∧ s.dev.st = DevState.boot ∧ s.mayMove Trig.standby = true ∧ s.gp GP.autoRun = 2) :=
  ⟨⟨served .standby, 0, by decide, 0, by decide⟩,
    ⟨served .standby, 0x00423512, by decide, 0, by decide⟩,
    ⟨served .run, by decide⟩,
    ⟨served .run, by decide, by decide⟩,
    ⟨dueList [.glob .autoRun 1, .runReq true] (served .standby), 0, 1, by decide⟩,
    ⟨setGlob .autoRun 2 (bootAt 5), by decide⟩⟩
theorem witness_W1cWrites :
    (∃ i : Iface, ∃ index : BitVec 16, ∃ s : State, s.carries i = true ∧ ∃ c : CtxId, s.slotOf i index.toNat = some (Slot.creg c CReg.faultStatus) ∧
        s.hides i c = false) ∧
    (∃ i : Iface, ∃ index : BitVec 16, ∃ s : State, s.carries i = true ∧ ∃ c : CtxId, s.slotOf i index.toNat = some (Slot.creg c CReg.swStatus) ∧
        s.hides i c = false) ∧
    (∃ i : Iface, ∃ index : BitVec 16, ∃ s : State, s.carries i = true ∧ ∃ c : CtxId, s.slotOf i index.toNat = some (Slot.creg c CReg.senseStatus) ∧
        s.hides i c = false) ∧
    (∃ i : Iface, ∃ index : BitVec 16, ∃ s : State, s.carries i = true ∧ ∃ c : CtxId, s.slotOf i index.toNat = some (Slot.creg c CReg.satFlags) ∧
        s.hides i c = false) ∧
    (∃ i : Iface, ∃ index : BitVec 16, ∃ s : State, s.carries i = true ∧ ∃ c : CtxId, ↑c ≠ 0 ∧
        s.slotOf i index.toNat = some (Slot.creg c CReg.lawStatus)) ∧
    (∃ i : Iface, ∃ index : BitVec 16, ∃ s : State, s.carries i = true ∧ ∃ c : CtxId, ↑c ≠ 0 ∧
        s.slotOf i index.toNat = some (Slot.creg c CReg.schStatus)) ∧
    (∃ i : Iface, ∃ index : BitVec 16, ∃ s : State, s.carries i = true ∧ ∃ c : CtxId, ↑c ≠ 0 ∧
        s.slotOf i index.toNat = some (Slot.creg c CReg.modeStatus)) ∧
    (∃ i : Iface, ∃ index : BitVec 16, ∃ s : State, s.carries i = true ∧ ∃ c : CtxId, ↑c ≠ 0 ∧
        s.slotOf i index.toNat = some (Slot.creg c CReg.probeStatus)) ∧
    (∃ i : Iface, ∃ index : BitVec 16, ∃ s : State, s.carries i = true ∧ ∃ c : CtxId, ↑c ≠ 0 ∧
        s.slotOf i index.toNat = some (Slot.creg c CReg.tarnStatus)) ∧
    (∃ i : Iface, ∃ index : BitVec 16, ∃ s : State, s.carries i = true ∧ ∃ c : CtxId, ↑c ≠ 0 ∧
        s.slotOf i index.toNat = some (Slot.creg c CReg.pulseStatus)) ∧
    (∃ i : Iface, ∃ index : BitVec 16, ∃ s : State, s.carries i = true ∧ s.slotOf i index.toNat = some (Slot.greg GReg.summitStatus)) ∧
    (∃ i : Iface, ∃ index : BitVec 16, ∃ s : State, s.carries i = true ∧ s.slotOf i index.toNat = some (Slot.greg GReg.tokenStatus)) ∧
    (∃ i : Iface, ∃ index : BitVec 16, ∃ s : State, s.carries i = true ∧ ∃ k : Fin 3, s.slotOf i index.toNat = some (Slot.greg (GReg.imonFault k))) ∧
    (∃ i : Iface, ∃ index : BitVec 16, ∃ s : State, s.carries i = true ∧ s.slotOf i index.toNat = some (Slot.greg GReg.ftStatus)) ∧
    (∃ i : Iface, ∃ index : BitVec 16, ∃ s : State, s.carries i = true ∧ s.slotOf i index.toNat = some (Slot.greg GReg.thermStatus)) ∧
    (∃ i : Iface, ∃ index : BitVec 16, ∃ s : State, s.carries i = true ∧ s.slotOf i index.toNat = some (Slot.greg GReg.nvmStatus)) ∧
    (∃ i : Iface, ∃ index : BitVec 16, ∃ s : State, s.carries i = true ∧ s.slotOf i index.toNat = some (Slot.greg GReg.ledgerStatus)) :=
  ⟨⟨.m0, BitVec.ofNat 16 4536, served .run, by decide, 3, by decide⟩,
    ⟨.m0, BitVec.ofNat 16 4559, served .run, by decide, 3, by decide⟩,
    ⟨.m0, BitVec.ofNat 16 4516, served .run, by decide, 3, by decide⟩,
    ⟨.m0, BitVec.ofNat 16 4505, served .run, by decide, 3, by decide⟩,
    ⟨.m0, BitVec.ofNat 16 4504, served .run, by decide, 3, by decide⟩,
    ⟨.m0, BitVec.ofNat 16 4518, served .run, by decide, 3, by decide⟩,
    ⟨.m0, BitVec.ofNat 16 4481, served .run, by decide, 3, by decide⟩,
    ⟨.m0, BitVec.ofNat 16 4526, served .run, by decide, 3, by decide⟩,
    ⟨.m0, BitVec.ofNat 16 4544, served .run, by decide, 3, by decide⟩,
    ⟨.m0, BitVec.ofNat 16 4510, served .run, by decide, 3, by decide⟩,
    ⟨.m0, BitVec.ofNat 16 257, served .run, by decide⟩,
    ⟨.m0, BitVec.ofNat 16 517, served .run, by decide⟩,
    ⟨.m0, BitVec.ofNat 16 786, served .run, by decide, 0, by decide⟩,
    ⟨.m0, BitVec.ofNat 16 1029, served .run, by decide⟩,
    ⟨.m0, BitVec.ofNat 16 1831, served .run, by decide⟩,
    ⟨.m0, BitVec.ofNat 16 2049, served .run, by decide⟩,
    ⟨.m0, BitVec.ofNat 16 2055, served .run, by decide⟩⟩
theorem witness_CommitTagParameters :
    (∃ s : State, ∃ n : Nat, ∃ c : CtxId, ∃ p : CP, ∃ v : Int, s.commits = [{ tag := n, act := Act.ctxPar c p v }] ∧ n ≤ s.enables) ∧
    (∃ s : State, ∃ n : Nat, ∃ p : PhaseId, ∃ e : PP, ∃ v : Int, s.commits = [{ tag := n, act := Act.phPar p e v }] ∧ n ≤ s.enables) ∧
    (∃ s : State, ∃ n : Nat, ∃ g : GP, ∃ v : Int, s.commits = [{ tag := n, act := Act.glob g v }] ∧ n ≤ s.enables) ∧
    (∃ s : State, ∃ n : Nat, ∃ c : CtxId, ∃ k : Coef, ∃ v : Int, s.commits = [{ tag := n, act := Act.coef c k v }] ∧ n ≤ s.enables) ∧
    (∃ s : State, ∀ (k : Commit), k ∈ s.commits → s.enables < k.tag) :=
  ⟨⟨due (.ctxPar 3 .vset 7) (served .run), 0, 3, .vset, 7, by decide⟩,
    ⟨due (.phPar 95 .owner 3) (served .run), 0, 95, .owner, 3, by decide⟩,
    ⟨due (.glob .ftCfg 1) (served .run), 0, .ftCfg, 1, by decide⟩,
    ⟨due (.coef 3 14 7) (served .run), 0, 3, 14, 7, by decide⟩,
    ⟨served .cold, by decide⟩⟩
theorem witness_SampleTagsAndPulses :
    (∃ s : State, s.innerTime = true ∧ (∀ (c : CtxId), s.ctx[c].regulating = false) ∧ (∀ (h : HalfId) (p : PhaseId),
        (s.half h).ph[p].state = PhState.unbound ∧ (s.half h).ph[p].bind = 0 ∧ (s.half h).ph[p].pulse = none) ∧ (∀ (h : HalfId),
        (s.sum.half h).stopped s.enables = false)) ∧
    (∃ s : State, s.innerTime = false) ∧
    (∃ s : State, ∃ p : PhaseId, ∃ q : Pulse, ∃ f : Nat, ∃ e : Nat, (∀ (h : HalfId), (s.half h).ph[p].pulse = some q) ∧ q.fall = some f ∧
        q.endAt = some e ∧ e ≤ s.steps) ∧
    (∃ s : State, ∃ p : PhaseId, ∃ q : Pulse, q.fall = none ∧ (∀ (h : HalfId), (s.half h).ph[p].pulse = some q ∧
        (s.half h).ph[p].state = PhState.on ∧ q.start + (s.half h).ph[p].act.tonMax ≤ s.steps ∧
        s.steps < endOf (s.half h).ph[p].act q.paired (q.start + (s.half h).ph[p].act.tonMax))) ∧
    (∃ s : State, ∃ p : PhaseId, ∀ (h : HalfId), (s.half h).ph[p].pulse = none) ∧
    (∃ w : Nat, ∃ m : Nat, ∃ d : Int, (shortRule w d m).skipped = false ∧ m ≤ 16777215) ∧
    (∃ s : State, ∃ c : CtxId, ∃ h : HalfId, ∃ p : PhaseId, s.decidesNow c h = true ∧ (s.half h).ph[p].serves c = true ∧
        (s.half h).ph[p].wordsOk = true ∧ ((s.half h).cell[c].hold (s.heldWordOf c)).icmd.ok = true ∧
        ((s.half h).cell[c].hold (s.heldWordOf c)).pos.ok = true ∧ (((s.half h).cell[c].hold (s.heldWordOf c)).w CellWord.kOn).ok = true ∧
        (((s.half h).cell[c].hold (s.heldWordOf c)).w CellWord.toff).ok = true) ∧
    (∃ s : State, ∃ c : CtxId, ∃ h : HalfId, ∃ p : PhaseId, s.decidesNow c h = true ∧ s.calm h = true ∧
        s.isDue c h (s.ctx[c].inE modeOfftime) p = true) :=
  ⟨⟨withFast 1600016 (served .run), by decide, by decide, forall_half (by decide) (by decide), forall_half (by decide) (by decide)⟩,
    ⟨served .run, by decide⟩,
    ⟨pulsing pulseDone, 95, pulseDone, 400, 51200000, forall_half (by decide) (by decide), by decide⟩,
    ⟨pulseMissed, 95, pulseOpen, by decide, forall_half (by decide) (by decide)⟩,
    ⟨served .run, 3, forall_half (by decide) (by decide)⟩,
    ⟨0, 0, 0, by decide⟩,
    ⟨innerNow, 3, .east, 95, by decide +kernel⟩,
    ⟨innerNow, 3, .east, 95, by decide +kernel⟩⟩
theorem witness_ShortPulseRule :
    (∃ i : InnerIn, ∃ c : CtxId, ∃ base : Nat, ∃ x : Half, ∃ p : PhaseId, i.offtime = false ∧ asks i c base x p < least i base x p ∧
        2 * asks i c base x p < least i base x p) ∧
    (∃ i : InnerIn, ∃ c : CtxId, ∃ base : Nat, ∃ x : Half, ∃ p : PhaseId, i.offtime = false ∧ least i base x p ≤ asks i c base x p) ∧
    (∃ i : InnerIn, ∃ c : CtxId, ∃ base : Nat, ∃ x : Half, ∃ p : PhaseId, i.offtime = false ∧ asks i c base x p < least i base x p ∧
        least i base x p ≤ 2 * asks i c base x p) :=
  ⟨⟨innerIn, 3, 0, requesting 32 (-50) 80, 95, by decide⟩,
    ⟨innerIn, 0, 0, requesting 100 0 80, 95, by decide⟩,
    ⟨innerIn, 0, 0, requesting 50 0 80, 95, by decide⟩⟩
theorem witness_OuterStepsAndScrubs :
    (∃ s : State, ∃ c : CtxId, s.converting = true ∧ s.ctx[c].lastDone.isSome = true ∧ s.ctx[c].scrubbed ≠ s.ctx[c].lastDone) ∧
    (∃ s : State, ∃ c : CtxId, s.converting = false ∨ s.ctx[c].lastDone.isNone = true ∨ s.ctx[c].scrubbed = s.ctx[c].lastDone) ∧
    (∃ s : State, ∃ c : CtxId, (s.converting = true ∧ s.clk.fast % 16 = 0 ∧ s.atBoundary c = true ∧ s.ctx[c].lastDone ≠ some s.enables ∧ c ≠ 0 ∧
        s.resp c 0 = 0 ∧ s.resp c 1 = 0 ∧ s.resp c 2 = 0) ∧ (∀ (h : HalfId) (p : PhaseId), ((s.half h).ph[p].bind = c → s.ownerOf p = c ∧
        (s.half h).ph[p].state ≠ PhState.unbound ∧ (s.half h).ph[p].leaving = false) ∧
        (s.ownerOf p = c → s.follower p = false → (s.half h).ph[p].bind = c))) ∧
    (∃ s : State, ∃ c : CtxId, s.stepsOn c = true ∧ s.resp c 0 = 0 ∧ s.resp c 1 = 0 ∧ s.resp c 2 = 0 ∧ s.ctx[c].inE modePass = false ∧
        s.ctx[c].inE modeCurrent = false ∧ s.ctx[c].outerCount % 16 = 0 ∧ s.ctx[c].prot.ovDeclared = false ∧
        (s.cp c .ovTime).toNat ≤ s.ctx[c].prot.ovTimer) ∧
    (∃ n : Nat, ∃ a : Nat, ∃ floor : Nat, 1 ≤ n ∧ n ≤ a ∧ floor ≤ a) ∧
    (∃ add : Nat → Int, ∃ shed : Nat → Int, ∃ icmd : Int, ∃ n : Nat, ∃ a : Nat, 1 ≤ n ∧ n ≤ a ∧ overAdd add n icmd = false ∧
        (decide (1 < n) && underShed shed (n - 1) icmd) = false) ∧
    (∃ add : Nat → Int, ∃ shed : Nat → Int, ∃ icmd : Int, ∃ n : Nat, ∃ a : Nat, ∃ dwell : Nat, ∃ floor : Nat, ∃ frozen : Bool, (1 ≤ n ∧ n ≤ a ∧
        overAdd add n icmd = true) ∧ ∃ m : Nat, n < m ∧ m < (shedRule add shed icmd n a dwell floor frozen).n) ∧
    (∃ add : Nat → Int, ∃ shed : Nat → Int, ∃ icmd : Int, ∃ n : Nat, ∃ a : Nat, ∃ dwell : Nat, ∃ floor : Nat, ∃ frozen : Bool, 1 ≤ n ∧ n ≤ a ∧
        overAdd add n icmd = false ∧ (decide (1 < n) && underShed shed (n - 1) icmd) = true ∧ frozen = false ∧ floor ≤ n - 1 ∧ dwell + 1 < 1024) ∧
    (∃ add : Nat → Int, ∃ shed : Nat → Int, ∃ icmd : Int, ∃ n : Nat, ∃ a : Nat, ∃ floor : Nat, ∃ frozen : Bool, 1 ≤ n ∧ n ≤ a ∧
        overAdd add n icmd = false ∧ (decide (1 < n) && underShed shed (n - 1) icmd) = true ∧ frozen = false ∧ n - 1 < floor) ∧
    (∃ add : Nat → Int, ∃ shed : Nat → Int, ∃ icmd : Int, ∃ n : Nat, ∃ a : Nat, ∃ dwell : Nat, ∃ floor : Nat, ∃ frozen : Bool, 1 ≤ n ∧ n ≤ a ∧
        overAdd add n icmd = true ∧ floor ≤ (shedRule add shed icmd n a dwell floor frozen).n ∧
        (shedRule add shed icmd n a dwell floor frozen).n < a) :=
  ⟨⟨setCtx 3 .faultResp0 0 (badTag.modCtx 3 (fun x => { x with lastDone := some 99999 })), 3, by decide⟩,
    ⟨setCtx 3 .faultResp0 0 (served .run), 0, by decide⟩,
    ⟨setCtx 3 .faultResp0 0 (served .run), 3, by decide, forall_half (by decide) (by decide)⟩,
    ⟨stepsNow, 3, by decide +kernel⟩,
    ⟨1, 1, 0, by decide⟩,
    ⟨fun _ => 0, fun _ => 0, 0, 1, 1, by decide⟩,
    ⟨fun _ => 0, fun _ => 0, 1000, 1, 3, 0, 0, false, by decide, 2, by decide⟩,
    ⟨fun _ => 0, fun _ => 0, -5000, 2, 2, 0, 0, false, by decide⟩,
    ⟨fun _ => 0, fun _ => 0, -5000, 2, 2, 2, false, by decide⟩,
    ⟨fun n => 500 * n, fun _ => 0, 1000, 1, 3, 0, 0, false, by decide⟩⟩
theorem witness_BiquadIdentity :
    (∃ h : HalfId, ∃ c : CtxId, ∃ v : Vector Tagged 15, v = (State.reset.half h).cell[c].bankA ∨ v = (State.reset.half h).cell[c].bankB) ∧
    (∃ c : Cell, c.pid.ok = true ∧ v24Lo ≤ c.pid.v ∧ c.pid.v ≤ v24Hi ∧ c.remBq1 = tag 0 ∧ c.bq1s1 = tag 0 ∧ c.bq1s2 = tag 0 ∧
        c.bank[5] = tag 16777216 ∧ c.bank[6] = tag 0 ∧ c.bank[7] = tag 0 ∧ c.bank[8] = tag 0 ∧ c.bank[9] = tag 0) ∧
    (∃ c : Cell, c.bq1.ok = true ∧ v24Lo ≤ c.bq1.v ∧ c.bq1.v ≤ v24Hi ∧ c.remBq2 = tag 0 ∧ c.bq2s1 = tag 0 ∧ c.bq2s2 = tag 0 ∧
        c.bank[10] = tag 16777216 ∧ c.bank[11] = tag 0 ∧ c.bank[12] = tag 0 ∧ c.bank[13] = tag 0 ∧ c.bank[14] = tag 0) :=
  ⟨⟨.east, 0, bankReset, by decide⟩,
    ⟨identityCell, by decide⟩,
    ⟨identityCell, by decide⟩⟩
theorem witness_SensorWordsAndZeros :
    (∃ s : State, ∃ c : CtxId, s.converting = true ∧ railInstant s.clk.fast = true ∧ s.ctx[c].sense.lastWord ≠ some s.clk.fast) ∧
    (∃ s : State, ∃ c : CtxId, s.converting = true ∧ s.clk.fast % 400 = 168 ∧ s.ctx[c].chan.lastWord ≠ some s.clk.fast) ∧
    (∃ s : State, ∃ c : CtxId, s.converting = false ∨ railInstant s.clk.fast = false ∨ s.ctx[c].sense.lastWord = some s.clk.fast) ∧
    (∃ s : State, ∃ c : CtxId, s.converting = false ∨ s.clk.fast % 400 ≠ 168 ∨ s.ctx[c].chan.lastWord = some s.clk.fast) ∧
    (∃ s : State, ∃ p : PhaseId, s.ph[p].azRun = some 64 ∧ 64 ≤ s.tag32 % 250000 ∧ (s.hph p).azSum.v.natAbs ≤ 43 * 64 * 16384) ∧
    (∃ s : State, ∃ p : PhaseId, s.ph[p].azRun = some 64 ∧ 64 ≤ s.tag32 % 250000 ∧ 43 * 64 * 16384 < (s.hph p).azSum.v.natAbs) ∧
    (∃ s : State, ∃ p : PhaseId, s.ph[p].azRun ≠ some 64 ∨ s.tag32 % 250000 < 64) ∧
    (∃ s : State, ∃ c : CtxId, ∃ v : Int, s.ctx[c].chan.zeroRun = some (64, v) ∧ v ≤ 64 * 64 * 2048) ∧
    (∃ s : State, ∃ c : CtxId, ∃ v : Int, s.ctx[c].chan.zeroRun = some (64, v) ∧ 64 * 64 * 2048 < v) ∧
    (∃ s : State, ∃ c : CtxId, ∀ v : Int, s.ctx[c].chan.zeroRun ≠ some (64, v)) :=
  ⟨⟨withFast 1600024 openNext, 0, by decide⟩,
    ⟨withFast 1600168 (seatedOff .boot), 0, by decide⟩,
    ⟨withFast 1600008 (served .run), 0, by decide⟩,
    ⟨withFast 1600008 (served .run), 0, by decide⟩,
    ⟨zeroing true (43*64*16384), 3, by decide⟩,
    ⟨zeroing true (43*64*16384+1), 3, by decide⟩,
    ⟨withFast 1600008 (served .run), 3, by decide⟩,
    ⟨(served .run).modChan 3 (fun x => { x with zeroRun := some (64, 64 * 64 * 2048) }), 3, 64 * 64 * 2048, by decide⟩,
    ⟨(served .run).modChan 3 (fun x => { x with zeroRun := some (64, 64 * 64 * 2048 + 1) }), 3, 64 * 64 * 2048+1, by decide⟩,
    ⟨withFast 1600008 (served .run), 0, nofun⟩⟩
theorem witness_BindingChecks :
    (∃ s : State, ∃ h : HalfId, ∀ (p : PhaseId), (s.sum.half h).bindA[p].snd ≠ Ecc.double ∧ (s.sum.half h).bindB[p].snd ≠ Ecc.double ∧
        (s.sum.half h).bindA[p].fst = (s.sum.half h).bindB[p].fst) ∧
    (∃ s : State, ∃ h : HalfId, ∃ p : PhaseId, (s.sum.half h).bindA[p].snd = Ecc.double ∧ (s.sum.half h).bindB[p].snd = Ecc.double) ∧
    (∃ s : State, ∃ h : HalfId, ∃ p : PhaseId, (s.sum.half h).bindA[p].snd = Ecc.double ∧ (s.sum.half h).bindB[p].snd ≠ Ecc.double) ∧
    (∃ s : State, (s.clk.synced = true ∧ s.tag32 % 25000 = 0) ∧ (∀ (h : HalfId) (p : PhaseId), (s.half h).ph[p].pulse = none ∧
        s.ph[p].moving = false ∧ s.misbound h p = false)) ∧
    (∃ s : State, ∃ p : PhaseId, (s.clk.synced = true ∧ s.tag32 % 25000 = 0) ∧ (∀ (h : HalfId) (q : PhaseId), (s.half h).ph[q].pulse = none ∧
        s.ph[q].moving = false ∧ s.misbound h q = decide (q = p)) ∧ s.east.ph[p].bind = s.west.ph[p].bind) ∧
    (∃ s : State, ∃ h : HalfId, ∃ p : PhaseId, s.clk.synced = true ∧ s.tag32 % 25000 = 0 ∧ ∀ (g : HalfId) (q : PhaseId),
        (s.half g).ph[q].pulse = none ∧ s.ph[q].moving = false ∧ s.misbound g q = decide (g = h ∧ q = p)) ∧
    (∃ s : State, s.clk.synced = false ∨ s.tag32 % 25000 ≠ 0) :=
  ⟨⟨served .run, .east, by decide⟩,
    ⟨eccPair 95 .double .double, .west, 95, by decide⟩,
    ⟨eccPair 95 .double .ok, .west, 95, by decide⟩,
    ⟨served .run, by decide, forall_half (by decide) (by decide)⟩,
    ⟨misbound95, 95, by decide, forall_half (by decide) (by decide), by decide⟩,
    ⟨{ misbound95 with west := (setHPh 95 (fun h => { h with bind := 3, state := .parked }) misbound95).west }, .east, 95, by decide, by decide,
        forall_half (by decide +kernel) (by decide +kernel)⟩,
    ⟨withFast 1600016 (served .run), by decide⟩⟩
theorem witness_HalfConditionsAndDisagreements :
    (∃ s : State, ∃ h : HalfId, ∃ beat : Option Byte, s.clk.synced = true ∧ s.clk.fast % 16 = 0 ∧ 0 < s.enables ∧
        (s.enables - 1) % 4294967296 % 25 = 0 ∧ (s.sum.half h).hbTag ≠ some (s.enables - 1) ∧ beat ≠ some (BitVec.ofNat 8 (s.enables - 1)) ∧
        (s.sum.half h).hbMisses < 2) ∧
    (∃ s : State, ∃ h : HalfId, ∃ beat : Option Byte, s.clk.synced = true ∧ s.clk.fast % 16 = 0 ∧ 0 < s.enables ∧
        (s.enables - 1) % 4294967296 % 25 = 0 ∧ (s.sum.half h).hbTag ≠ some (s.enables - 1) ∧ beat = some (BitVec.ofNat 8 (s.enables - 1))) ∧
    (∃ s : State, ∃ h : HalfId, ∃ beat : Option Byte, s.clk.synced = true ∧ s.clk.fast % 16 = 0 ∧ 0 < s.enables ∧
        (s.enables - 1) % 4294967296 % 25 = 0 ∧ (s.sum.half h).hbTag ≠ some (s.enables - 1) ∧ beat ≠ some (BitVec.ofNat 8 (s.enables - 1)) ∧
        2 ≤ (s.sum.half h).hbMisses) ∧
    (∃ s : State, ∃ h : HalfId, s.clk.synced = false ∨ s.clk.fast % 16 ≠ 0 ∨ s.enables = 0 ∨ (s.enables - 1) % 4294967296 % 25 ≠ 0 ∨
        (s.sum.half h).hbTag = some (s.enables - 1)) ∧
    (∃ s : State, ∃ h : HalfId, ∃ n : Nat, s.watchdogDue h n = true) ∧
    (∃ s : State, ∃ h : HalfId, ∃ n : Nat, s.watchdogDue h n = false) ∧
    (∃ s : State, ∃ t : Nat, ∃ h : HalfId, s.sum.disagreeTag = some t ∧ t + 3 ≤ s.enables ∧ s.attributed t = false ∧ s.holder = some h) ∧
    (∃ s : State, ∃ t : Nat, s.sum.disagreeTag = some t ∧ t + 3 ≤ s.enables ∧ s.attributed t = true) ∧
    (∃ s : State, ∃ t : Nat, s.sum.disagreeTag = some t ∧ s.enables < t + 3) :=
  ⟨⟨beating 0 none, .east, none, by decide⟩,
    ⟨beating 0 none, .east, some 0xA0, by decide⟩,
    ⟨beating 2 none, .west, none, by decide⟩,
    ⟨served .run, .east, by decide⟩,
    ⟨served .run, .east, 99936, by decide⟩,
    ⟨served .run, .east, 0, by decide⟩,
    ⟨disagreeing [], 99997, .east, by decide⟩,
    ⟨disagreeing [99999], _, rfl, by decide⟩,
    ⟨withFast 1599984 (disagreeing []), _, rfl, by decide⟩⟩
theorem witness_SummitMoves :
    (∃ s : State, ∃ h : HalfId, s.holder = some h ∧ (s.sum.half h).eligible = false) ∧
    (∃ s : State, ∃ h : HalfId, ∃ n : Nat, s.holder = some h ∧ s.sum.handoverAt = some n ∧ n < s.enables ∧ (s.sum.half h).eligible = true) ∧
    (∃ s : State, s.holder = none ∨ s.sum.handoverAt = none) ∧
    (∃ s : State, ∃ h : HalfId, ∃ n : Nat, s.holder = some h ∧ s.sum.handoverAt = some n ∧ s.enables ≤ n) :=
  ⟨⟨lost true, _, rfl, by decide⟩,
    ⟨released 99999 true, .east, 99999, by decide⟩,
    ⟨served .run, by decide⟩,
    ⟨released 100000 true, .east, 100000, by decide⟩⟩
theorem witness_ReturnOfHalves :
    (∃ s : State, s.dev.st = DevState.safe ∧ s.holder = none ∧ s.clk.ok = true ∧ s.clk.synced = true) ∧
    (∃ s : State, ∃ h : HalfId, s.mayResync h = false) ∧
    (∃ s : State, ∃ h : HalfId, s.mayResync h = true) ∧
    (∃ s : State, ∃ h : HalfId, ∃ n : Nat, (s.sum.half h).resyncTag = some n ∧ n + 57 ≤ s.enables ∧ s.enables ≤ n + 64 ∧ s.holder = some h.other ∧
        (s.sum.half h).resyncCopied = true ∧ (s.sum.half h).resyncBad = false) ∧
    (∃ s : State, ∃ h : HalfId, ∃ n : Nat, (s.sum.half h).resyncTag = some n ∧ (s.enables < n + 57 ∨ n + 64 < s.enables ∨ s.holder ≠ some h.other ∨
        (s.sum.half h).resyncCopied = false ∨ (s.sum.half h).resyncBad = true)) ∧
    (∃ s : State, ∃ h : HalfId, (s.sum.half h).resyncTag = none) ∧
    (∃ s : State, ∃ h : HalfId, ∃ n : Nat, s.clocked = true ∧ (s.sum.half h).resyncTag = some n ∧ s.clk.fast + 1 = 16 * (n + 48) ∧
        s.holder = some h.other) ∧
    (∃ s : State, ∃ h : HalfId, ∃ n : Nat, (s.sum.half h).resyncTag = some n ∧ s.holder = some h.other ∧
        (s.sum.half h).resyncFailed n s.enables = true) ∧
    (∃ s : State, ∃ h : HalfId, ∃ n : Nat, (s.sum.half h).resyncTag = some n ∧ ((s.sum.half h).resyncFailed n s.enables = false ∨
        s.holder ≠ some h.other)) :=
  ⟨⟨vacant, by decide⟩,
    ⟨served .run, .east, by decide⟩,
    ⟨westHolds (lost true), .east, by decide⟩,
    ⟨copying 99943 0 true false, .east, _, rfl, by decide⟩,
    ⟨copying 99944 0 true false, .east, _, rfl, by decide⟩,
    ⟨served .run, .east, by decide⟩,
    ⟨withFast (16 * (99943 + 48) - 1) (copying 99943 0 false false), .east, 99943, by decide⟩,
    ⟨copying 99935 0 true false, .east, _, rfl, by decide⟩,
    ⟨copying 99943 0 true false, .east, _, rfl, by decide⟩⟩
theorem witness_CalibrationStarts :
    (∃ s : State, s.carries Iface.m1 = true ∧ ∃ c : CtxId, s.calBusy = false ∧ s.calCond (CalTarget.railP1 c) = true) ∧
    (∃ s : State, s.carries Iface.m1 = true ∧ ∃ c : CtxId, s.calBusy = false ∧ s.calCond (CalTarget.railP2 c) = true) ∧
    (∃ s : State, s.carries Iface.m1 = true ∧ ∃ c : CtxId, s.calBusy = false ∧ s.calCond (CalTarget.shuntGain c) = false) ∧
    (∃ s : State, s.carries Iface.m1 = true ∧ ∃ c : CtxId, s.calBusy = false ∧ s.calCond (CalTarget.railP1 c) = false) ∧
    (∃ s : State, s.carries Iface.m1 = true ∧ ∃ c : CtxId, s.calBusy = false ∧ s.calCond (CalTarget.railP2 c) = false) ∧
    (∃ s : State, s.carries Iface.m1 = true ∧ ∃ p : PhaseId, s.calBusy = false ∧ s.calCond (CalTarget.phaseGain p) = false) ∧
    (∃ s : State, s.carries Iface.m1 = true ∧ ∃ c : CtxId, s.calBusy = false ∧ s.calCond (CalTarget.shuntGain c) = true) ∧
    (∃ s : State, s.carries Iface.m1 = true ∧ s.calBusy = true) ∧
    (∃ s : State, s.carries Iface.m1 = true ∧ s.calBusy = true) ∧
    (∃ s : State, s.carries Iface.m1 = true ∧ ∃ p : PhaseId, s.calBusy = false ∧ s.calCond (CalTarget.phaseGain p) = true) ∧
    (∃ s : State, ∃ i : Iface, i ≠ Iface.m1 ∧ s.carries i = true) ∧
    (∃ s : State, ∃ n : Nat, ∃ t : CalTarget, s.commits = [{ tag := n, act := Act.calStart }] ∧ n ≤ s.enables ∧ s.cal.waiting = some t) :=
  ⟨⟨served .run, by decide, 0, by decide⟩,
    ⟨served .run, by decide, 0, by decide⟩,
    ⟨served .run, by decide, 0, by decide⟩,
    ⟨served .run, by decide, 3, by decide⟩,
    ⟨served .run, by decide, 3, by decide⟩,
    ⟨served .run, by decide, 5, by decide⟩,
    ⟨seatedOn 3, by decide, 3, by decide⟩,
    ⟨calibrating (.railP1 3) 0, by decide, by decide⟩,
    ⟨calibrating (.railP1 3) 0, by decide, by decide⟩,
    ⟨calOne, by decide, 5, by decide⟩,
    ⟨served .run, .m0, by decide⟩,
    ⟨due .calStart { calibrating (.railP1 3) 0 with cal := { waiting := some (.shuntGain 3) } }, 0, .shuntGain 3, by decide⟩⟩
theorem witness_CalibrationEnds :
    (∃ s : State, ∃ x : CalTarget, s.cal.running = some x ∧ x.words ≤ s.cal.count ∧ ∃ c : CtxId, ∃ v : Int, ∃ k : Int,
        s.calCompute x = CalOut.held c v k) ∧
    (∃ s : State, ∃ x : CalTarget, s.cal.running = some x ∧ x.words ≤ s.cal.count ∧ ∃ typ : Nat, ∃ k : Nat, ∃ g : Int, ∃ o : Int, ∃ prov : Bool,
        ∃ f : Option Nat, ∃ b : List Byte, s.calCompute x = CalOut.record typ k g o prov f b) ∧
    (∃ s : State, ∃ x : CalTarget, s.cal.running = some x ∧ x.words ≤ s.cal.count ∧ ∃ k : Nat, s.calCompute x = CalOut.ends k) ∧
    (∃ s : State, ∃ x : CalTarget, s.cal.running = some x ∧ x.words ≤ s.cal.count ∧ s.calFault x = true) ∧
    (∃ s : State, s.cal.running = none ∨ ∃ x, s.cal.running = some x ∧ s.cal.count < x.words) ∧
    (∃ s : State, ∃ x : CalTarget, ∃ k : Nat, ∃ b : List Byte, ∃ g : Int, ∃ o : Int, ∃ prov : Bool, s.nv.work = Work.cal ∧ s.cal.writing = some (x,
        k, b, g, o, prov) ∧ s.pmb.jobs = []) ∧
    (∃ s : State, s.nv.work ≠ Work.cal ∨ s.cal.writing = none) :=
  ⟨⟨calibrating (.railP1 3) 2048, _, rfl, by decide, 3, 65536, 14336, by decide⟩,
    ⟨shuntDone, _, rfl, by decide, _, _, _, _, _, _, _, rfl⟩,
    ⟨(calibrating (.railP2 3) 2048).modCtx 3 (fun x => { x with sense := { x.sense with openRun := 16 } }), _, rfl, by decide, 9, by decide⟩,
    ⟨(calibrating (.railP2 3) 2048).modCtx 3 (fun x => { x with sense := { x.sense with openRun := 16 } }), _, rfl, by decide⟩,
    ⟨served .run, by decide⟩,
    ⟨calW (.railP2 3) false, .railP2 3, 3, [1, 2, 3], 16777216, 5, false, rfl, rfl, rfl⟩,
    ⟨served .run, by decide⟩⟩
theorem witness_FieldTimeReads :
    (∃ i : Iface, ∃ s : State, s.carries i = true) ∧
    (∃ s : State, s.dev.st = DevState.cold) ∧
    (∃ ns : Nat, ∃ s : State, 800 ≤ ns ∧ (s.dev.st = DevState.boot ∨ s.dev.st = DevState.standby ∨ s.dev.st = DevState.run ∨
        s.dev.st = DevState.safe) ∧ s.mayMove Trig.reset = true) ∧
    (∃ s : State, s.dev.st = DevState.holdup ∧ s.gaspOver = true ∧ s.dev.vinOn = true) :=
  ⟨⟨.m0, { served .run with ft := { ft := 2 ^ 87 + 5, latchM1 := some 9 } }, by decide⟩,
    ⟨{ inState .cold with ft := { latchM1 := some 9 } }, by decide⟩,
    ⟨800, { served .run with ft := { ft := 2 ^ 87 + 5, latchM1 := some 9 } }, by decide⟩,
    ⟨{ gasped with ft := { latchM1 := some 9, latchM0 := some 9, latchPmb := some 9 } }, by decide⟩⟩
theorem witness_TsyncAndHoldover :
    (∃ f : Bool, ∃ s : State, s.ftSrc = 0 ∨ f ≠ s.ftFalling ∨ s.clocked = false) ∧
    (∃ f : Bool, ∃ s : State, s.ftSrc ≠ 0 ∧ f = s.ftFalling ∧ s.clocked = true ∧ s.edgeAccepted = false) ∧
    (∃ f : Bool, ∃ s : State, s.ftSrc ≠ 0 ∧ f = s.ftFalling ∧ s.clocked = true ∧ s.edgeAccepted = true ∧ s.ft.armBit = true) ∧
    (∃ f : Bool, ∃ s : State, s.ftSrc ≠ 0 ∧ f = s.ftFalling ∧ s.clocked = true ∧ s.edgeAccepted = true ∧ s.ft.armBit = false ∧
        s.ft.openSrc = false ∧ s.ft.openArm = false ∧ 100 * 2 ^ 40 < (phaseError s.ft.ft (pulseUs s.ftSrc)).natAbs) ∧
    (∃ f : Bool, ∃ s : State, s.ftSrc ≠ 0 ∧ f = s.ftFalling ∧ s.clocked = true ∧ s.edgeAccepted = true ∧ s.ft.armBit = false ∧
        (s.ft.openSrc = true ∨ s.ft.openArm = true)) ∧
    (∃ f : Bool, ∃ s : State, s.ftSrc ≠ 0 ∧ f = s.ftFalling ∧ s.clocked = true ∧ s.edgeAccepted = true ∧ s.ft.armBit = false ∧
        s.ft.openSrc = false ∧ s.ft.openArm = false ∧ (phaseError s.ft.ft (pulseUs s.ftSrc)).natAbs ≤ 100 * 2 ^ 40) ∧
    (∃ s : State, s.ftSrc ≠ 0 ∧ s.ft.holdover = false ∧ s.ft.lastAt + 1200 * pulseUs s.ftSrc ≤ s.clk.time) ∧
    (∃ s : State, s.ftSrc = 0 ∨ s.ft.holdover = true ∨ s.clk.time < s.ft.lastAt + 1200 * pulseUs s.ftSrc) :=
  ⟨⟨false, served .run, by decide⟩,
    ⟨false, disciplined (fun x => { x with ft := 500000 * 2 ^ 40 }), by decide⟩,
    ⟨false, setGlob .ftLoadLo 7000000 (disciplined (fun x => { x with ft := 1000101 * 2 ^ 40, armBit := true, openArm := true, armLoad := 77 })),
        by decide⟩,
    ⟨false, disciplined (fun x => { x with ft := 1000101 * 2 ^ 40 }), by decide⟩,
    ⟨false, disciplined (fun x => { x with ft := 1000000 * 2 ^ 40, openSrc := true }), by decide⟩,
    ⟨false, edgesAt false 0, by decide⟩,
    ⟨disciplined (fun x => { x with ft := 500000 * 2 ^ 40 }), by decide⟩,
    ⟨disciplined (fun x => { x with lastAt := 6800000001 }), by decide⟩⟩
theorem witness_ScheduleInstants :
    (∃ s : State, ∃ c : CtxId, ∀ (e : Event), e ∈ s.ctx[c].sched.events → e.due s.ft.ft = false) ∧
    (∃ s : State, ∃ c : CtxId, ∃ e : Event, earliest (List.filter (fun e => e.due s.ft.ft) s.ctx[c].sched.events) = some e) ∧
    (∃ s : State, ∃ c : CtxId, ∃ d : Deferred, s.ctx[c].chan.deferred = some d ∧ d.due ≤ s.clk.time ∧ s.deferredFirst c d = true) ∧
    (∃ s : State, ∃ c : CtxId, ∀ (d : Deferred), s.ctx[c].chan.deferred = some d → s.clk.time < d.due ∨ s.deferredFirst c d = false) ∧
    (∃ s : State, ∃ c : CtxId, ∀ (e : Event), e ∈ s.ctx[c].sched.events → e.timedOut = false) ∧
    (∃ s : State, ∃ c : CtxId, ∃ e : Event, List.find? Event.timedOut s.ctx[c].sched.events = some e) :=
  ⟨⟨served .run, 0, by decide⟩,
    ⟨holding (someEvent .step), 3, _, rfl⟩,
    ⟨deferredOn 8000000000, 3, _, rfl, by decide⟩,
    ⟨served .run, 0, by decide⟩,
    ⟨served .run, 0, by decide⟩,
    ⟨holding { someEvent .on with entered := true, lastHere := true }, 3, _, rfl⟩⟩
theorem witness_SwitchAndFaultWrites :
    (∃ i : Iface, ∃ c : CtxId, ∃ s : State, s.carries i = true ∧ s.hides i c = true) ∧
    (∃ i : Iface, ∃ c : CtxId, ∃ s : State, s.carries i = true ∧ s.hides i c = false ∧ s.stateAllowsOn c = true) ∧
    (∃ i : Iface, ∃ c : CtxId, ∃ s : State, s.carries i = true ∧ s.hides i c = false ∧ (s.ctx[c].chan.on = true → s.stateAllowsOn c = true)) ∧
    (∃ s : State, ∃ n : Nat, ∃ c : CtxId, n ≤ s.enables ∧ s.commits = [{ tag := n, act := Act.swCtl c true false }]) ∧
    (∃ i : Iface, ∃ c : CtxId, ∃ s : State, s.carries i = true ∧ s.hides i c = false ∧ s.ctx[c].chan.on = true ∧ s.stateAllowsOn c = false) ∧
    (∃ s : State, ∃ n : Nat, ∃ c : CtxId, n ≤ s.enables ∧ s.commits = [{ tag := n, act := Act.swCtl c false false }]) ∧
    (∃ s : State, ∃ n : Nat, ∃ c : CtxId, n ≤ s.enables ∧ s.commits = [{ tag := n, act := Act.faultCtl c true false }]) ∧
    (∃ s : State, ∃ n : Nat, ∃ c : CtxId, n ≤ s.enables ∧ s.commits = [{ tag := n, act := Act.faultCtl c false true }]) :=
  ⟨⟨.m0, 0, viewing (served .run), by decide⟩,
    ⟨.m0, 0, switchingOn (channelIn ChState.unseated (served .run)), by decide⟩,
    ⟨.m0, 0, switchingOn (channelIn ChState.unseated (served .run)), by decide⟩,
    ⟨switchingOn (channelIn ChState.unseated (served .run)), 0, 3, by decide⟩,
    ⟨.m0, 3, (seatedOn 3) |> fun s => { s with dev := (served .standby).dev }, by decide⟩,
    ⟨due (.swCtl 3 false false) (seatedOn 3), 0, 3, by decide⟩,
    ⟨due (.faultCtl 3 true false) (retrying 8000000001), 0, 3, by decide⟩,
    ⟨due (.faultCtl 3 false true) (retrying 8000000001), 0, 3, by decide⟩⟩
theorem witness_SeatingAndGateEnds :
    (∃ s : State, ∃ c : CtxId, s.ctx[c].chan.seated = true ∨ s.ctx[c].chan.seatLowSince = none ∨ ∃ n, n ∈ s.ctx[c].chan.seatLowSince ∧
        ¬n + (s.cp c CP.seatDebounce).toNat * 400000 ≤ s.clk.time) ∧
    (∃ s : State, ∃ c : CtxId, ∃ n : Nat, s.ctx[c].chan.seated = false ∧ s.ctx[c].chan.seatLowSince = some n ∧
        n + (s.cp c CP.seatDebounce).toNat * 400000 ≤ s.clk.time) ∧
    (∃ s : State, ∃ c : CtxId, s.ctx[c].chan.seated = true ∧ (s.ctx[c].chan.st = ChState.off ∨ s.ctx[c].chan.st = ChState.stopping)) ∧
    (∃ s : State, ∃ c : CtxId, s.ctx[c].chan.vgs = 0 ∨ s.clk.time < s.ctx[c].chan.pullStart + 8000 ∨ s.ctx[c].chan.st ≠ ChState.stopping ∧
        (s.ctx[c].chan.st = ChState.fault → s.ctx[c].chan.cause = ChCause.gateStuck)) ∧
    (∃ s : State, ∃ c : CtxId, s.ctx[c].chan.vgs ≠ 0 ∧ s.ctx[c].chan.pullStart + 8000 ≤ s.clk.time ∧ (s.ctx[c].chan.st = ChState.stopping ∨
        s.ctx[c].chan.st = ChState.fault ∧ s.ctx[c].chan.cause ≠ ChCause.gateStuck)) ∧
    (∃ s : State, ∃ c : CtxId, s.ctx[c].chan.st ≠ ChState.stopping ∧ s.ctx[c].chan.st ≠ ChState.fault) ∧
    (∃ s : State, ∃ c : CtxId, s.ctx[c].chan.st = ChState.stopping ∧ s.ctx[c].chan.heldOn = false) ∧
    (∃ s : State, ∃ c : CtxId, s.ctx[c].chan.st = ChState.fault ∧ s.ctx[c].chan.retryOn = false) ∧
    (∃ s : State, ∃ c : CtxId, s.ctx[c].chan.st = ChState.stopping ∧ s.ctx[c].chan.heldOn = true) :=
  ⟨⟨chan id, 0, by decide⟩,
    ⟨chan (fun x => { x with st := .seating, seatLowSince := some 0 }), 3, 0, by decide⟩,
    ⟨chan (fun x => { x with st := .off, seated := true }), 3, by decide⟩,
    ⟨chan id, 0, by decide⟩,
    ⟨chan (fun x => { x with st := .stopping, vgs := 1, pullStart := 7999992000 }), 3, by decide⟩,
    ⟨chan id, 0, by decide⟩,
    ⟨chan (fun x => { x with st := .stopping, seatLowSince := some 0 }), 3, by decide⟩,
    ⟨chan (fun x => { x with st := .fault, cause := .fastTrip, vgs := 1, pullStart := 7999992000 }), 3, by decide⟩,
    ⟨chan (fun x => { x with st := .stopping, heldOn := true, vgs := 1 }), 3, by decide⟩⟩
theorem witness_ChannelFaults :
    (∃ s : State, ∃ c : CtxId, ∃ v : Int, tripLevel (s.cp c CP.trip) v = false) ∧
    (∃ s : State, ∃ c : CtxId, ∃ v : Int, tripLevel (s.cp c CP.trip) v = true ∧ s.ctx[c].chan.tripped = false ∧ s.ctx[c].chan.tripCounted = false) ∧
    (∃ s : State, ∃ c : CtxId, s.ctx[c].chan.seated = true ∧ (s.ctx[c].chan.st = ChState.on ∨ s.ctx[c].chan.st = ChState.starting)) ∧
    (∃ s : State, ∃ c : CtxId, s.ctx[c].chan.st = ChState.on ∧ (s.cp c CP.insTime).toNat ≤ s.ctx[c].chan.foldTimer) ∧
    (∃ s : State, ∃ c : CtxId, s.ctx[c].chan.st = ChState.starting ∧ s.ctx[c].chan.proven = false ∧
        s.ctx[c].chan.gateStart + ((s.cp c CP.gateTimeout).toNat + 1) * 400 ≤ s.clk.time) ∧
    (∃ s : State, ∃ c : CtxId, s.ctx[c].chan.st = ChState.starting ∧ (s.cp c CP.insTime).toNat ≤ s.ctx[c].chan.insTimer) ∧
    (∃ s : State, ∃ c : CtxId, s.ctx[c].chan.st = ChState.fault ∧ s.ctx[c].chan.faultAt = some s.clk.time ∧ (s.ctx[c].chan.faultFrom = ChState.on ∨
        s.ctx[c].chan.faultFrom = ChState.starting) ∧ s.ctx[c].chan.seated = true) ∧
    (∃ s : State, ∃ c : CtxId, (s.ctx[c].chan.st = ChState.fault ∧ s.ctx[c].chan.faultAt = some s.clk.time ∧ (s.ctx[c].chan.faultFrom = ChState.on ∨
        s.ctx[c].chan.faultFrom = ChState.starting)) ∧ ∃ v : Int, tripLevel (s.cp c CP.trip) v = true ∧ s.ctx[c].chan.tripped = false) ∧
    (∃ s : State, ∃ c : CtxId, s.ctx[c].chan.st = ChState.fault ∧ s.ctx[c].chan.faultAt = some s.clk.time ∧ s.ctx[c].chan.faultFrom = ChState.on ∧
        (s.cp c CP.insTime).toNat ≤ s.ctx[c].chan.foldTimer) ∧
    (∃ s : State, ∃ c : CtxId, s.ctx[c].chan.st = ChState.fault ∧ s.ctx[c].chan.faultAt = some s.clk.time ∧
        s.ctx[c].chan.faultFrom = ChState.starting ∧ s.ctx[c].chan.proven = false ∧
        s.ctx[c].chan.gateStart + ((s.cp c CP.gateTimeout).toNat + 1) * 400 ≤ s.clk.time) ∧
    (∃ s : State, ∃ c : CtxId, s.ctx[c].chan.st = ChState.fault ∧ s.ctx[c].chan.faultAt = some s.clk.time ∧
        s.ctx[c].chan.faultFrom = ChState.starting ∧ (s.cp c CP.insTime).toNat ≤ s.ctx[c].chan.insTimer) ∧
    (∃ s : State, ∃ c : CtxId, s.ctx[c].chan.stateOf s.clk.time ≠ ChState.starting ∨ s.ctx[c].chan.proven = true ∨
        s.clk.time < s.ctx[c].chan.gateStart + ((s.cp c CP.gateTimeout).toNat + 1) * 400) ∧
    (∃ s : State, ∃ c : CtxId, s.ctx[c].chan.stateOf s.clk.time ≠ ChState.starting ∨ s.ctx[c].chan.insTimer < (s.cp c CP.insTime).toNat) ∧
    (∃ s : State, ∃ c : CtxId, s.ctx[c].chan.stateOf s.clk.time ≠ ChState.on ∨ s.ctx[c].chan.foldTimer < (s.cp c CP.insTime).toNat) :=
  ⟨⟨chan (fun x => { x with st := .on, seated := true, tripped := false, insTimer := 10000000, foldTimer := 10000000 }), 0, 0, by decide⟩,
    ⟨chan (fun x => { x with st := .on, seated := true, tripped := false, insTimer := 10000000, foldTimer := 10000000 }), 3, 16777216, by decide⟩,
    ⟨chan (fun x => { x with st := .on, seated := true, tripped := false, insTimer := 10000000, foldTimer := 10000000 }), 3, by decide⟩,
    ⟨chan (fun x => { x with st := .on, seated := true, tripped := false, insTimer := 10000000, foldTimer := 10000000 }), 3, by decide⟩,
    ⟨chan (fun x => { x with st := .starting, seated := true, tripped := false, insTimer := 10000000, foldTimer := 10000000 }), 3, by decide⟩,
    ⟨chan (fun x => { x with st := .starting, seated := true, tripped := false, insTimer := 10000000, foldTimer := 10000000 }), 3, by decide⟩,
    ⟨chan (fun x => { x with st := .fault, seated := true, cause := .fastTrip, faultAt := some 8000000000, faultFrom := .on }), 3, by decide⟩,
    ⟨chan (fun x => { x.causeFlag ChCause.seatLost with st := .fault, seated := true, cause := ChCause.seatLost, faultAt := some 8000000000, faultFrom := ChState.on, faultLim := true, toDeclare := some ChCause.seatLost, tripped := false, insTimer := 10000000, foldTimer := 10000000 }), 3, by decide, 16777216, by decide⟩,
    ⟨chan (fun x => { x.causeFlag ChCause.seatLost with st := .fault, seated := true, cause := ChCause.seatLost, faultAt := some 8000000000, faultFrom := ChState.on, faultLim := true, toDeclare := some ChCause.seatLost, tripped := false, insTimer := 10000000, foldTimer := 10000000 }), 3, by decide⟩,
    ⟨chan (fun x => { x.causeFlag ChCause.seatLost with st := .fault, seated := true, cause := ChCause.seatLost, faultAt := some 8000000000, faultFrom := .starting, faultLim := true, toDeclare := some ChCause.seatLost, tripped := false, insTimer := 10000000, foldTimer := 10000000 }), 3, by decide⟩,
    ⟨chan (fun x => { x.causeFlag ChCause.seatLost with st := .fault, seated := true, cause := ChCause.seatLost, faultAt := some 8000000000, faultFrom := .starting, faultLim := true, toDeclare := some ChCause.seatLost, tripped := false, insTimer := 10000000, foldTimer := 10000000 }), 3, by decide⟩,
    ⟨chan (fun x => { x with st := .on, seated := true, tripped := false, insTimer := 10000000, foldTimer := 10000000 }), 0, by decide⟩,
    ⟨chan (fun x => { x with st := .on, seated := true, tripped := false, insTimer := 10000000, foldTimer := 10000000 }), 0, by decide⟩,
    ⟨chan (fun x => { x with st := .on, seated := true, tripped := false, insTimer := 10000000, foldTimer := 10000000 }), 0, by decide⟩⟩
theorem witness_CragAndTripGroups :
    (∃ s : State, ∃ c : CtxId, ∃ n : Nat, s.ctx[c].prot.tripFilter = some n ∧ s.ctx[c].prot.tripAsserted = false ∧ n + s.tripFilt c ≤ s.clk.time) ∧
    (∃ s : State, ∃ c : CtxId, s.ctx[c].prot.tripAsserted = true ∨ s.ctx[c].prot.tripFilter = none ∨ ∃ n, n ∈ s.ctx[c].prot.tripFilter ∧
        s.clk.time < n + s.tripFilt c) ∧
    (∃ s : State, ∃ c : CtxId, s.ctx[c].prot.tripAsserted = true ∧ s.ctx[c].prot.tripFilter = none) ∧
    (∃ s : State, ∃ c : CtxId, s.ctx[c].prot.tripAsserted = false ∨ s.ctx[c].prot.tripFilter.isSome = true) :=
  ⟨⟨setHPh 95 (fun h => { h with bind := 3 }) (tripping 7999999980), 3, _, rfl, by decide⟩,
    ⟨served .run, 0, by decide⟩,
    ⟨(served .run).modCtx 3 (fun x => { x with prot := { x.prot with tripAsserted := true } }), 3, by decide⟩,
    ⟨served .run, 0, by decide⟩⟩
theorem witness_Retries :
    (∃ s : State, ∃ c : CtxId, ∃ n : Nat, s.ctx[c].prot.retryDue = some n ∧ n ≤ s.clk.time ∧ s.ctx[c].chan.retryDue = none) ∧
    (∃ s : State, ∃ c : CtxId, ∃ n : Nat, s.ctx[c].prot.retryDue = none ∧ s.ctx[c].chan.retryDue = some n ∧ n ≤ s.clk.time ∧
        s.ctx[c].chan.st = ChState.fault) ∧
    (∃ s : State, ∃ c : CtxId, (∀ (n : Nat), n ∈ s.ctx[c].prot.retryDue → s.clk.time < n) ∧ (∀ (n : Nat),
        n ∈ s.ctx[c].chan.retryDue → s.clk.time < n)) ∧
    (∃ s : State, ∃ c : CtxId, s.ctx[c].regulating = false ∨ s.clk.time < s.ctx[c].prot.lastRetry + 4000000000) ∧
    (∃ s : State, ∃ c : CtxId, s.ctx[c].regulating = true ∧ s.ctx[c].prot.lastRetry + 4000000000 ≤ s.clk.time) :=
  ⟨⟨retrying 8000000000, 3, _, rfl, by decide⟩,
    ⟨chRetry 0, 3, 8000000000, by decide⟩,
    ⟨served .run, 0, by decide, by decide⟩,
    ⟨served .run, 0, by decide⟩,
    ⟨(chRetry 0).modCtx 3 (fun x => {x with regulating := true}), 3, by decide⟩⟩
theorem witness_ZoneEvaluations :
    (∃ s : State, ∃ z : Fin 19, ∃ l : List TempSample, s.dev.st ≠ DevState.cold ∧ s.dev.st ≠ DevState.boot ∧
        thermDue s.th.evalAt[z] ((List.foldl State.sampleAt s l).zoneFast z) s.clk.time = true) ∧
    (∃ s : State, ∃ z : Fin 19, ∃ l : List TempSample, s.dev.st ≠ DevState.cold ∧ (s.dev.st = DevState.boot ∨
        thermDue s.th.evalAt[z] ((List.foldl State.sampleAt s l).zoneFast z) s.clk.time = false)) ∧
    (∃ s : State, s.dev.st = DevState.cold) ∧
    (∃ s : State, ∃ k : Fin 8, ∃ j : Fin 24, s.dev.st ≠ DevState.cold ∧ j.val = k.val ∧
        thermDue s.th.sampledAt[j] (s.sensorFast j) s.clk.time = true) ∧
    (∃ s : State, ∃ k : Fin 8, ∃ j : Fin 24, s.dev.st ≠ DevState.cold ∧ j.val = k.val ∧
        thermDue s.th.sampledAt[j] (s.sensorFast j) s.clk.time = false) :=
  ⟨⟨zoneNear 0 20000 .throttle, 0, [], by decide⟩,
    ⟨served .boot, 0, [], by decide⟩,
    ⟨inState .cold, by decide⟩,
    ⟨zoneNear 0 20000 .throttle, 0, 0, by decide⟩,
    ⟨sampledNow, 0, 0, by decide⟩⟩
theorem witness_LedgerEntries :
    (∃ s : State, (s.dev.st = DevState.standby ∨ s.dev.st = DevState.run ∨ s.dev.st = DevState.safe) ∧
        s.led.lastTake + bitsOf (s.gp GP.ledgerCfg) 0 16 * 400000000 ≤ s.clk.time) ∧
    (∃ s : State, s.clk.time < s.led.lastTake + bitsOf (s.gp GP.ledgerCfg) 0 16 * 400000000 ∨ s.dev.st = DevState.boot ∨ s.dev.st = DevState.cold ∨
        s.dev.st = DevState.holdup) ∧
    (∃ s : State, ∃ n : Nat, (s.commits = [{ tag := n, act := Act.take }] ∧ n ≤ s.enables) ∧ (∀ (h : HalfId),
        (s.sum.half h).stopped s.enables = false)) ∧
    (∃ s : State, ∃ a : Fin 128, ∃ rest : List (Fin 128), s.nv.work = Work.entry ∧ s.led.queue = a :: rest ∧ Memory.wf 255 s.nv.mem = true) ∧
    (∃ s : State, s.nv.work ≠ Work.entry ∨ s.led.queue = []) :=
  ⟨⟨setGlob .ledgerCfg 20 (served .run), by decide⟩,
    ⟨served .run, by decide⟩,
    ⟨due .take (staging 5 (served .run)), 0, by decide, forall_half (by decide) (by decide)⟩,
    ⟨staging (-5000000) (served .run), 7, [9], by decide⟩,
    ⟨served .run, by decide⟩⟩
theorem witness_LossAccount : ∃ s : State, ∃ r : Req, s.Asks 48 2 r ∧ (s.mb.slot r).arg 1 = 128 ∧ (s.mb.slot r).arg 2 = 1 :=
  ⟨asking .m0 [cmdWord 0x30 2, 128, 1] (staging 777777 (served .run)), m0r, ⟨by decide, by decide, by decide, by decide, by decide, by decide,
      by decide⟩, by decide⟩
theorem witness_StoreRequests :
    (∃ s : State, s.carries Iface.m1 = true ∧ ∃ k : Fin 32, ∃ b : List Byte, s.led.items[k] = some b ∧ leAt b 1 1 = 1 ∧
        s.hostRefusal Area.q1 0 = 0 ∧ leAt b 0 1 = 1) ∧
    (∃ s : State, s.carries Iface.m1 = true ∧ ∃ k : Fin 32, ∀ (b : List Byte), b ∈ s.led.items[k] → leAt b 1 1 ≠ 1) ∧
    (∃ s : State, s.carries Iface.m1 = true ∧ ∃ c : CtxId, s.hostRefusal Area.q1 (if (s.nv.inForce Area.q1 16 ↑c).isNone = true then 1 else 0) = 0) ∧
    (∃ s : State, s.carries Iface.m1 = true ∧ ∃ seq : Word, s.cairn.returned.contains (BitVec.toNat seq) = false) ∧
    (∃ s : State, s.carries Iface.m1 = true ∧ s.cairn.ackNew = s.cairn.newest ∧ s.protects 0 = false ∧ s.nv.erasing = false) ∧
    (∃ s : State, s.carries Iface.m1 = true ∧ ∃ k : Fin 32, ∃ b : List Byte, s.led.items[k] = some b ∧ leAt b 1 1 = 1 ∧
        s.hostRefusal Area.q1 0 = 0 ∧ leAt b 0 1 ≠ 1) ∧
    (∃ s : State, s.carries Iface.m1 = true ∧ ∃ seq : Word, s.cairn.returned.contains (BitVec.toNat seq) = true) ∧
    (∃ s : State, s.carries Iface.m1 = true ∧ s.cairn.ackNew ≠ s.cairn.newest) ∧
    (∃ s : State, s.carries Iface.m1 = true ∧ ∃ c : CtxId, s.hostRefusal Area.q1 (if (s.nv.inForce Area.q1 16 ↑c).isNone = true then 1 else 0) ≠ 0) ∧
    (∃ s : State, ∃ i : Iface, i ≠ Iface.m1 ∧ s.carries i = true) ∧
    (∃ s : State, ∃ n : Nat, n ≤ s.enables ∧ ∃ k : Fin 32, ∃ b : List Byte, ∃ j : Nat, ∃ q : Option Req,
        s.commits = [{ tag := n, act := Act.resolve k true }] ∧ s.led.items[k] = some b ∧ s.nv.hostWrite = some (j, q)) ∧
    (∃ s : State, ∃ n : Nat, n ≤ s.enables ∧ ∃ k : Fin 32, ∃ b : List Byte, ∃ j : Nat, ∃ q : Option Req,
        s.commits = [{ tag := n, act := Act.resolve k false }] ∧ s.led.items[k] = some b ∧ s.nv.hostWrite = some (j, q)) ∧
    (∃ s : State, ∃ n : Nat, n ≤ s.enables ∧ ∃ w : Word, s.commits = [{ tag := n, act := Act.cairnAck w }]) ∧
    (∃ s : State, ∃ n : Nat, n ≤ s.enables ∧ s.commits = [{ tag := n, act := Act.cairnErase }]) :=
  ⟨⟨openItem 1, by decide, 5, _, rfl, by decide⟩,
    ⟨openItem 1, by decide, 9, by decide⟩,
    ⟨openItem 1, by decide, 0, by decide⟩,
    ⟨openItem 1, by decide, 7, by decide⟩,
    ⟨openItem 1, by decide⟩,
    ⟨openItem 0, by decide, 5, _, rfl, by decide⟩,
    ⟨exported, by decide, 7, by decide⟩,
    ⟨{ exported with cairn := { exported.cairn with newest := 7, ackNew := 3 } }, by decide⟩,
    ⟨hot (openItem 1), by decide, 0, by decide⟩,
    ⟨openItem 1, .m0, by decide⟩,
    ⟨due (.resolve 5 true) (hostWriting 0 (openItem 1)), 0, by decide, 5, itemOf 1, 0, none, by decide⟩,
    ⟨due (.resolve 5 false) (hostWriting 1 (openItem 1)), 0, by decide, 5, itemOf 1, 1, none, by decide⟩,
    ⟨due (.cairnAck 7) exported, 0, by decide, 7, by decide⟩,
    ⟨due .cairnErase exported, 0, by decide⟩⟩
theorem witness_StoreMaintenance :
    (∃ s : State, s.nv.work = Work.consolidate ∧ Memory.wf 255 s.nv.mem = true) ∧
    (∃ s : State, s.nv.work ≠ Work.consolidate) ∧
    (∃ s : State, ∃ k : Fin 3, s.nv.work = Work.reclaim k ∧ Memory.wf 255 s.nv.mem = true ∧
        s.nv.nextBlock (Area.ofFin k) ≠ s.nv.at (Area.ofFin k) / 64) ∧
    (∃ s : State, ∃ k : Fin 3, s.nv.work ≠ Work.reclaim k) ∧
    (∃ s : State, s.routineDeferred = false) ∧
    (∃ s : State, s.routineDeferred = true) :=
  ⟨⟨work .consolidate (used 768 (served .run)), by decide⟩,
    ⟨work (.reclaim 0) (used 3 (served .run)), by decide⟩,
    ⟨work (.reclaim 0) (used 3 (served .run)), 0, by decide⟩,
    ⟨work .consolidate (used 768 (served .run)), 0, by decide⟩,
    ⟨work .consolidate (used 768 (served .run)), by decide⟩,
    ⟨hot (served .run), by decide⟩⟩
theorem witness_RecordWrites :
    (∃ s : State, ∃ typ : Nat, ∃ ident : Nat, ∃ n : Nat, ∃ b : List Byte, ∃ rest : List (Nat × Nat × List Byte), ∃ reply : Option Req,
        s.nv.work = Work.host ∧ s.nv.hostQueue = (typ, ident, b) :: rest ∧ s.nv.hostWrite = some (n, reply) ∧ s.pmb.jobs = [] ∧
        Memory.wf 255 s.nv.mem = true) ∧
    (∃ s : State, s.nv.work ≠ Work.host ∨ s.nv.hostQueue = [] ∨ s.nv.hostWrite = none) ∧
    (∃ s : State, ∃ r : CairnReq, ∃ rest : List CairnReq, s.nv.work = Work.cairn ∧ s.cairn.queue = r :: rest ∧ Memory.wf 255 s.nv.mem = true) ∧
    (∃ s : State, s.nv.work ≠ Work.cairn) ∧
    (∃ s : State, s.nv.work = Work.cairn ∧ s.cairn.queue = []) ∧
    (∃ s : State, s.nv.work = Work.erase ∧ Memory.wf 255 s.nv.mem = true) ∧
    (∃ s : State, s.nv.work ≠ Work.erase) ∧
    (∃ s : State, (s.dev.st = DevState.standby ∨ s.dev.st = DevState.run) ∧ (∀ (n : Nat), n ∈ s.cairn.testedAt → n + 4000000000 ≤ s.clk.time)) ∧
    (∃ s : State, s.dev.st ≠ DevState.standby ∧ s.dev.st ≠ DevState.run ∨ ∃ n, n ∈ s.cairn.testedAt ∧ s.clk.time < n + 4000000000) ∧
    (∃ s : State, s.nv.work = Work.own ∧ s.dev.freshSave = true ∧ Memory.wf 255 s.nv.mem = true) ∧
    (∃ s : State, s.nv.work ≠ Work.own ∨ s.dev.freshSave = false) :=
  ⟨⟨hostW [(0x10, 3, markBytes)] 1 (some m1r), 0x10, 3, 1, markBytes, [], some m1r, by decide⟩,
    ⟨served .run, by decide⟩,
    ⟨cairning aSummary, aSummary, [aSummary], by decide⟩,
    ⟨hostW [(0x10, 3, markBytes)] 1 (some m1r), by decide⟩,
    ⟨{ cairning aSummary with cairn := {} }, by decide⟩,
    ⟨work .erase (cairning aSummary), by decide⟩,
    ⟨hostW [(0x10, 3, markBytes)] 1 (some m1r), by decide⟩,
    ⟨hostW [(0x10, 3, markBytes)] 1 (some m1r), by decide, by decide⟩,
    ⟨served .safe, by decide⟩,
    ⟨{ work .own (served .run) with dev := { (served .run).dev with freshSave := true, freshPairs := [(0x1181, 1, 7)] } }, by decide⟩,
    ⟨hostW [(0x10, 3, markBytes)] 1 (some m1r), by decide⟩⟩
theorem witness_FirmwareWrites :
    (∃ s : State, s.carries Iface.m1 = true ∧ s.sum.fwRunning = false ∧ s.fwPending = false ∧ s.shadow.isSome = true ∧ s.shadowVerified = false) ∧
    (∃ s : State, s.carries Iface.m1 = true ∧ s.sum.fwRunning = false ∧ s.fwPending = false ∧ (s.shadow = none ∨ s.shadowVerified = true)) ∧
    (∃ s : State, s.carries Iface.m1 = true ∧ (s.sum.fwRunning = true ∨ s.fwPending = true)) ∧
    (∃ s : State, ∃ i : Iface, i ≠ Iface.m1 ∧ s.carries i = true) ∧
    (∃ s : State, ∃ n : Nat, ∃ op : Fin 16, ∃ b : Bool, s.commits = [{ tag := n, act := Act.fwCtl op b }] ∧ n ≤ s.enables) :=
  ⟨⟨served .run, by decide⟩,
    ⟨{ served .run with sum := { (served .run).sum with verifiedA := true, verifiedB := true } }, by decide⟩,
    ⟨fwAt 1 true, by decide⟩,
    ⟨served .run, .m0, by decide⟩,
    ⟨due (.fwCtl 1 false) (served .run), 0, 1, false, by decide⟩⟩
theorem witness_FirmwareEnds :
    (∃ s : State, s.sum.fwRunning = true ∧ s.sum.fwOp = 1) ∧
    (∃ s : State, s.sum.fwRunning = true ∧ s.sum.fwOp = 2) ∧
    (∃ s : State, s.sum.fwRunning = false ∨ s.sum.fwOp ≠ 1 ∧ s.sum.fwOp ≠ 2) ∧
    (∃ s : State, ∃ h : HalfId, (s.sum.half h).supBoot.isSome = true) ∧
    (∃ s : State, ∃ h : HalfId, (s.sum.half h).supBoot = none) :=
  ⟨⟨fwAt 1 true, by decide⟩,
    ⟨fwAt 2 true, by decide⟩,
    ⟨served .run, by decide⟩,
    ⟨restarting, .west, by decide⟩,
    ⟨fwAt 1 true, .east, by decide⟩⟩
theorem witness_SpiFramesAccepted :
    (∃ f : SpiFrame, ∃ s : State, s.dev.st ≠ DevState.cold ∧ s.dev.st ≠ DevState.holdup ∧ (s.dev.st = DevState.boot → s.dev.drivers = true) ∧
        s.silent = false ∧ s.violation (rowHeader 1 f) f = 0) ∧
    (∃ f : SpiFrame, ∃ s : State, s.dev.st ≠ DevState.cold ∧ s.dev.st ≠ DevState.holdup ∧ (s.dev.st = DevState.boot → s.dev.drivers = true) ∧
        s.silent = false ∧ s.violation (rowHeader 2 f) f = 0) ∧
    (∃ f : SpiFrame, ∃ s : State, s.dev.st ≠ DevState.cold ∧ s.dev.st ≠ DevState.holdup ∧ (s.dev.st = DevState.boot → s.dev.drivers = true) ∧
        s.silent = false ∧ s.violation (rowHeader 3 f) f = 0) ∧
    (∃ f : SpiFrame, ∃ s : State, s.dev.st ≠ DevState.cold ∧ s.dev.st ≠ DevState.holdup ∧ (s.dev.st = DevState.boot → s.dev.drivers = true) ∧
        s.silent = false ∧ s.violation (rowHeader 4 f) f = 0 ∧ hdrMb (rowHeader 4 f) ≠ 3) ∧
    (∃ f : SpiFrame, ∃ s : State, s.dev.st ≠ DevState.cold ∧ s.dev.st ≠ DevState.holdup ∧ (s.dev.st = DevState.boot → s.dev.drivers = true) ∧
        s.silent = false ∧ s.violation (rowHeader 4 f) f = 0 ∧ hdrMb (rowHeader 4 f) = 3) :=
  ⟨⟨frame 1 0 1 2 7 [8, 9], served .run, by decide⟩,
    ⟨frame 2 0 1 1 7 [0, 0], loadedSlot 3 (served .run), by decide⟩,
    ⟨frame 3 0 0 2 7 [0, 0, 0], served .run, by decide⟩,
    ⟨frame 4 0 1 0 7 [], loadedSlot 3 (served .run), by decide⟩,
    ⟨frame 4 3 0 3 0 [], eventWaits, by decide⟩⟩
theorem witness_SpiFramesDiscarded :
    (∃ f : SpiFrame, ∃ h : Word, ∃ s : State, s.dev.st ≠ DevState.cold ∧ s.dev.st ≠ DevState.holdup ∧
        (s.dev.st = DevState.boot → s.dev.drivers = true) ∧ s.silent = false ∧ s.violation h f ≠ 0) ∧
    (∃ s : State, s.dev.st = DevState.boot ∧ s.dev.drivers = false) ∧
    (∃ s : State, s.dev.st = DevState.cold) ∧
    (∃ s : State, s.dev.st = DevState.holdup) ∧
    (∃ s : State, (s.dev.st = DevState.standby ∨ s.dev.st = DevState.run ∨ s.dev.st = DevState.safe) ∧ s.silent = true) :=
  ⟨⟨frame 1 0 1 2 7 [8, 9], 0x10000000, served .run, by decide⟩,
    ⟨undriven .boot, by decide⟩,
    ⟨inState .cold, by decide⟩,
    ⟨inState .holdup, by decide⟩,
    ⟨programming .run, by decide⟩⟩
theorem witness_MailboxReads :
    (∃ s : State, ∃ r : Req, ∃ c : CtxId, s.Asks 32 1 r ∧ (s.mb.slot r).arg 1 = ↑c ∧ s.hides r.box c = false) ∧
    (∃ s : State, ∃ r : Req, s.Asks 32 1 r ∧ 63 < (s.mb.slot r).arg 1) ∧
    (∃ s : State, ∃ r : Req, ∃ c : CtxId, ∃ a : Nat, ∃ n : Nat, s.Asks 33 3 r ∧ ((s.mb.slot r).arg 1 = ↑c ∧ (s.mb.slot r).arg 2 = a ∧
        (s.mb.slot r).arg 3 = n ∧ s.hides r.box c = false ∧ 1 ≤ n ∧ n ≤ 60 ∧ a + n ≤ 2048) ∧ (∀ (k : Nat),
        k < n → (s.capWord c (a + k)).ecc ≠ Ecc.double ∨ (Memory.read { } (s.half s.serving.other).cell[c].capture (a + k)).ecc ≠ Ecc.double)) ∧
    (∃ s : State, ∃ r : Req, ∃ c : CtxId, ∃ a : Nat, ∃ n : Nat, s.Asks 33 3 r ∧ (s.mb.slot r).arg 1 = ↑c ∧ (s.mb.slot r).arg 2 = a ∧
        (s.mb.slot r).arg 3 = n ∧ (n < 1 ∨ 60 < n ∨ 2048 < a + n)) ∧
    (∃ s : State, ∃ r : Req, s.Asks 33 3 r ∧ 63 < (s.mb.slot r).arg 1) ∧
    (∃ s : State, ∃ r : Req, ∃ c : CtxId, ∃ a : Nat, ∃ n : Nat, s.Asks 33 3 r ∧ (s.mb.slot r).arg 1 = ↑c ∧ (s.mb.slot r).arg 2 = a ∧
        (s.mb.slot r).arg 3 = n ∧ s.hides r.box c = false ∧ n = 1 ∧ a ≤ 2047 ∧ (s.capWord c a).ecc = Ecc.double ∧
        (Memory.read { } (s.half s.serving.other).cell[c].capture a).ecc = Ecc.double) ∧
    (∃ s : State, ∃ r : Req, ∃ a : Nat, ∃ n : Nat, s.Asks 48 2 r ∧ (s.mb.slot r).arg 1 = a ∧ (s.mb.slot r).arg 2 = n ∧ 1 ≤ n ∧ n ≤ 30 ∧ a + n ≤ 129) ∧
    (∃ s : State, ∃ r : Req, ∃ a : Nat, ∃ n : Nat, s.Asks 48 2 r ∧ (s.mb.slot r).arg 1 = a ∧ (s.mb.slot r).arg 2 = n ∧ (n < 1 ∨ 30 < n ∨
        129 < a + n)) ∧
    (∃ s : State, ∃ r : Req, s.Asks 49 1 r ∧ r.box = Iface.m1 ∧ ∃ k : Fin 32, (s.mb.slot r).arg 1 = ↑k ∧ ∃ b : List Byte, s.led.items[k] = some b) ∧
    (∃ s : State, ∃ r : Req, s.Asks 49 1 r ∧ r.box = Iface.m1 ∧ ∃ k : Fin 32, (s.mb.slot r).arg 1 = ↑k ∧ s.led.items[k] = none) ∧
    (∃ s : State, ∃ r : Req, s.Asks 49 1 r ∧ r.box = Iface.m1 ∧ 31 < (s.mb.slot r).arg 1) ∧
    (∃ s : State, ∃ r : Req, s.Asks 50 2 r ∧ r.box = Iface.m1 ∧ (s.mb.slot r).arg 2 = 3 ∧ ∃ q : Rec, ∃ qs : List Rec,
        recordsFrom s.nv.cairnRecords 3 ((s.mb.slot r).arg 1) = q :: qs) ∧
    (∃ s : State, ∃ r : Req, ∃ n : Nat, s.Asks 50 2 r ∧ r.box = Iface.m1 ∧ (s.mb.slot r).arg 2 = n ∧ 1 ≤ n ∧ n ≤ 3 ∧
        recordsFrom s.nv.cairnRecords n ((s.mb.slot r).arg 1) = []) ∧
    (∃ s : State, ∃ r : Req, ∃ n : Nat, s.Asks 50 2 r ∧ r.box = Iface.m1 ∧ (s.mb.slot r).arg 2 = n ∧ (n < 1 ∨ 3 < n)) ∧
    (∃ s : State, ∃ r : Req, ∃ k : Nat, s.Asks 53 1 r ∧ (s.mb.slot r).arg 1 = k ∧ k ≤ 15 ∧ s.nv.inForce Area.q3 51 k = none) ∧
    (∃ s : State, ∃ r : Req, ∃ k : Nat, s.Asks 53 1 r ∧ (s.mb.slot r).arg 1 = k ∧ 15 < k) ∧
    (∃ s : State, ∃ r : Req, ∃ live : LivePins, ∃ n : Nat, s.Asks 1 2 r ∧ (s.mb.slot r).arg 2 = n ∧ n = 1 ∧
        ((s.taken.latchLive live).readIndex r.box ((s.mb.slot r).arg 1)).snd.snd = 0) ∧
    (∃ s : State, ∃ r : Req, ∃ live : LivePins, ∃ n : Nat, s.Asks 1 2 r ∧ (s.mb.slot r).arg 2 = n ∧ 1 ≤ n ∧ n ≤ 61 ∧
        ((s.taken.latchLive live).readRun r.box n ((s.mb.slot r).arg 1) []).snd.snd = 0) ∧
    (∃ s : State, ∃ r : Req, ∃ live : LivePins, ∃ n : Nat, s.Asks 1 2 r ∧ (s.mb.slot r).arg 2 = n ∧ n = 1 ∧
        ((s.taken.latchLive live).readIndex r.box ((s.mb.slot r).arg 1)).snd.snd ≠ 0) ∧
    (∃ s : State, ∃ r : Req, ∃ live : LivePins, ∃ n : Nat, s.Asks 1 2 r ∧ (s.mb.slot r).arg 2 = n ∧ 1 ≤ n ∧ n ≤ 61 ∧
        ((s.taken.latchLive live).readRun r.box n ((s.mb.slot r).arg 1) []).snd.snd ≠ 0) ∧
    (∃ s : State, ∃ r : Req, ∃ n : Nat, s.Asks 1 2 r ∧ (s.mb.slot r).arg 2 = n ∧ (n < 1 ∨ 61 < n)) ∧
    (∃ s : State, ∃ r : Req, s.Asks 81 3 r ∧ r.box = Iface.m1 ∧ (s.mb.slot r).arg 1 = 1 ∧ (s.mb.slot r).arg 2 = 0 ∧ (s.mb.slot r).arg 3 = 2) ∧
    (∃ s : State, ∃ r : Req, ∃ a : Nat, ∃ n : Nat, s.Asks 81 3 r ∧ r.box = Iface.m1 ∧ (s.mb.slot r).arg 2 = a ∧ (s.mb.slot r).arg 3 = n ∧
        (1 < (s.mb.slot r).arg 1 ∨ n < 1 ∨ 60 < n ∨ flashBytes < a + 4 * n)) ∧
    (∃ s : State, ∃ r : Req, s.takes = true ∧ s.mb.queue.head? = some r ∧ r.box ≠ Iface.pmb ∧ s.pmb.jobs = [] ∧
        (s.mb.slot r).cmd = (Instr.cellStatus, 32, Boxes.both, 1).snd.fst ∧ ((s.mb.slot r).written < (s.mb.slot r).narg + 1 ∨
        (s.mb.slot r).narg ≠ (Instr.cellStatus, 32, Boxes.both, 1).snd.snd.snd ∨ (Instr.cellStatus, 32, Boxes.both,
        1).snd.snd.fst.allow r.box = false)) :=
  ⟨⟨asked 0x20 [3], m0r, 3, ⟨by decide, by decide, by decide, by decide, by decide, by decide, by decide⟩, by decide⟩,
    ⟨asked 0x20 [64], m0r, ⟨by decide, by decide, by decide, by decide, by decide, by decide, by decide⟩, by decide⟩,
    ⟨asked 0x21 [3, 2047, 1], m0r, 3, 2047, 1, ⟨by decide, by decide, by decide, by decide, by decide, by decide, by decide⟩, by decide, by decide⟩,
    ⟨asked 0x21 [3, 2047, 2], m0r, 3, 2047, 2, ⟨by decide, by decide, by decide, by decide, by decide, by decide, by decide⟩, by decide⟩,
    ⟨asked 0x21 [64, 2047, 2], m0r, ⟨by decide, by decide, by decide, by decide, by decide, by decide, by decide⟩, by decide⟩,
    ⟨capBad .double .double 1, m0r, 3, 2047, 1, ⟨by decide, by decide, by decide, by decide, by decide, by decide, by decide⟩, by decide⟩,
    ⟨asked 0x30 [0, 3], m0r, 0, 3, ⟨by decide, by decide, by decide, by decide, by decide, by decide, by decide⟩, by decide⟩,
    ⟨asked 0x30 [128, 2], m0r, 128, 2, ⟨by decide, by decide, by decide, by decide, by decide, by decide, by decide⟩, by decide⟩,
    ⟨withItem (askedM1 0x31 [5]), m1r, ⟨by decide, by decide, by decide, by decide, by decide, by decide, by decide⟩, by decide, 5, by decide, _,
        rfl⟩,
    ⟨withItem (askedM1 0x31 [16]), m1r, ⟨by decide, by decide, by decide, by decide, by decide, by decide, by decide⟩, by decide, 16, by decide⟩,
    ⟨askedM1 0x31 [32], m1r, ⟨by decide, by decide, by decide, by decide, by decide, by decide, by decide⟩, by decide⟩,
    ⟨recordedMem, m1r, ⟨by decide, by decide, by decide, by decide, by decide, by decide, by decide⟩, by decide, by decide,
        (recordsFrom recordedMem.nv.cairnRecords 3 0).headD rec0, (recordsFrom recordedMem.nv.cairnRecords 3 0).drop 1, by decide +kernel⟩,
    ⟨askedM1 0x32 [1, 3], m1r, 3, ⟨by decide, by decide, by decide, by decide, by decide, by decide, by decide⟩, by decide⟩,
    ⟨askedM1 0x32 [1, 4], m1r, 4, ⟨by decide, by decide, by decide, by decide, by decide, by decide, by decide⟩, by decide⟩,
    ⟨asked 0x35 [15], m0r, 15, ⟨by decide, by decide, by decide, by decide, by decide, by decide, by decide⟩, by decide⟩,
    ⟨asked 0x35 [16], m0r, 16, ⟨by decide, by decide, by decide, by decide, by decide, by decide, by decide⟩, by decide⟩,
    ⟨asked 0x01 [0x0101, 1], m0r, livePins, 1, ⟨by decide, by decide, by decide, by decide, by decide, by decide, by decide⟩, by decide⟩,
    ⟨asked 0x01 [0x0101, 1], m0r, livePins, 1, ⟨by decide, by decide, by decide, by decide, by decide, by decide, by decide⟩, by decide⟩,
    ⟨asked 0x01 [0x0105, 1], m0r, livePins, 1, ⟨by decide, by decide, by decide, by decide, by decide, by decide, by decide⟩, by decide⟩,
    ⟨asked 0x01 [0x0105, 1], m0r, livePins, 1, ⟨by decide, by decide, by decide, by decide, by decide, by decide, by decide⟩, by decide⟩,
    ⟨asked 0x01 [0x1101, 62], m0r, 62, ⟨by decide, by decide, by decide, by decide, by decide, by decide, by decide⟩, by decide⟩,
    ⟨askedM1 0x51 [1, 0, 2], m1r, ⟨by decide, by decide, by decide, by decide, by decide, by decide, by decide⟩, by decide⟩,
    ⟨askedM1 0x51 [2, 0, 2], m1r, 0, 2, ⟨by decide, by decide, by decide, by decide, by decide, by decide, by decide⟩, by decide⟩,
    ⟨asked 0x20 [3, 4], m0r, by decide⟩⟩
theorem witness_MailboxActions :
    (∃ s : State, ∃ r : Req, ∃ n : Nat, (s.mb.slot r).arg 2 = n ∧ s.Asks 2 (n + 2) r ∧ n = 1 ∧
        (s.taken.writeIndex r.box ((s.mb.slot r).arg 1) ((s.mb.slot r).argW 3) (some r)).snd = 0) ∧
    (∃ s : State, ∃ r : Req, ∃ n : Nat, (s.mb.slot r).arg 2 = n ∧ s.Asks 2 (n + 2) r ∧ 1 ≤ n ∧ n ≤ 61 ∧
        (s.taken.writeRun' r ((s.mb.slot r).args 3 n) ((s.mb.slot r).arg 1) 0).snd.snd = 0) ∧
    (∃ s : State, ∃ r : Req, ∃ n : Nat, (s.mb.slot r).arg 2 = n ∧ s.Asks 2 (n + 2) r ∧ n = 1 ∧
        (s.taken.writeIndex r.box ((s.mb.slot r).arg 1) ((s.mb.slot r).argW 3) (some r)).snd ≠ 0) ∧
    (∃ s : State, ∃ r : Req, ∃ n : Nat, (s.mb.slot r).arg 2 = n ∧ s.Asks 2 (n + 2) r ∧ 1 ≤ n ∧ n ≤ 61 ∧
        (s.taken.writeRun' r ((s.mb.slot r).args 3 n) ((s.mb.slot r).arg 1) 0).snd.snd ≠ 0) ∧
    (∃ s : State, ∃ r : Req, ∃ n : Nat, (s.mb.slot r).arg 2 = n ∧ s.Asks 2 (n + 2) r ∧ (n < 1 ∨ 61 < n)) ∧
    (∃ s : State, ∃ r : Req, s.Asks 16 4 r ∧ r.box ≠ Iface.m1 ∧ ∃ k : EvKind,
        evKindOf (BitVec.toNat ((s.mb.slot r).argW 1) / 1048576 % 16) = some k ∧
        (postedEvent (s.nextSerial ⟨((s.mb.slot r).argW 1).toNat / 16777216 % 64,
        by omega⟩) ((s.mb.slot r).argW 1) ((s.mb.slot r).argW 2) ((s.mb.slot r).argW 3) ((s.mb.slot r).argW 4) k).badField = false ∧
        (s.postAnswer ⟨((s.mb.slot r).argW 1).toNat / 16777216 % 64,
        by omega⟩ (postedEvent (s.nextSerial ⟨((s.mb.slot r).argW 1).toNat / 16777216 % 64,
        by omega⟩) ((s.mb.slot r).argW 1) ((s.mb.slot r).argW 2) ((s.mb.slot r).argW 3) ((s.mb.slot r).argW 4) k) = 0 ∨
        s.postAnswer ⟨((s.mb.slot r).argW 1).toNat / 16777216 % 64,
        by omega⟩ (postedEvent (s.nextSerial ⟨((s.mb.slot r).argW 1).toNat / 16777216 % 64,
        by omega⟩) ((s.mb.slot r).argW 1) ((s.mb.slot r).argW 2) ((s.mb.slot r).argW 3) ((s.mb.slot r).argW 4) k) = 9)) ∧
    (∃ s : State, ∃ r : Req, s.Asks 16 4 r ∧ r.box ≠ Iface.m1 ∧ evKindOf (BitVec.toNat ((s.mb.slot r).argW 1) / 1048576 % 16) = none) ∧
    (∃ s : State, ∃ r : Req, s.Asks 16 4 r ∧ r.box ≠ Iface.m1 ∧ ∃ k : EvKind,
        evKindOf (BitVec.toNat ((s.mb.slot r).argW 1) / 1048576 % 16) = some k ∧
        (postedEvent (s.nextSerial ⟨((s.mb.slot r).argW 1).toNat / 16777216 % 64,
        by omega⟩) ((s.mb.slot r).argW 1) ((s.mb.slot r).argW 2) ((s.mb.slot r).argW 3) ((s.mb.slot r).argW 4) k).badField = false ∧
        s.postAnswer ⟨((s.mb.slot r).argW 1).toNat / 16777216 % 64,
        by omega⟩ (postedEvent (s.nextSerial ⟨((s.mb.slot r).argW 1).toNat / 16777216 % 64,
        by omega⟩) ((s.mb.slot r).argW 1) ((s.mb.slot r).argW 2) ((s.mb.slot r).argW 3) ((s.mb.slot r).argW 4) k) ≠ 0 ∧
        s.postAnswer ⟨((s.mb.slot r).argW 1).toNat / 16777216 % 64,
        by omega⟩ (postedEvent (s.nextSerial ⟨((s.mb.slot r).argW 1).toNat / 16777216 % 64,
        by omega⟩) ((s.mb.slot r).argW 1) ((s.mb.slot r).argW 2) ((s.mb.slot r).argW 3) ((s.mb.slot r).argW 4) k) ≠ 4 ∧
        s.postAnswer ⟨((s.mb.slot r).argW 1).toNat / 16777216 % 64,
        by omega⟩ (postedEvent (s.nextSerial ⟨((s.mb.slot r).argW 1).toNat / 16777216 % 64,
        by omega⟩) ((s.mb.slot r).argW 1) ((s.mb.slot r).argW 2) ((s.mb.slot r).argW 3) ((s.mb.slot r).argW 4) k) ≠ 9) ∧
    (∃ s : State, ∃ r : Req, s.Asks 16 4 r ∧ r.box ≠ Iface.m1 ∧ ∃ k : EvKind,
        evKindOf (BitVec.toNat ((s.mb.slot r).argW 1) / 1048576 % 16) = some k ∧
        (postedEvent (s.nextSerial ⟨((s.mb.slot r).argW 1).toNat / 16777216 % 64,
        by omega⟩) ((s.mb.slot r).argW 1) ((s.mb.slot r).argW 2) ((s.mb.slot r).argW 3) ((s.mb.slot r).argW 4) k).badField = true) ∧
    (∃ s : State, ∃ r : Req, ∃ k : EvKind, ∃ x : Event, s.Asks 16 4 r ∧ evKindOf (((s.mb.slot r).argW 1).toNat / 1048576 % 16) = some k ∧
        ((s.mb.slot r).argW 1).toNat / 16777216 % 64 = 3 ∧
        s.postAnswer 3 (postedEvent (s.nextSerial 3) ((s.mb.slot r).argW 1) ((s.mb.slot r).argW 2) ((s.mb.slot r).argW 3) ((s.mb.slot r).argW 4) k) = 4 ∧ s.ctx[(3 : CtxId)].sched.events.find? (fun y => y.same (postedEvent (s.nextSerial 3) ((s.mb.slot r).argW 1) ((s.mb.slot r).argW 2) ((s.mb.slot r).argW 3) ((s.mb.slot r).argW 4) k)) = some x) ∧
    (∃ s : State, ∃ r : Req, s.Asks 17 2 r ∧ r.box ≠ Iface.m1 ∧ ∃ c : CtxId, (s.mb.slot r).arg 1 = ↑c ∧ ∃ e : Event,
        List.find? (fun x => decide (x.ident = (s.mb.slot r).arg 2)) s.ctx[c].sched.events = some e ∧ s.pastCancel c e = false) ∧
    (∃ s : State, ∃ r : Req, s.Asks 17 2 r ∧ r.box ≠ Iface.m1 ∧ 63 < (s.mb.slot r).arg 1) ∧
    (∃ s : State, ∃ r : Req, s.Asks 17 2 r ∧ r.box ≠ Iface.m1 ∧ ∃ c : CtxId, (s.mb.slot r).arg 1 = ↑c ∧
        List.find? (fun x => decide (x.ident = (s.mb.slot r).arg 2)) s.ctx[c].sched.events = none) ∧
    (∃ s : State, ∃ r : Req, s.Asks 17 2 r ∧ r.box ≠ Iface.m1 ∧ ∃ c : CtxId, (s.mb.slot r).arg 1 = ↑c ∧ ∃ e : Event,
        List.find? (fun x => decide (x.ident = (s.mb.slot r).arg 2)) s.ctx[c].sched.events = some e ∧ s.pastCancel c e = true) ∧
    (∃ s : State, ∃ r : Req, s.Asks 34 2 r ∧ ∃ c : CtxId, (s.mb.slot r).arg 1 = ↑c ∧ BitVec.toNat ((s.mb.slot r).argW 2) / 67108864 % 4 ≠ 3 ∧
        BitVec.toNat ((s.mb.slot r).argW 2) / 256 % 256 ≠ 0 ∧ s.hides r.box c = false ∧ s.ctx[c].owner = CapOwner.none ∧ s.tracePending c = false ∧
        s.ctx[c].probeComes = false) ∧
    (∃ s : State, ∃ r : Req, s.Asks 34 2 r ∧ (63 < (s.mb.slot r).arg 1 ∨ BitVec.toNat ((s.mb.slot r).argW 2) / 67108864 % 4 = 3 ∨
        BitVec.toNat ((s.mb.slot r).argW 2) / 256 % 256 = 0)) ∧
    (∃ s : State, ∃ r : Req, s.Asks 34 2 r ∧ ∃ c : CtxId, (s.mb.slot r).arg 1 = ↑c ∧ BitVec.toNat ((s.mb.slot r).argW 2) / 67108864 % 4 ≠ 3 ∧
        BitVec.toNat ((s.mb.slot r).argW 2) / 256 % 256 ≠ 0 ∧ s.hides r.box c = false ∧ (s.ctx[c].owner ≠ CapOwner.none ∨ s.tracePending c = true ∨
        s.ctx[c].probeComes = true)) ∧
    (∃ s : State, ∃ r : Req, s.Asks 35 1 r ∧ ∃ c : CtxId, (s.mb.slot r).arg 1 = ↑c ∧ s.hides r.box c = false ∧ s.ctx[c].owner ≠ CapOwner.trace) ∧
    (∃ s : State, ∃ r : Req, s.Asks 35 1 r ∧ ∃ c : CtxId, (s.mb.slot r).arg 1 = ↑c ∧ s.hides r.box c = false ∧ s.ctx[c].owner = CapOwner.trace) ∧
    (∃ s : State, ∃ r : Req, s.Asks 35 1 r ∧ 63 < (s.mb.slot r).arg 1) ∧
    (∃ s : State, ∃ r : Req, s.Asks 51 0 r ∧ s.saveRefusal s.savedPairs = 0) ∧
    (∃ s : State, ∃ r : Req, s.Asks 51 0 r ∧ s.saveRefusal s.savedPairs ≠ 0) ∧
    (∃ s : State, ∃ r : Req, s.Asks 52 0 r ∧ r.box = Iface.m1 ∧ s.saveRefusal [] = 0) ∧
    (∃ s : State, ∃ r : Req, s.Asks 52 0 r ∧ r.box = Iface.m1 ∧ s.saveRefusal [] ≠ 0) ∧
    (∃ s : State, ∃ r : Req, ∃ k : Nat, s.Asks 54 14 r ∧ r.box = Iface.m1 ∧ (s.mb.slot r).arg 1 = k ∧ k ≤ 15 ∧
        s.hostRefusal Area.q3 (if (s.nv.inForce Area.q3 51 k).isNone = true then 1 else 0) = 0) ∧
    (∃ s : State, ∃ r : Req, ∃ k : Nat, s.Asks 54 14 r ∧ r.box = Iface.m1 ∧ (s.mb.slot r).arg 1 = k ∧ 15 < k) ∧
    (∃ s : State, ∃ r : Req, ∃ k : Nat, s.Asks 54 14 r ∧ r.box = Iface.m1 ∧ (s.mb.slot r).arg 1 = k ∧ k ≤ 15 ∧
        s.hostRefusal Area.q3 (if (s.nv.inForce Area.q3 51 k).isNone = true then 1 else 0) ≠ 0) ∧
    (∃ s : State, ∃ r : Req, ∃ a : Nat, ∃ n : Nat, ((s.mb.slot r).arg 1 = a ∧ (s.mb.slot r).arg 2 = n) ∧ s.Asks 80 (n + 2) r ∧ r.box = Iface.m1 ∧
        ∃ h : HalfId, (1 ≤ n ∧ n ≤ 60 ∧ a % 4 = 0 ∧ s.shadow = some h ∧ a + 4 * n ≤ flashBytes) ∧ (∀ (k : Nat),
        k < n → s.sum.programmed (bankOf h) (a / 4 + k) = false)) ∧
    (∃ s : State, ∃ r : Req, ∃ a : Nat, ∃ n : Nat, ((s.mb.slot r).arg 1 = a ∧ (s.mb.slot r).arg 2 = n) ∧ s.Asks 80 (n + 2) r ∧ r.box = Iface.m1 ∧
        ∃ h : HalfId, (1 ≤ n ∧ n ≤ 60 ∧ a % 4 = 0 ∧ s.shadow = some h) ∧ ∃ k : Nat, k < n ∧ a + 4 * n ≤ flashBytes ∧
        s.sum.programmed (bankOf h) (a / 4 + k) = true) ∧
    (∃ s : State, ∃ r : Req, ∃ a : Nat, ∃ n : Nat, ((s.mb.slot r).arg 1 = a ∧ (s.mb.slot r).arg 2 = n) ∧ s.Asks 80 (n + 2) r ∧ r.box = Iface.m1 ∧
        (n < 1 ∨ 60 < n ∨ a % 4 ≠ 0)) ∧
    (∃ s : State, ∃ r : Req, ∃ a : Nat, ∃ n : Nat, ((s.mb.slot r).arg 1 = a ∧ (s.mb.slot r).arg 2 = n) ∧ s.Asks 80 (n + 2) r ∧ r.box = Iface.m1 ∧
        ∃ h : HalfId, 1 ≤ n ∧ n ≤ 60 ∧ a % 4 = 0 ∧ s.shadow = some h ∧ flashBytes < a + 4 * n) ∧
    (∃ s : State, ∃ r : Req, ∃ a : Nat, ∃ n : Nat, ((s.mb.slot r).arg 1 = a ∧ (s.mb.slot r).arg 2 = n) ∧ s.Asks 80 (n + 2) r ∧ r.box = Iface.m1 ∧
        1 ≤ n ∧ n ≤ 60 ∧ a % 4 = 0 ∧ s.shadow = none) ∧
    (∃ s : State, ∃ r : Req, s.takes = true ∧ s.mb.queue.head? = some r ∧ r.box ≠ Iface.pmb ∧ ((Instr.paramWrite, 2).snd = 80 → r.box = Iface.m1) ∧
        s.pmb.jobs = [] ∧ (s.mb.slot r).cmd = (Instr.paramWrite, 2).snd ∧ ((s.mb.slot r).written < (s.mb.slot r).narg + 1 ∨ (s.mb.slot r).narg < 2 ∨
        (s.mb.slot r).narg ≠ (s.mb.slot r).arg 2 + 2)) :=
  ⟨⟨asked 0x02 [0x1185, 1, 7], m0r, 1, by decide, ⟨by decide, by decide, by decide, by decide, by decide, by decide, by decide⟩, by decide⟩,
    ⟨asked 0x02 [0x1185, 1, 7], m0r, 1, by decide, ⟨by decide, by decide, by decide, by decide, by decide, by decide, by decide⟩, by decide⟩,
    ⟨asked 0x02 [0x0FFF, 1, 7], m0r, 1, by decide, ⟨by decide, by decide, by decide, by decide, by decide, by decide, by decide⟩, by decide⟩,
    ⟨asked 0x02 [0x0FFF, 1, 7], m0r, 1, by decide, ⟨by decide, by decide, by decide, by decide, by decide, by decide, by decide⟩, by decide⟩,
    ⟨asked 0x02 [0x1101, 0], m0r, 0, by decide, ⟨by decide, by decide, by decide, by decide, by decide, by decide, by decide⟩, by decide⟩,
    ⟨posting, m0r, ⟨by decide, by decide, by decide, by decide, by decide, by decide, by decide⟩, by decide, _, rfl, by decide⟩,
    ⟨post 0x03F00000 1000000 0x100 0x0009, m0r, ⟨by decide, by decide, by decide, by decide, by decide, by decide, by decide⟩, by decide⟩,
    ⟨post 0x03300000 1 0x100 0x0009, m0r, ⟨by decide, by decide, by decide, by decide, by decide, by decide, by decide⟩, by decide, _, rfl,
        by decide⟩,
    ⟨post 0x43300000 1 0x100 0x0009, m0r, ⟨by decide, by decide, by decide, by decide, by decide, by decide, by decide⟩, by decide, _, rfl,
        by decide⟩,
    ⟨(post 0x03300000 1000000 0x100 0x0009).modSched 3 (fun x => { x with events := [postedEvent 5 0x03300000 1000000 0x100 0x0009 .step] }), m0r,
        .step, postedEvent 5 0x03300000 1000000 0x100 0x0009 .step, ⟨by decide, by decide, by decide, by decide, by decide, by decide, by decide⟩,
        by decide⟩,
    ⟨cancelling, m0r, ⟨by decide, by decide, by decide, by decide, by decide, by decide, by decide⟩, by decide, 3, by decide, _, rfl, by decide⟩,
    ⟨asking .m0 [cmdWord 0x11 2, 64, 9] cancelling, m0r, ⟨by decide, by decide, by decide, by decide, by decide, by decide, by decide⟩, by decide⟩,
    ⟨asking .m0 [cmdWord 0x11 2, 3, 8] cancelling, m0r, ⟨by decide, by decide, by decide, by decide, by decide, by decide, by decide⟩, by decide, 3,
        by decide⟩,
    ⟨asking .m0 [cmdWord 0x11 2, 3, 9] (holding (someEvent .on)), m0r, ⟨by decide, by decide, by decide, by decide, by decide, by decide,
        by decide⟩, by decide, 3, by decide, _, rfl, by decide⟩,
    ⟨asked 0x22 [3, 0x100], m0r, ⟨by decide, by decide, by decide, by decide, by decide, by decide, by decide⟩, 3, by decide⟩,
    ⟨asked 0x22 [3, 0xFFFFFF00], m0r, ⟨by decide, by decide, by decide, by decide, by decide, by decide, by decide⟩, by decide⟩,
    ⟨tracing (asked 0x22 [3, 0x100]), m0r, ⟨by decide, by decide, by decide, by decide, by decide, by decide, by decide⟩, 3, by decide⟩,
    ⟨asked 0x23 [3], m0r, ⟨by decide, by decide, by decide, by decide, by decide, by decide, by decide⟩, 3, by decide⟩,
    ⟨tracing (asked 0x23 [3]), m0r, ⟨by decide, by decide, by decide, by decide, by decide, by decide, by decide⟩, 3, by decide⟩,
    ⟨asked 0x23 [64], m0r, ⟨by decide, by decide, by decide, by decide, by decide, by decide, by decide⟩, by decide⟩,
    ⟨asked 0x33 [], m0r, ⟨by decide, by decide, by decide, by decide, by decide, by decide, by decide⟩,
        by rw [no_pairs (asked 0x33 []) (by decide) rfl rfl rfl rfl]; decide⟩,
    ⟨hot (asked 0x33 []), m0r, ⟨by decide, by decide, by decide, by decide, by decide, by decide, by decide⟩,
        save_refused _ _ (by decide) (by decide)⟩,
    ⟨askedM1 0x34 [], m1r, ⟨by decide, by decide, by decide, by decide, by decide, by decide, by decide⟩, by decide⟩,
    ⟨hot (askedM1 0x34 []), m1r, ⟨by decide, by decide, by decide, by decide, by decide, by decide, by decide⟩, by decide⟩,
    ⟨askedM1 0x36 (5 :: List.replicate 13 7), m1r, 5, ⟨by decide, by decide, by decide, by decide, by decide, by decide, by decide⟩, by decide⟩,
    ⟨askedM1 0x36 (16 :: List.replicate 13 7), m1r, 16, ⟨by decide, by decide, by decide, by decide, by decide, by decide, by decide⟩, by decide⟩,
    ⟨hot (askedM1 0x36 (5 :: List.replicate 13 7)), m1r, 5, ⟨by decide, by decide, by decide, by decide, by decide, by decide, by decide⟩, by decide⟩,
    ⟨shadowErased, m1r, 0, 2, by decide, ⟨by decide, by decide, by decide, by decide, by decide, by decide, by decide⟩, by decide, .west, by decide,
        by decide⟩,
    ⟨fwTarget, m1r, 0, 2, by decide, ⟨by decide, by decide, by decide, by decide, by decide, by decide, by decide⟩, by decide, .west, by decide, 0,
        by decide⟩,
    ⟨fw50 [0, 0], m1r, 0, 0, by decide, ⟨by decide, by decide, by decide, by decide, by decide, by decide, by decide⟩, by decide⟩,
    ⟨fw50 [word (flashBytes - 4), 2, 5, 6], m1r, flashBytes - 4, 2, by decide, ⟨by decide, by decide, by decide, by decide, by decide, by decide,
        by decide⟩, by decide, .west, by decide⟩,
    ⟨shadowErased |> fun s => { s with sum := { s.sum with armA := none, armB := none, armC := none } }, m1r, 0, 2, by decide, ⟨by decide,
        by decide, by decide, by decide, by decide, by decide, by decide⟩, by decide⟩,
    ⟨asked 0x02 [5, 2, 0], m0r, by decide⟩⟩
theorem witness_Sessions :
    (∃ s : State, ∃ r : Req, s.Asks 64 0 r ∧ r.box ≠ Iface.m1 ∧ s.lockedOut = false) ∧
    (∃ s : State, ∃ r : Req, s.Asks 64 0 r ∧ r.box ≠ Iface.m1 ∧ s.lockedOut = true) ∧
    (∃ s : State, ∃ r : Req, s.Asks 65 9 r ∧ r.box ≠ Iface.m1 ∧ s.authOk ((s.mb.slot r).arg 1) ((s.mb.slot r).args 2 8) = true) ∧
    (∃ s : State, ∃ r : Req, s.Asks 65 9 r ∧ r.box ≠ Iface.m1 ∧ s.authOk ((s.mb.slot r).arg 1) ((s.mb.slot r).args 2 8) = false) ∧
    (∃ s : State, ∃ r : Req, s.Asks 65 9 r ∧ r.box ≠ Iface.m1 ∧ ∀ m n : Nat, s.mb.challenge = some (m, n) → m ≠ (s.mb.slot r).arg 1 ∨
        n + 4000000000 ≤ s.clk.time) ∧
    (∃ s : State, s.mb.lockout = none) ∧
    (∃ s : State, ∃ n : Nat, s.mb.lockout = some n ∧ s.clk.time < n + 4000000000) ∧
    (∃ s : State, ∃ n : Nat, s.mb.lockout = some n ∧ n + 4000000000 ≤ s.clk.time) ∧
    (∃ s : State, ∃ r : Req, s.Asks 66 0 r ∧ r.box = Iface.m1 ∧ s.mb.session = true) ∧
    (∃ s : State, ∃ r : Req, s.Asks 66 0 r ∧ r.box = Iface.m1 ∧ s.mb.session = false) ∧
    (∃ s : State, s.mb.session = true ∧ max s.mb.openedAt s.mb.lastM1 + 4000000000 ≤ s.clk.time) ∧
    (∃ s : State, s.mb.session = false ∨ s.clk.time < max s.mb.openedAt s.mb.lastM1 + 4000000000) :=
  ⟨⟨asked 0x40 [], m0r, ⟨by decide, by decide, by decide, by decide, by decide, by decide, by decide⟩, by decide⟩,
    ⟨lockedFor 7999999999 (asked 0x40 []), m0r, ⟨by decide, by decide, by decide, by decide, by decide, by decide, by decide⟩, by decide⟩,
    Exists.elim (responding_ok (served .run) (by decide) (by decide)) (fun ws h => ⟨responding (served .run) ws, m0r, h.1, by decide, h.2⟩),
    ⟨asked 0x41 (List.replicate 9 0), m0r, ⟨by decide, by decide, by decide, by decide, by decide, by decide, by decide⟩, by decide⟩,
    ⟨asked 0x41 (List.replicate 9 0), m0r, ⟨by decide, by decide, by decide, by decide, by decide, by decide, by decide⟩, by decide, nofun⟩,
    ⟨asked 0x40 [], by decide⟩,
    ⟨lockedFor 7999999999 (asked 0x40 []), _, rfl, by decide⟩,
    ⟨lockedFor 5 (asked 0x41 (List.replicate 9 0)), _, rfl, by decide⟩,
    ⟨askedM1 0x42 [], m1r, ⟨by decide, by decide, by decide, by decide, by decide, by decide, by decide⟩, by decide⟩,
    ⟨{ askedM1 0x42 [] with mb := { (askedM1 0x42 []).mb with session := false } }, m1r, ⟨by decide, by decide, by decide, by decide, by decide,
        by decide, by decide⟩, by decide⟩,
    ⟨asked 0x40 [], by decide⟩,
    ⟨{ askedM1 0x42 [] with mb := { (askedM1 0x42 []).mb with session := false } }, by decide⟩⟩
theorem witness_PmbusReads :
    (∃ x : PmbXfer, ∃ s : State, (x.write = none ∧ s.interfaces = true) ∧ ∃ c : CtxId, s.pmb.page ≠ 255 ∧ s.pages = [c]) ∧
    (∃ x : PmbXfer, ∃ s : State, x.write = none ∧ s.interfaces = true ∧ s.pmb.page = 255) ∧
    (∃ x : PmbXfer, ∃ s : State, x.write = none ∧ s.interfaces = true ∧ s.pmb.page ≠ 255 ∧ s.pages = []) ∧
    (∃ x : PmbXfer, ∃ s : State, x.write = none ∧ s.interfaces = false) :=
  ⟨⟨aRead, page3, by decide, 3, by decide⟩,
    ⟨aRead, onPage 0xFF page3, by decide⟩,
    ⟨aRead, onPage 64 page3, by decide⟩,
    ⟨aRead, inState .run, by decide⟩⟩
theorem witness_PmbusWrites :
    (∃ x : PmbXfer, ∃ bs : List Byte, ∃ s : State, x.write = some bs ∧ s.interfaces = true ∧ s.pecGood 0 bs x.pec = true ∧ bs.length = 1 ∧
        (leNat bs = 255 ∨ leNat bs < 63 ∨ leNat bs = 63 ∧ s.dev.compatEn = false)) ∧
    (∃ x : PmbXfer, ∃ bs : List Byte, ∃ s : State, (x.write = some bs ∧ s.interfaces = true) ∧ ∃ p : Byte, x.pec = some p ∧
        s.pecGood (Instr.operation x, 1, 1).snd.fst bs x.pec = false) ∧
    (∃ x : PmbXfer, ∃ bs : List Byte, ∃ s : State, x.write = some bs ∧ ∃ code : Byte, pmbCodes.contains (BitVec.toNat code) = false ∧
        s.interfaces = true) ∧
    (∃ x : PmbXfer, ∃ bs : List Byte, x.write = some bs ∧ ∃ code : Byte, pmbCodes.contains (BitVec.toNat code) = true) ∧
    (∃ x : PmbXfer, ∃ bs : List Byte, x.write = some bs ∧ ∃ ms : Nat, ms < 25) ∧
    (∃ x : PmbXfer, ∃ bs : List Byte, x.write = some bs ∧ ∃ ms : Nat, 25 ≤ ms ∧ ms < 35) ∧
    (∃ x : PmbXfer, ∃ bs : List Byte, x.write = some bs ∧ ∃ ms : Nat, 35 ≤ ms) ∧
    (∃ x : PmbXfer, ∃ bs : List Byte, ∃ s : State, x.write = some bs ∧ ∃ r : Req, ∃ c : CtxId, ∃ j : PmbJob, s.takes = true ∧ s.mb.queue = [r,
        { box := Iface.pmb, slot := 0 }] ∧ s.pmb.jobs = [j] ∧ r.box ≠ Iface.pmb ∧ (s.mb.slot r).cmd = 32 ∧ (s.mb.slot r).narg = 1 ∧
        2 ≤ (s.mb.slot r).written ∧ (s.mb.slot r).arg 1 = ↑c) ∧
    (∃ x : PmbXfer, ∃ bs : List Byte, ∃ s : State, x.write = some bs ∧ ∃ code : Byte, pmbCodes.contains (BitVec.toNat code) = false ∧
        s.interfaces = false) ∧
    (∃ x : PmbXfer, ∃ bs : List Byte, ∃ s : State, x.write = some bs ∧ s.interfaces = true ∧ s.pecGood 0 bs x.pec = true ∧ bs.length = 1 ∧
        leNat bs ≠ 255 ∧ (63 < leNat bs ∨ leNat bs = 63 ∧ s.dev.compatEn = true)) ∧
    (∃ x : PmbXfer, ∃ bs : List Byte, ∃ s : State, x.write = some bs ∧ s.interfaces = true ∧ s.pecGood (Instr.page x, 0,
        1).snd.fst bs x.pec = true ∧ bs.length ≠ (Instr.page x, 0, 1).snd.snd) ∧
    (∃ x : PmbXfer, ∃ bs : List Byte, ∃ s : State, x.write = some bs ∧ s.interfaces = true ∧ s.pecGood 208 bs x.pec = true ∧ bs.length = 2) ∧
    (∃ x : PmbXfer, ∃ bs : List Byte, ∃ s : State, x.write = some bs ∧ s.interfaces = true ∧ s.mb.queue = [] ∧ s.takes = true ∧
        s.pending.any Instr.doorbells = false ∧ s.pecGood 33 bs x.pec = true ∧ bs.length = 2 ∧ s.pages ≠ []) ∧
    (∃ x : PmbXfer, ∃ bs : List Byte, ∃ s : State, (x.write = some bs ∧ s.interfaces = true ∧ s.mb.queue = [] ∧ s.takes = true ∧
        s.pending.any Instr.doorbells = false) ∧ ∃ c : CtxId, s.pages = [c] ∧ s.pecGood 33 bs x.pec = true ∧ bs.length = 2 ∧
        s.ack.refuse Iface.pmb (Slot.ctx c CP.vset) (word (64 * leNat bs)) = 0) ∧
    (∃ x : PmbXfer, ∃ bs : List Byte, ∃ s : State, (x.write = some bs ∧ s.interfaces = true ∧ s.mb.queue = [] ∧ s.takes = true ∧
        s.pending.any Instr.doorbells = false) ∧ ∃ c : CtxId, s.pages = [c] ∧ s.pecGood 33 bs x.pec = true ∧ bs.length = 2 ∧
        s.ack.refuse Iface.pmb (Slot.ctx c CP.vset) (word (64 * leNat bs)) ≠ 0) ∧
    (∃ x : PmbXfer, ∃ bs : List Byte, ∃ s : State, x.write = some bs ∧ s.interfaces = true ∧ (s.takes = false ∨ s.mb.queue = [] ∧
        s.pending.any Instr.doorbells = true ∨ ∃ r, s.mb.queue.head? = some r ∧ r.box ≠ Iface.pmb ∧
        knownCommands.contains (s.mb.slot r).cmd = true) ∧ s.pecGood (Instr.voutCommand x, 33, 2).snd.fst bs x.pec = true ∧
        bs.length = (Instr.voutCommand x, 33, 2).snd.snd) ∧
    (∃ x : PmbXfer, ∃ bs : List Byte, ∃ s : State, x.write = some bs ∧ s.interfaces = true ∧ s.mb.queue = [] ∧ s.takes = true ∧
        s.pending.any Instr.doorbells = false ∧ s.pecGood 1 bs x.pec = true ∧ bs.length = 1 ∧ (leNat bs = 128 ∨ leNat bs = 0) ∧ s.pages ≠ []) ∧
    (∃ x : PmbXfer, ∃ bs : List Byte, ∃ s : State, (x.write = some bs ∧ s.interfaces = true ∧ s.mb.queue = [] ∧ s.takes = true ∧
        s.pending.any Instr.doorbells = false ∧ s.pecGood 1 bs x.pec = true ∧ bs.length = 1) ∧ ∃ c : CtxId, s.pages = [c] ∧ ↑c ≠ 0 ∧ bs = [128] ∧
        s.stateAllowsOn c = true) ∧
    (∃ x : PmbXfer, ∃ bs : List Byte, ∃ s : State, x.write = some bs ∧ s.interfaces = true ∧ s.mb.queue = [] ∧ s.takes = true ∧
        s.pending.any Instr.doorbells = false ∧ s.pecGood 1 bs x.pec = true ∧ bs.length = 1 ∧ leNat bs ≠ 128 ∧ leNat bs ≠ 0) ∧
    (∃ x : PmbXfer, ∃ bs : List Byte, ∃ s : State, (x.write = some bs ∧ s.interfaces = true ∧ s.mb.queue = [] ∧ s.takes = true ∧
        s.pending.any Instr.doorbells = false) ∧ ∃ c : CtxId, s.pages = [c] ∧ bs = [] ∧ s.pecGood 3 bs x.pec = true) ∧
    (∃ x : PmbXfer, ∃ bs : List Byte, ∃ s : State, x.write = some bs ∧ s.interfaces = true ∧ s.mb.queue = [] ∧ s.takes = true ∧
        s.pending.any Instr.doorbells = false ∧ s.pmb.page = 255 ∧ bs = [] ∧ s.pecGood 3 bs x.pec = true) ∧
    (∃ x : PmbXfer, ∃ bs : List Byte, ∃ s : State, x.write = some bs ∧ s.interfaces = true ∧ s.mb.queue = [] ∧ s.takes = true ∧
        s.pending.any Instr.doorbells = false ∧ bs = [] ∧ s.pecGood 21 bs x.pec = true ∧ s.saveRefusal s.savedPairs = 0) ∧
    (∃ x : PmbXfer, ∃ bs : List Byte, ∃ s : State, x.write = some bs ∧ s.interfaces = true ∧ s.mb.queue = [] ∧ s.takes = true ∧
        s.pending.any Instr.doorbells = false ∧ bs = [] ∧ s.pecGood 21 bs x.pec = true ∧ s.saveRefusal s.savedPairs ≠ 0) ∧
    (∃ x : PmbXfer, ∃ bs : List Byte, ∃ s : State, (x.write = some bs ∧ s.interfaces = true ∧ s.mb.queue = [] ∧ s.takes = true ∧
        s.pending.any Instr.doorbells = false) ∧ ∃ c : CtxId, ∃ v : Int, s.pages = [c] ∧ bs.length = 2 ∧ s.pecGood 39 bs x.pec = true ∧
        v = slewOf (unpack11 (leNat bs)).fst (unpack11 (leNat bs)).snd (s.ctx[c].newest CP.mRatio) ∧ -2147483648 ≤ v ∧ v ≤ 2147483647) ∧
    (∃ x : PmbXfer, ∃ bs : List Byte, ∃ s : State, (x.write = some bs ∧ s.interfaces = true ∧ s.mb.queue = [] ∧ s.takes = true ∧
        s.pending.any Instr.doorbells = false) ∧ ∃ c : CtxId, ∃ v : Int, s.pages = [c] ∧ bs.length = 2 ∧ s.pecGood 39 bs x.pec = true ∧
        v = slewOf (unpack11 (leNat bs)).fst (unpack11 (leNat bs)).snd (s.ctx[c].newest CP.mRatio) ∧ (v < -2147483648 ∨ 2147483647 < v)) ∧
    (∃ x : PmbXfer, ∃ bs : List Byte, ∃ s : State, (x.write = some bs ∧ s.interfaces = true ∧ s.mb.queue = [] ∧ s.takes = true ∧
        s.pending.any Instr.doorbells = false) ∧ bs.length = 5 ∧ leAt bs 0 1 = 4 ∧ s.pecGood 209 bs x.pec = true ∧
        (s.ack.writeIndex Iface.pmb s.pmb.index (word (leAt bs 1 4)) none).snd ≠ 0) ∧
    (∃ x : PmbXfer, ∃ bs : List Byte, ∃ s : State, (x.write = some bs ∧ s.interfaces = true ∧ s.mb.queue = [] ∧ s.takes = true ∧
        s.pending.any Instr.doorbells = false) ∧ bs.length = 5 ∧ leAt bs 0 1 = 4 ∧ s.pecGood 209 bs x.pec = true ∧
        (s.ack.writeIndex Iface.pmb s.pmb.index (word (leAt bs 1 4)) none).snd = 0) ∧
    (∃ x : PmbXfer, ∃ bs : List Byte, ∃ s : State, (x.write = some bs ∧ s.interfaces = true) ∧ bs.length = 5 ∧ leAt bs 0 1 ≠ 4 ∧
        s.pecGood 209 bs x.pec = true) ∧
    (∃ x : PmbXfer, ∃ bs : List Byte, ∃ s : State, x.write = some bs ∧ s.interfaces = true ∧ x.pec = none ∧ s.pecGood (Instr.page x, 0,
        1).snd.fst bs x.pec = false) ∧
    (∃ x : PmbXfer, ∃ bs : List Byte, ∃ s : State, x.write = some bs ∧ s.interfaces = true ∧ s.pecGood (Instr.statusByte x, 120,
        1).snd.fst bs x.pec = true ∧ bs.length = (Instr.statusByte x, 120, 1).snd.snd) :=
  ⟨⟨aWrite page3 0 [62], [62], setGlob .pmbCfg 1 page3, by decide⟩,
    ⟨aWrite page3 0 [62], [62], setGlob .pmbCfg 1 page3, by decide, _, rfl, by decide⟩,
    ⟨aWrite page3 0 [62], [62], setGlob .pmbCfg 1 page3, by decide, 0xEE, by decide⟩,
    ⟨aWrite page3 0 [62], [62], by decide, 0x01, by decide⟩,
    ⟨aWrite page3 0 [62], [62], by decide, 24, by decide⟩,
    ⟨aWrite page3 0 [62], [62], by decide, 25, by decide⟩,
    ⟨aWrite page3 0 [62], [62], by decide, 35, by decide⟩,
    ⟨aWrite page3 0 [62], [62], jobPg ⟨0x21, 3, 0, [0, 0], 5⟩, by decide, m0r, 3, ⟨0x21, 3, 0, [0, 0], 5⟩, by decide⟩,
    ⟨aWrite page3 0 [62], [62], gasped, by decide, 0xEE, by decide⟩,
    ⟨aWrite page3 0 [63], [63], { page3 with dev := { page3.dev with compatEn := true } }, by decide⟩,
    ⟨aWrite page3 0 [62, 1], [62, 1], setGlob .pmbCfg 1 page3, by decide⟩,
    ⟨aWrite page3 0xD0 [62, 1], [62, 1], setGlob .pmbCfg 1 page3, by decide⟩,
    ⟨aWrite page3 0x21 [0, 0], [0, 0], setGlob .pmbCfg 1 page3, by decide⟩,
    ⟨aWrite page3 0x21 [0, 0], [0, 0], setGlob .pmbCfg 1 page3, by decide, 3, by decide⟩,
    ⟨aWrite page3 0x21 [0, 0], [0, 0], onPage 0 page3, by decide, 0, by decide⟩,
    ⟨aWrite page3 0x21 [0, 0], [0, 0], queuedPg, by decide⟩,
    ⟨aWrite page3 1 [0x80], [0x80], setGlob .pmbCfg 1 page3, by decide⟩,
    ⟨aWrite page3 1 [0x80], [0x80], setGlob .pmbCfg 1 page3, by decide, 3, by decide⟩,
    ⟨aWrite page3 1 [62], [62], setGlob .pmbCfg 1 page3, by decide⟩,
    ⟨aWrite page3 3 [], [], setGlob .pmbCfg 1 page3, by decide, 3, by decide⟩,
    ⟨aWrite page3 3 [], [], onPage 0xFF page3, by decide⟩,
    ⟨aWrite page3 0x15 [], [], page3, by decide, by decide, by decide, by decide, by decide, by decide, by decide,
        by rw [no_pairs page3 (by decide) rfl rfl rfl rfl]; decide⟩,
    ⟨aWrite page3 0x15 [], [], hot page3, by decide, by decide, by decide, by decide, by decide, by decide, by decide,
        save_refused _ _ (by decide) (by decide)⟩,
    ⟨aWrite page3 0x27 [1, 0], [1, 0], setGlob .pmbCfg 1 page3, by decide, 3,
        slewOf (unpack11 1).1 (unpack11 1).2 (page3.ctx[(3 : CtxId)].newest .mRatio), by decide⟩,
    ⟨aWrite page3 0x27 [0xFF, 0x7B], [0xFF, 0x7B], setGlob .pmbCfg 1 page3, by decide, 3,
        slewOf (unpack11 0x7BFF).1 (unpack11 0x7BFF).2 (page3.ctx[(3 : CtxId)].newest .mRatio), by decide⟩,
    ⟨aWrite page3 0xD1 [4, 7, 0, 0, 0], [4, 7, 0, 0, 0], setGlob .pmbCfg 1 page3, by decide, by decide⟩,
    ⟨aWrite page3 0xD1 [4, 7, 0, 0, 0], [4, 7, 0, 0, 0], indexed 0x1185 page3, by decide, by decide⟩,
    ⟨aWrite page3 0xD1 [5, 7, 0, 0, 0], [5, 7, 0, 0, 0], setGlob .pmbCfg 1 page3, by decide, by decide⟩,
    ⟨{ write := some [62] }, [62], setGlob .pmbCfg 1 page3, by decide⟩,
    ⟨{ write := some [62] }, [62], page3, by decide⟩⟩
theorem witness_TarnSlots :
    (∃ s : State, ∃ p : Port, s.slotFree p = true ∧ (s.port p).pos = 0) ∧
    (∃ s : State, ∃ p : Port, (s.dev.st = DevState.standby ∨ s.dev.st = DevState.run ∨ s.dev.st = DevState.safe) ∧ (s.port p).poll = none) ∧
    (∃ s : State, ∃ p : Port, s.slotFree p = false) ∧
    (∃ s : State, ∃ p : Port, ∃ a : CtxId, s.slotFree p = true ∧ 0 < (s.port p).pos ∧ (enrolled (s.port p).map)[(s.port p).pos - 1]? = some a) ∧
    (∃ s : State, ∃ p : Port, s.slotFree p = true ∧ (s.port p).pos = (enrolled (s.port p).map).length + 1 ∧ (s.port p).cycle % 16 = 15 ∧
        ∃ a : CtxId, (enrolled (s.port p).map).find? (fun b : CtxId => decide ((s.port p).nextExt ≤ b.val)) = some a) ∧
    (∃ s : State, ∃ p : Port, s.slotFree p = true ∧ (s.port p).pos = (enrolled (s.port p).map).length + 1 ∧ (s.port p).cycle % 16 = 15 ∧
        ∃ a : CtxId, (∀ b ∈ enrolled (s.port p).map, b.val < (s.port p).nextExt) ∧ (enrolled (s.port p).map).head? = some a) ∧
    (∃ s : State, ∃ p : Port, s.slotFree p = true ∧ (s.port p).pos = (enrolled (s.port p).map).length + 1 ∧ (s.port p).cycle % 16 = 15 ∧
        enrolled (s.port p).map = []) ∧
    (∃ s : State, ∃ p : Port, ∃ q : Poll, ∃ r : TarnChars, (s.port p).poll = some q ∧ s.replyViolation q r = 0 ∧
        s.ctx[q.addr].tarn.quarantined = false) ∧
    (∃ s : State, ∃ p : Port, ∃ q : Poll, ∃ r : TarnChars, ∃ v : Nat, (s.port p).poll = some q ∧ s.replyViolation q r = v ∧ v ≠ 0 ∧
        s.ctx[q.addr].tarn.tie = none) ∧
    (∃ s : State, ∃ p : Port, (s.port p).poll.isSome = true ∧ (s.port p).driveEnd ≤ s.clk.time + 32) ∧
    (∃ s : State, ∃ p : Port, ∃ q : Poll, ∃ r : TarnChars, (s.port p).poll = some q ∧ s.replyViolation q r = 0 ∧
        s.ctx[q.addr].tarn.quarantined = true) ∧
    (∃ s : State, ∃ p : Port, ∃ q : Poll, ∃ r : TarnChars, ∃ v : Nat, ∃ i : Instr, (s.port p).poll = some q ∧ s.ctx[q.addr].tarn.tie.isSome = true ∧
        (i = Instr.tarnReply p r ∧ s.replyViolation q r = v ∧ v ≠ 0 ∨ i = Instr.noReply p ∧ v = 3)) ∧
    (∃ s : State, ∃ p : Port, (s.dev.st = DevState.standby ∨ s.dev.st = DevState.run ∨ s.dev.st = DevState.safe) ∧
        s.clk.time + 32 < (s.port p).driveEnd) :=
  ⟨⟨onTarn id, .a, by decide⟩,
    ⟨onTarn id, .a, by decide⟩,
    ⟨onTarn id, .b, by decide⟩,
    ⟨onTarn (fun x => { x with pos := 1, map := 8#64 }), .a, 3, by decide⟩,
    ⟨onTarn (fun x => { x with pos := 2, map := 8#64, cycle := 31 }), .a, by decide, by decide, by decide, 3, by decide⟩,
    ⟨onTarn (fun x => { x with pos := 2, map := 8#64, cycle := 31, nextExt := 4 }), .a, by decide, by decide, by decide, 3, by decide⟩,
    ⟨onTarn (fun x => { x with pos := 1, map := 0#64, cycle := 31 }), .a, by decide⟩,
    ⟨polling 1, .a, { addr := 3, kind := 1, seq := 0, budget := 4 }, reply 3 0 0 [1, 2, 3, 4], by decide⟩,
    ⟨polling 1, .a, { addr := 3, kind := 1, seq := 0, budget := 4 }, reply 3 0 0x41 [1, 2, 0, 0x34], 6, by decide⟩,
    ⟨polling 1, .a, by decide⟩,
    ⟨tarn3 (fun x => { x with quarantined := true }) (polling 1), .a, { addr := 3, kind := 1, seq := 0, budget := 4 }, reply 3 0 0 [1, 2, 3, 4],
        by decide⟩,
    ⟨tarn3 (fun x => { x with tie := some (true, none) }) (polling 2), .a, { addr := 3, kind := 2, seq := 0, budget := 4 }, reply 3 0 0 [1, 2, 3,
        4], 3, .noReply .a, by decide⟩,
    ⟨(onTarn (fun x => { x with pos := 1, map := 8#64, driveEnd := 8000000033, poll := some { addr := 3, kind := 1, seq := 0, budget := 4 } })), .a,
        by decide⟩⟩
theorem witness_JtagRows :
    (∃ code : Byte, jtagCodes.contains code = false) ∧
    (∃ code : Byte, jtagCodes.contains code = true) ∧
    (∃ s : State, ∃ h : HalfId, s.dev.st ≠ DevState.cold ∧ s.jtag.loadPhase = 0 ∧ ((s.sum.half h).eligible = true ∨ s.dev.st = DevState.run)) ∧
    (∃ s : State, ∃ h : HalfId, s.dev.st ≠ DevState.cold ∧ s.jtag.loadPhase = 0 ∧ (s.sum.half h).eligible = false ∧ s.dev.st ≠ DevState.run) ∧
    (∃ s : State, ∃ w : Word, s.dev.st ≠ DevState.cold ∧ s.jtag.loadPhase = 0 ∧ BitVec.toNat w ≠ 1279524864 ∧ BitVec.toNat w ≠ 1279524865) ∧
    (∃ s : State, ∃ h : HalfId, ∃ w : Word, ∃ j : Nat, s.dev.st ≠ DevState.cold ∧ s.jtag.loadPhase = 2 ∧ s.jtag.loadTarget = some h ∧
        s.jtag.loadWords = j + 1 ∧ (j < 3 ∨ 4 * (j + 1) < 256 + (if j < 131072 then s.sum.program (bankOf h) j w else s.sum).imageLen (bankOf h))) ∧
    (∃ s : State, ∃ h : HalfId, ∃ w : Word, ∃ j : Nat, s.dev.st ≠ DevState.cold ∧ s.jtag.loadPhase = 2 ∧ s.jtag.loadTarget = some h ∧
        s.jtag.loadWords = j + 1 ∧ 3 ≤ j ∧ 256 + (if j < 131072 then s.sum.program (bankOf h) j w else s.sum).imageLen (bankOf h) ≤ 4 * (j + 1)) ∧
    (∃ s : State, s.dev.st ≠ DevState.cold ∧ s.jtag.loadPhase = 1) ∧
    (∃ s : State, s.dev.st = DevState.cold) ∧
    (∃ s : State, s.jtag.loadPhase ≠ 1) ∧
    (∃ s : State, ∃ w : Word, s.dev.st ≠ DevState.cold ∧ s.dev.st ≠ DevState.holdup ∧ BitVec.toNat w / 65536 = 17479 ∧ BitVec.toNat w % 32 = 1) ∧
    (∃ s : State, ∃ w : Word, s.dev.st ≠ DevState.cold ∧ s.dev.st ≠ DevState.holdup ∧ BitVec.toNat w / 65536 = 17479 ∧ BitVec.toNat w % 32 = 2 ∧
        s.pmb.jobs = []) ∧
    (∃ s : State, ∃ w : Word, s.dev.st ≠ DevState.cold ∧ s.dev.st ≠ DevState.holdup ∧ BitVec.toNat w / 65536 = 17479 ∧ BitVec.toNat w % 32 = 16) ∧
    (∃ s : State, ∃ w : Word, s.dev.st ≠ DevState.cold ∧ s.dev.st ≠ DevState.holdup ∧ BitVec.toNat w / 65536 = 17479 ∧ BitVec.toNat w % 32 = 8) ∧
    (∃ s : State, ∃ w : Word, s.dev.st ≠ DevState.cold ∧ s.dev.st ≠ DevState.holdup ∧ BitVec.toNat w / 65536 = 17479 ∧ BitVec.toNat w % 32 = 4) ∧
    (∃ s : State, ∃ w : Word, s.dev.st ≠ DevState.cold ∧ s.dev.st ≠ DevState.holdup ∧ BitVec.toNat w / 65536 = 17479 ∧ debugReqOf w = none) ∧
    (∃ s : State, ∃ w : Word, BitVec.toNat w / 65536 ≠ 17479 ∨ s.dev.st = DevState.cold ∨ s.dev.st = DevState.holdup) :=
  ⟨⟨0x55, by decide⟩,
    ⟨0xA2, by decide⟩,
    ⟨served .run, .east, by decide⟩,
    ⟨notEligible, .west, by decide⟩,
    ⟨served .run, 0x1234, by decide⟩,
    ⟨loading 2 1, .west, 0x4C440000, 0, by decide⟩,
    ⟨loadedImage, .west, 5, 63, by decide⟩,
    ⟨loading 1 1, by decide⟩,
    ⟨inState .cold, by decide⟩,
    ⟨served .run, by decide⟩,
    ⟨served .run, 0x44470001, by decide⟩,
    ⟨served .run, 0x44470102, by decide⟩,
    ⟨served .run, 0x44470110, by decide⟩,
    ⟨served .run, 0x44470108, by decide⟩,
    ⟨served .run, 0x44470104, by decide⟩,
    ⟨served .run, 0x44470003, by decide⟩,
    ⟨served .run, 0x4C440000, by decide⟩⟩
theorem witness_BoundsKept : Bounds (inState .run) ∧ ∃ t, step (inState .run) = .next t := ⟨by unfold Bounds StoreOk; decide, _, rfl⟩
theorem witness_FloorNeverFalls : ∃ s t : State, step s = .next t := ⟨served .run, _, rfl⟩
theorem witness_RegulationFrame : ∃ i : Instr, i = .tokenCheck ∨ i = .halfComparison := ⟨.tokenCheck, .inl rfl⟩

end Sys2Proof.Tests
end

section
/-!
PROOF of O21 (R42, R479): DEV.COMPAT and the phase map are written only in STANDBY, and the next entry to RUN takes them.
Three parts: the judgement of such a write; what an entry to RUN puts in force; and that neither the writes of one commit tag nor
ledger recovery can change whether the transition to RUN is taken (R34).
-/
namespace Sys2Proof.Machine

/-! ### A register write, accepted or refused -/

theorem State.writeReg_of_accepted {s : State} {i : Iface} {x : Slot} {w : Word} (hc : s.carries i = true)
    (ht : s.noTarget i x = false) (hr : s.refuse i x w = 0) :
    s.writeReg i x w = { s.accept i x w none with mb := { (s.accept i x w none).mb with lastAnswer := 0 } } := by
  simp [State.writeReg, hc, ht, hr]

theorem State.writeReg_of_refused {s : State} {i : Iface} {x : Slot} {w : Word} (hc : s.carries i = true)
    (ht : s.noTarget i x = false) {a : Nat} (ha : a ≠ 0) (hr : s.refuse i x w = a) :
    s.writeReg i x w = { s with mb := { s.mb with lastAnswer := a } } := by
  simp [State.writeReg, hc, ht, hr, ha]

/-! ### The judgement of a write of DEV.COMPAT and of the map -/

theorem GP.compat_decode (w : Word) : GP.compat.row.fmt.decode w = ((w.toNat % 2 : Nat) : Int) := by
  simp [GP.row, Fmt.decode]

theorem GP.compatMap_decode (k : Fin 6) (w : Word) : (GP.compatMap k).row.fmt.decode w = (w.toNat : Int) := by
  simp [GP.row, Fmt.decode]

theorem Row.within_of_le {r : Row} {v : Int} (hl : r.lo ≤ v) (hh : v ≤ r.hi) : r.within v = true := by
  simp only [Row.within, hl, hh, decide_true, Bool.and_self]

theorem State.refuseGlob_compat (s : State) (w : Word) :
    s.refuseGlob .compat ((w.toNat % 2 : Nat) : Int) = if s.dev.st = .standby then 0 else ansState := by
  have hw : GP.compat.row.within ((w.toNat % 2 : Nat) : Int) = true :=
    Row.within_of_le (Int.natCast_nonneg _) (show ((w.toNat % 2 : Nat) : Int) ≤ 4294967295 by omega)
  rw [State.refuseGlob, hw]
  rfl

theorem State.refuseGlob_compatMap (s : State) (k : Fin 6) (w : Word) :
    s.refuseGlob (.compatMap k) (w.toNat : Int) =
      if s.dev.st = .standby then (if s.mapOk k (w.toNat : Int) then 0 else ansRange) else ansState := by
  have hw : (GP.compatMap k).row.within (w.toNat : Int) = true :=
    Row.within_of_le (Int.natCast_nonneg _) (show (w.toNat : Int) ≤ 4294967295 by omega)
  rw [State.refuseGlob, hw]
  rfl

/-- Outside STANDBY the compatibility view and the entry itself refuse alike, so the view does not show in the answer (R481). -/
theorem State.refuse_m1_glob {s : State} {g : GP} {w : Word} (hu : g.row.cls = .ur)
    (ho : s.dev.st ≠ .standby → s.refuseGlob g (g.row.fmt.decode w) = ansState) :
    s.refuse .m1 (.glob g) w = s.refuseGlob g (g.row.fmt.decode w) := by
  have hm : mayWrite .m1 (Slot.glob g).cls = true := by rw [Slot.cls, hu]; rfl
  unfold State.refuse
  by_cases hs : s.dev.st = .standby
  · simp [hs, hm]
  · simp [hm, ho hs]

theorem State.refuse_m1_compat (s : State) (w : Word) :
    s.refuse .m1 (.glob .compat) w = if s.dev.st = .standby then 0 else ansState := by
  rw [State.refuse_m1_glob rfl, GP.compat_decode, State.refuseGlob_compat]
  intro h
  rw [GP.compat_decode, State.refuseGlob_compat, if_neg h]

theorem State.refuse_m1_compatMap (s : State) (k : Fin 6) (w : Word) :
    s.refuse .m1 (.glob (.compatMap k)) w =
      if s.dev.st = .standby then (if s.mapOk k (w.toNat : Int) then 0 else ansRange) else ansState := by
  rw [State.refuse_m1_glob rfl, GP.compatMap_decode, State.refuseGlob_compatMap]
  intro h
  rw [GP.compatMap_decode, State.refuseGlob_compatMap, if_neg h]

theorem State.accept_compat (s : State) (i : Iface) (w : Word) (r : Option Req) :
    s.accept i (.glob .compat) w r = s.setGlobNew .compat ((w.toNat % 2 : Nat) : Int) :=
  congrArg (s.setGlobNew .compat) (GP.compat_decode w)

theorem State.accept_compatMap (s : State) (i : Iface) (k : Fin 6) (w : Word) (r : Option Req) :
    s.accept i (.glob (.compatMap k)) w r = s.setGlobNew (.compatMap k) (w.toNat : Int) :=
  congrArg (s.setGlobNew (.compatMap k)) (GP.compatMap_decode k w)

section Writes
variable {s : State} (hc : s.carries .m1 = true) (w : Word)
include hc

theorem exec_compat_of_standby (hs : s.dev.st = .standby) :
    exec (.compat .m1 w) s = .next { s with
      gAcc := (s.setGlobNew .compat ((w.toNat % 2 : Nat) : Int)).gAcc, mb := { s.mb with lastAnswer := 0 } } := by
  have h := State.writeReg_of_accepted hc (x := .glob .compat) (w := w) rfl (by rw [State.refuse_m1_compat, if_pos hs])
  rw [State.accept_compat] at h
  exact congrArg Host.Outcome.next h

theorem exec_compat_of_not_standby (hs : s.dev.st ≠ .standby) :
    exec (.compat .m1 w) s = .next { s with mb := { s.mb with lastAnswer := ansState } } :=
  congrArg Host.Outcome.next
    (State.writeReg_of_refused hc rfl (by decide) (by rw [State.refuse_m1_compat, if_neg hs]))

variable (k : Fin 6)

theorem exec_compatMap_of_mapOk (hs : s.dev.st = .standby) (hm : s.mapOk k (w.toNat : Int) = true) :
    exec (.compatMap .m1 k w) s = .next { s with
      gAcc := (s.setGlobNew (.compatMap k) (w.toNat : Int)).gAcc, mb := { s.mb with lastAnswer := 0 } } := by
  have h := State.writeReg_of_accepted hc (x := .glob (.compatMap k)) (w := w) rfl
    (by rw [State.refuse_m1_compatMap, if_pos hs, if_pos hm])
  rw [State.accept_compatMap] at h
  exact congrArg Host.Outcome.next h

theorem exec_compatMap_of_not_mapOk (hs : s.dev.st = .standby) (hm : s.mapOk k (w.toNat : Int) = false) :
    exec (.compatMap .m1 k w) s = .next { s with mb := { s.mb with lastAnswer := ansRange } } :=
  congrArg Host.Outcome.next (State.writeReg_of_refused hc rfl (by decide)
    (by rw [State.refuse_m1_compatMap, if_pos hs, if_neg (by simp [hm])]))

theorem exec_compatMap_of_not_standby (hs : s.dev.st ≠ .standby) :
    exec (.compatMap .m1 k w) s = .next { s with mb := { s.mb with lastAnswer := ansState } } :=
  congrArg Host.Outcome.next (State.writeReg_of_refused hc rfl (by decide) (by rw [State.refuse_m1_compatMap, if_neg hs]))

end Writes

/-! ### What an entry to RUN puts in force -/

theorem State.goto_dev (s : State) (st : DevState) : ∃ m, (s.goto st).dev = { s.dev with st := st, movedAt := m } := by
  unfold State.goto
  split
  · rename_i h
    exact ⟨s.dev.movedAt, by rw [← h]⟩
  · exact ⟨some s.fab, State.event_dev _ _ _ _ _⟩

theorem State.goto_gAcc (s : State) (st : DevState) : (s.goto st).gAcc = s.gAcc := by
  unfold State.goto
  split
  · rfl
  · exact State.event_gAcc _ _ _ _ _

theorem State.goto_gInF (s : State) (st : DevState) : (s.goto st).gInF = s.gInF := by
  unfold State.goto
  split
  · rfl
  · exact State.event_gInF _ _ _ _ _

/-- The newest accepted value of a global comes in force: one step of the fold of `State.enterRun`. -/
def State.forceNewest (s : State) (g : GP) : State := s.setGlobForce g (s.gNew g)

theorem State.forceNewest_gp (s : State) (g : GP) : (s.forceNewest g).gp g = s.gNew g := by
  simp [State.forceNewest, State.setGlobForce, State.gp]

theorem State.forceNewest_gp_kept {s : State} {g : GP} (hg : s.gp g = s.gNew g) (h : GP) : (s.forceNewest h).gp g = s.gNew g := by
  unfold State.gp State.gNew at hg
  simp only [State.forceNewest, State.setGlobForce, State.gp, State.gNew, Vector.getElem_set]
  split
  · rename_i e
    simp only [e]
  · exact hg

theorem State.foldl_forceNewest_gp {l : List GP} {s : State} {g : GP} (hg : g ∈ l ∨ s.gp g = s.gNew g) :
    (l.foldl State.forceNewest s).gp g = s.gNew g := by
  induction l generalizing s with
  | nil => exact hg.resolve_left (List.not_mem_nil)
  | cons h l ih =>
    refine ih (s := s.forceNewest h) ?_
    rcases hg with hg | hg
    · rcases List.mem_cons.mp hg with rfl | hg
      · exact .inr (s.forceNewest_gp g)
      · exact .inl hg
    · exact .inr (State.forceNewest_gp_kept hg h)

/-- RUN, with the view and the map that `s` holds as its newest accepted ones in force (R42, R479). -/
def State.RunsWithNewest (s t : State) : Prop :=
  t.dev.st = .run ∧ t.dev.compatEn = decide (s.gNew .compat = 1) ∧ ∀ k : Fin 6, t.dev.compatMap[k] = s.gNew (.compatMap k)

theorem State.RunsWithNewest.of_gAcc {s u t : State} (e : u.gAcc = s.gAcc) (h : u.RunsWithNewest t) : s.RunsWithNewest t := by
  have hg : u.gNew = s.gNew := by
    funext g
    unfold State.gNew
    simp only [e]
  unfold State.RunsWithNewest at h ⊢
  rwa [hg] at h

theorem State.RunsWithNewest.of_dev {s t u : State} (e : u.dev = t.dev) (h : s.RunsWithNewest t) : s.RunsWithNewest u := by
  unfold State.RunsWithNewest at h ⊢
  rwa [e]

/-- DEV.COMPAT and the words of the phase map: the globals that take effect at the entry to RUN (R42, R479). -/
def compatGlobals : List GP := [GP.compat] ++ (List.finRange 6).map GP.compatMap

/-- What an entry to RUN puts in force before the transition itself: the newest globals, and from them the view and the map. -/
def State.takeView (s : State) : State :=
  let u := compatGlobals.foldl State.forceNewest s
  { u with dev := { u.dev with runReq := true, compatEn := decide (u.gp .compat = 1)
                               compatMap := Vector.ofFn (fun k : Fin 6 => u.gp (.compatMap k)) } }

theorem State.enterRun_eq (s : State) : s.enterRun = (s.takeView.modCtx 0 (fun x => { x with inputSeen := false })).goto .run := rfl

theorem State.takeView_compatEn (s : State) : s.takeView.dev.compatEn = decide (s.gNew .compat = 1) := by
  have hg : (compatGlobals.foldl State.forceNewest s).gp .compat = s.gNew .compat :=
    State.foldl_forceNewest_gp (.inl (by simp [compatGlobals]))
  rw [← hg]
  rfl

theorem State.takeView_compatMap (s : State) (k : Fin 6) : s.takeView.dev.compatMap[k] = s.gNew (.compatMap k) := by
  have hg : (compatGlobals.foldl State.forceNewest s).gp (.compatMap k) = s.gNew (.compatMap k) :=
    State.foldl_forceNewest_gp (.inl (by simp [compatGlobals]))
  simpa [State.takeView] using hg

theorem State.enterRun_runsWithNewest (s : State) : s.RunsWithNewest s.enterRun := by
  obtain ⟨m, hm⟩ := State.goto_dev (s.takeView.modCtx 0 (fun x => { x with inputSeen := false })) .run
  rw [← State.enterRun_eq, State.modCtx_dev] at hm
  unfold State.RunsWithNewest
  rw [hm]
  exact ⟨rfl, s.takeView_compatEn, s.takeView_compatMap⟩

/-- BOOT with AUTO_RUN passes through STANDBY and enters RUN (R33). -/
theorem State.endBoot_runsWithNewest {s : State} (ha : s.gp .autoRun = 2) : s.RunsWithNewest s.endBoot := by
  have ha' : (s.goto .standby).gp .autoRun = 2 := by unfold State.gp at ha ⊢; simpa only [State.goto_gInF] using ha
  have hb : s.endBoot = (s.goto .standby).enterRun := by simp [State.endBoot, ha']
  rw [hb]
  exact (State.enterRun_runsWithNewest _).of_gAcc (s.goto_gAcc .standby)

/-! ### When a transition is taken (R34) -/

theorem State.mayMove_congr {s t : State} (hm : t.dev.movedAt = s.dev.movedAt) (hk : t.clk = s.clk) (hp : t.pending = s.pending)
    (ht : ∀ i, t.trigger i = s.trigger i) (x : Trig) : t.mayMove x = s.mayMove x := by
  rw [State.mayMove, State.mayMove, State.fab, State.fab, hm, hk, hp, funext ht]

theorem State.safeFrom_congr {s t : State} (hs : t.dev.st = s.dev.st) (hb : 4 ≤ t.dev.bootStep ↔ 4 ≤ s.dev.bootStep) :
    t.safeFrom = s.safeFrom := by
  simp only [State.safeFrom, hs, hb]

theorem State.trigger_congr {s t : State} (hs : t.dev.st = s.dev.st) (hb : 4 ≤ t.dev.bootStep ↔ 4 ≤ s.dev.bootStep)
    (hk : t.clk = s.clk) (hf : ∀ i, t.forcesSafe i = s.forcesSafe i) (i : Instr) : t.trigger i = s.trigger i := by
  unfold State.trigger
  rw [hs, hk, State.safeFrom_congr hs hb, funext hf]

/-! ### The writes of RUN_CTL at their commit tag leave every trigger as it was -/

/-- The state with AUTO_RUN in force and RUN_REQ written, and with other writes waiting: what the writes of RUN_CTL do before the
transition itself. -/
def State.withRunCtl (s : State) (waiting : List Commit) (auto : Int) (on : Bool) : State :=
  { s with commits := waiting, gInF := s.gInF.set GP.autoRun.ix auto GP.autoRun.ix_lt, dev := { s.dev with runReq := on } }

section RunCtl
variable (s : State) (l : List Commit) (a : Int) (on : Bool)

theorem State.withRunCtl_gp {g : GP} (hg : g.ix ≠ GP.autoRun.ix) : (s.withRunCtl l a on).gp g = s.gp g :=
  Vector.getElem_set_ne GP.autoRun.ix_lt g.ix_lt hg.symm

theorem State.withRunCtl_txEn : (s.withRunCtl l a on).gp .txEn = s.gp .txEn := s.withRunCtl_gp l a on (by decide)
theorem State.withRunCtl_ntcR25 : (s.withRunCtl l a on).gp .ntcR25 = s.gp .ntcR25 := s.withRunCtl_gp l a on (by decide)
theorem State.withRunCtl_ntcB : (s.withRunCtl l a on).gp .ntcB = s.gp .ntcB := s.withRunCtl_gp l a on (by decide)
theorem State.withRunCtl_txZone (k : Fin 2) : (s.withRunCtl l a on).gp (.txZone k) = s.gp (.txZone k) :=
  s.withRunCtl_gp l a on (by simp only [GP.ix]; omega)
theorem State.withRunCtl_therm (k : Fin 9) : (s.withRunCtl l a on).gp (.therm k) = s.gp (.therm k) :=
  s.withRunCtl_gp l a on (by simp only [GP.ix]; omega)
theorem State.withRunCtl_th : (s.withRunCtl l a on).th = s.th := rfl
theorem State.withRunCtl_clk : (s.withRunCtl l a on).clk = s.clk := rfl

theorem State.withRunCtl_txOn : (s.withRunCtl l a on).txOn = s.txOn := by
  funext k
  simp only [State.txOn, State.withRunCtl_txEn]
theorem State.withRunCtl_zoneOfTx : (s.withRunCtl l a on).txZone = s.txZone := by
  funext k
  simp only [State.txZone, State.withRunCtl_txZone]
theorem State.withRunCtl_thrT : (s.withRunCtl l a on).thrT = s.thrT := by
  funext z n
  simp only [State.thrT, State.withRunCtl_therm]
theorem State.withRunCtl_thrH : (s.withRunCtl l a on).thrH = s.thrH := by
  funext z n
  simp only [State.thrH, State.withRunCtl_therm]
theorem State.withRunCtl_sensorZone : (s.withRunCtl l a on).sensorZone = s.sensorZone := by
  funext k
  simp only [State.sensorZone, State.withRunCtl_zoneOfTx]
theorem State.withRunCtl_members : (s.withRunCtl l a on).members = s.members := by
  funext z
  unfold State.members
  rw [State.withRunCtl_zoneOfTx, State.withRunCtl_txOn, State.withRunCtl_th]
theorem State.withRunCtl_sensorFast : (s.withRunCtl l a on).sensorFast = s.sensorFast := by
  funext k
  unfold State.sensorFast
  rw [State.withRunCtl_sensorZone, State.withRunCtl_thrT, State.withRunCtl_thrH, State.withRunCtl_th]
theorem State.withRunCtl_zoneFast : (s.withRunCtl l a on).zoneFast = s.zoneFast := by
  funext z
  unfold State.zoneFast
  rw [State.withRunCtl_sensorZone, State.withRunCtl_txOn, State.withRunCtl_sensorFast]
theorem State.withRunCtl_zoneValue : (s.withRunCtl l a on).zoneValue = s.zoneValue := by
  funext z
  unfold State.zoneValue
  rw [State.withRunCtl_members, State.withRunCtl_th]
theorem State.withRunCtl_zoneNext : (s.withRunCtl l a on).zoneNext = s.zoneNext := by
  funext z v
  unfold State.zoneNext State.candidate
  rw [State.withRunCtl_members, State.withRunCtl_thrT, State.withRunCtl_thrH, State.withRunCtl_th]

/-- A temperature sample finds nothing changed, and leaves the writes as they are. -/
theorem State.withRunCtl_tempSample (x : TempSample) :
    (s.withRunCtl l a on).tempSample x = (s.tempSample x).withRunCtl l a on := by
  cases x with
  | die k v => rfl
  | tx k r =>
    unfold State.tempSample
    dsimp only
    rw [State.withRunCtl_txOn, State.withRunCtl_ntcR25, State.withRunCtl_ntcB]
    split <;> rfl

theorem State.withRunCtl_sampleAt (x : TempSample) : (s.withRunCtl l a on).sampleAt x = (s.sampleAt x).withRunCtl l a on := by
  unfold State.sampleAt
  dsimp only
  rw [State.withRunCtl_sensorFast, State.withRunCtl_th, State.withRunCtl_clk]
  split
  · exact State.withRunCtl_tempSample
      { s with th := { s.th with sampledAt := upd s.th.sampledAt (sensorOf x) (fun _ => some s.clk.time) } } l a on x
  · rfl

theorem State.withRunCtl_samples (xs : List TempSample) :
    xs.foldl State.sampleAt (s.withRunCtl l a on) = (xs.foldl State.sampleAt s).withRunCtl l a on := by
  induction xs generalizing s with
  | nil => rfl
  | cons x xs ih => rw [List.foldl_cons, List.foldl_cons, State.withRunCtl_sampleAt, ih]

theorem State.withRunCtl_vmeasNext : (s.withRunCtl l a on).vmeasNext = s.vmeasNext := by
  have hcell : (s.withRunCtl l a on).cell 0 = s.cell 0 := rfl
  have hgain : (s.withRunCtl l a on).vgain 0 = s.vgain 0 := rfl
  have hoff : (s.withRunCtl l a on).voff 0 = s.voff 0 := rfl
  unfold State.vmeasNext
  rw [hcell, hgain, hoff]

theorem State.withRunCtl_forcesSafe (i : Instr) : (s.withRunCtl l a on).forcesSafe i = s.forcesSafe i := by
  unfold State.forcesSafe
  split
  · rw [State.withRunCtl_vmeasNext]
    rfl
  · rfl
  · rfl
  · dsimp only
    rw [State.withRunCtl_samples, State.withRunCtl_zoneFast, State.withRunCtl_zoneValue, State.withRunCtl_zoneNext]
    rfl
  · rfl
  · rfl

theorem State.withRunCtl_mayMove (x : Trig) : (s.withRunCtl l a on).mayMove x = s.mayMove x :=
  State.mayMove_congr (s := s) (t := s.withRunCtl l a on) rfl rfl rfl
    (State.trigger_congr (s := s) (t := s.withRunCtl l a on) rfl Iff.rfl rfl (s.withRunCtl_forcesSafe l a on)) x

end RunCtl

theorem State.missed_dev (b s : State) (writes : Bool) (h : HalfId) : (b.missed s writes h).dev = s.dev := by
  unfold State.missed
  dsimp only
  split
  · simp [State.loseElig]
  · rfl

theorem exec_commitTag_runReq_of_mayMove {s : State} {n : Nat} {a : Int} (hn : n ≤ s.enables)
    (hc : s.commits = [⟨n, .glob .autoRun a⟩, ⟨n, .runReq true⟩]) (hs : s.dev.st = .standby) (hm : s.mayMove .run = true) :
    Completes .commitTag s s.RunsWithNewest := by
  have hdue (x : Act) : Commit.due ⟨n, x⟩ s.enables = true := decide_eq_true hn
  let u := s.withRunCtl [] a true
  have hu : u.move .run State.enterRun = u.enterRun := if_pos ((s.withRunCtl_mayMove [] a true .run).trans hm)
  have hrun : (({ s with commits := [] } : State).setGlobForce .autoRun a).runApply true = u.enterRun := (if_pos hs).trans hu
  have he : exec .commitTag s = .next (s.missed (s.missed u.enterRun true .east) true .west) := by
    rw [← hrun]
    show execCommitTag s = _
    simp only [execCommitTag, hc, List.filter_cons, hdue]
    rfl
  exact ⟨_, he, ((State.enterRun_runsWithNewest u).of_gAcc rfl).of_dev (by rw [State.missed_dev, State.missed_dev])⟩

/-! ### Ledger recovery leaves alone what transitions and parameters are read from -/

/-- Two contexts alike in what a fault is found from: the parameters in force, the protection, the channel and the rail's sensing. -/
structure Ctx.SameControl (x y : Ctx) : Prop where
  inF : y.inF = x.inF
  prot : y.prot = x.prot
  chan : y.chan = x.chan
  sense : y.sense = x.sense

/-- What the operations of ledger recovery leave alone: the device state and the instant of its last transition, the clock, the
summit, the queue of waiting commands, the globals, and in each context all that a fault is found from. -/
structure LedgerFrame (s t : State) : Prop where
  st : t.dev.st = s.dev.st
  movedAt : t.dev.movedAt = s.dev.movedAt
  clk : t.clk = s.clk
  sum : t.sum = s.sum
  pending : t.pending = s.pending
  gAcc : t.gAcc = s.gAcc
  gInF : t.gInF = s.gInF
  ctx : ∀ c : CtxId, Ctx.SameControl s.ctx[c] t.ctx[c]

theorem Ctx.SameControl.refl (x : Ctx) : Ctx.SameControl x x := ⟨rfl, rfl, rfl, rfl⟩
theorem Ctx.SameControl.trans {x y z : Ctx} (h : Ctx.SameControl x y) (k : Ctx.SameControl y z) : Ctx.SameControl x z :=
  ⟨k.inF.trans h.inF, k.prot.trans h.prot, k.chan.trans h.chan, k.sense.trans h.sense⟩
theorem LedgerFrame.refl (s : State) : LedgerFrame s s := ⟨rfl, rfl, rfl, rfl, rfl, rfl, rfl, fun _ => .refl _⟩
theorem LedgerFrame.trans {s t u : State} (h : LedgerFrame s t) (k : LedgerFrame t u) : LedgerFrame s u :=
  ⟨k.st.trans h.st, k.movedAt.trans h.movedAt, k.clk.trans h.clk, k.sum.trans h.sum, k.pending.trans h.pending,
    k.gAcc.trans h.gAcc, k.gInF.trans h.gInF, fun c => (h.ctx c).trans (k.ctx c)⟩
theorem LedgerFrame.of_ctx {s t : State} (h1 : t.dev = s.dev) (h2 : t.clk = s.clk) (h3 : t.sum = s.sum) (h4 : t.pending = s.pending)
    (h5 : t.gAcc = s.gAcc) (h6 : t.gInF = s.gInF) (h7 : t.ctx = s.ctx) : LedgerFrame s t :=
  ⟨congrArg Dev.st h1, congrArg Dev.movedAt h1, h2, h3, h4, h5, h6, fun _ => h7 ▸ .refl _⟩
theorem LedgerFrame.ite {s t u : State} {c : Prop} [Decidable c] (ht : LedgerFrame s t) (hu : LedgerFrame s u) :
    LedgerFrame s (if c then t else u) := by split <;> assumption
theorem LedgerFrame.foldl {α : Type} {f : State → α → State} (hf : ∀ t x, LedgerFrame t (f t x)) (l : List α) (s : State) :
    LedgerFrame s (l.foldl f s) := by
  induction l generalizing s with
  | nil => exact .refl s
  | cons x l ih => exact (hf s x).trans (ih _)

theorem State.modCtx_ledgerFrame (s : State) (c : CtxId) {f : Ctx → Ctx} (hf : ∀ x, Ctx.SameControl x (f x)) :
    LedgerFrame s (s.modCtx c f) := by
  refine ⟨rfl, rfl, rfl, rfl, rfl, rfl, rfl, fun d => ?_⟩
  by_cases hd : d = c
  · subst hd
    rw [State.modCtx_get]
    exact hf _
  · rw [State.modCtx_get_ne _ _ _ _ hd]
    exact .refl _

theorem State.event_ledgerFrame (s : State) (i k : Nat) (a b : Word) : LedgerFrame s (s.event i k a b) :=
  .of_ctx (by simp) (by simp) (by simp) (by simp) (by simp) (by simp) (by simp)
theorem State.request_ledgerFrame (s : State) (r : CairnReq) : LedgerFrame s (s.request r) :=
  .of_ctx (by simp) (by simp) (by simp) (by simp) (by simp) (by simp) (by simp)
theorem State.summary_ledgerFrame (s : State) (i : Fin 69) (k q : Nat) (z : Option Int) (v : Word) :
    LedgerFrame s (s.summary i k q z v) :=
  .of_ctx (by simp) (by simp) (by simp) (by simp) (by simp) (by simp) (by simp)

theorem State.nv_ledgerFrame (s : State) (x : Store) : LedgerFrame s { s with nv := x } := .of_ctx rfl rfl rfl rfl rfl rfl rfl
theorem State.led_ledgerFrame (s : State) (x : Ledger) : LedgerFrame s { s with led := x } := .of_ctx rfl rfl rfl rfl rfl rfl rfl
theorem State.free_ledgerFrame (s : State) (n : Nat) : LedgerFrame s { s with free := n } := .of_ctx rfl rfl rfl rfl rfl rfl rfl
theorem State.bootStep_ledgerFrame (s : State) (n : Nat) : LedgerFrame s { s with dev := { s.dev with bootStep := n } } :=
  ⟨rfl, rfl, rfl, rfl, rfl, rfl, rfl, fun _ => .refl _⟩
theorem State.halves_ledgerFrame (s : State) (f : Half → Half) : LedgerFrame s (s.halves f) := .of_ctx rfl rfl rfl rfl rfl rfl rfl

theorem State.storeTo_ledgerFrame (s : State) (x : Store) : LedgerFrame s (s.storeTo x) := by
  have hloop (l : List Nat) := LedgerFrame.foldl (fun (t : State) (b : Nat) =>
    (t.event_ledgerFrame srcStore.val evStore t.nvmStatusWord 0).trans (State.summary_ledgerFrame _ srcStore evStore 0xFF none (word b)))
    l { s with nv := x }
  unfold State.storeTo
  dsimp only
  split
  · exact ((s.nv_ledgerFrame x).trans (hloop _)).trans (State.event_ledgerFrame _ _ _ _ _)
  · exact (s.nv_ledgerFrame x).trans (hloop _)

theorem State.putRecord_ledgerFrame (s : State) (a : Area) (typ ident len : Nat) (b : List Byte) :
    LedgerFrame s (s.putRecord a typ ident len b) :=
  (s.storeTo_ledgerFrame _).trans (State.storeTo_ledgerFrame _ _)

theorem State.openItem_ledgerFrame (s : State) (kind field run : Nat) (raw : List Byte) (lost : Nat) :
    LedgerFrame s (s.openItem kind field run raw lost) := by
  unfold State.openItem
  extract_lets b _ u _ v
  have hu : LedgerFrame s u := by
    unfold u
    split <;> exact s.led_ledgerFrame _
  clear_value u
  split
  · exact ((hu.trans (u.led_ledgerFrame _)).trans (State.putRecord_ledgerFrame _ _ _ _ _ _)).trans (State.event_ledgerFrame _ _ _ _ _)
  · exact (hu.trans (u.led_ledgerFrame _)).trans (State.request_ledgerFrame _ _)

theorem State.reportTies_ledgerFrame (s : State) (a : Area) : LedgerFrame s (s.reportTies a) :=
  .foldl (fun t _ => ((t.nv_ledgerFrame _).trans (State.event_ledgerFrame _ _ _ _ _)).trans (State.summary_ledgerFrame _ _ _ _ _ _)) _ _

theorem State.recoverItem_ledgerFrame (s : State) (k : Fin 32) : LedgerFrame s (s.recoverItem k) := by
  unfold State.recoverItem
  split
  · exact .refl s
  · dsimp only
    split
    · exact s.led_ledgerFrame _
    · split
      · exact s.putRecord_ledgerFrame _ _ _ _ _
      · exact (s.putRecord_ledgerFrame _ _ _ _ _).trans (State.led_ledgerFrame _ _)
    · exact .refl s

theorem State.baseRestore_ledgerFrame (s : State) (c : CtxId) : LedgerFrame s (s.baseRestore c) := by
  unfold State.baseRestore
  split
  · exact .refl s
  · exact s.modCtx_ledgerFrame c (fun x => ⟨rfl, rfl, rfl, rfl⟩)

theorem Ctx.setMark_sameControl (x : Ctx) (energy b : Bool) : Ctx.SameControl x (x.setMark energy b) := by
  cases energy <;> exact ⟨rfl, rfl, rfl, rfl⟩

theorem Ctx.addCount_sameControl (x : Ctx) (energy : Bool) (v : Int) :
    Ctx.SameControl x (if energy then { x with energy := x.energy + v } else { x with charge := x.charge + v }) := by
  cases energy <;> exact ⟨rfl, rfl, rfl, rfl⟩

theorem State.addEntry_ledgerFrame (s : State) (a : Fin 128) (cls : Bool) (q : Nat) (v : Int) :
    LedgerFrame s (s.addEntry a cls q v) := by
  unfold State.addEntry
  split
  · refine s.modCtx_ledgerFrame _ (fun x => ?_)
    have hx : Ctx.SameControl x (if cls then x.setMark (accEnergy a) true else x) := by
      split
      · exact x.setMark_sameControl _ _
      · exact .refl x
    exact hx.trans (Ctx.addCount_sameControl _ _ _)
  · exact .refl s

theorem State.tornEntry_ledgerFrame (s : State) (k : Nat) : LedgerFrame s (s.tornEntry k) := by
  unfold State.tornEntry
  extract_lets raw held u
  have hu : LedgerFrame s u := by
    unfold u
    split
    · exact .refl s
    · exact s.openItem_ledgerFrame _ _ _ _ _
  exact hu.trans (u.nv_ledgerFrame _)

theorem State.recoverTally_ledgerFrame (s : State) (k : Nat) : LedgerFrame s (s.recoverTally k) := by
  unfold State.recoverTally
  split
  · exact .refl s
  · exact .refl s
  · exact s.addEntry_ledgerFrame _ _ _ _
  · exact s.tornEntry_ledgerFrame k

theorem State.zeroRem_ledgerFrame (s : State) (i : Nat) : LedgerFrame s (s.zeroRem i) :=
  .foldl (fun t _ => t.halves_ledgerFrame _) _ _
theorem State.restoreRem_ledgerFrame (s : State) (n i : Nat) : LedgerFrame s (s.restoreRem n i) := by
  unfold State.restoreRem
  split
  · exact .foldl (fun t _ => t.halves_ledgerFrame _) _ _
  · exact s.zeroRem_ledgerFrame i

theorem State.openGap_ledgerFrame (s : State) (run : Nat) : LedgerFrame s (s.openGap run) := by
  unfold State.openGap
  split
  · exact s.openItem_ledgerFrame _ _ _ _ _
  · exact (s.free_ledgerFrame _).trans (State.openItem_ledgerFrame _ _ _ _ _ _)

theorem State.runBracket_ledgerFrame (s : State) (first : Bool) : LedgerFrame s (s.runBracket first).1 := by
  have hzero (t : State) : LedgerFrame t ((List.range 10).foldl State.zeroRem t) := .foldl State.zeroRem_ledgerFrame _ t
  have hrem (n : Nat) (t : State) : LedgerFrame t ((List.range 10).foldl (fun t i => t.restoreRem n i) t) :=
    .foldl (fun t i => t.restoreRem_ledgerFrame n i) _ t
  unfold State.runBracket
  split
  · dsimp only
    split
    · exact hzero s
    · exact ((s.openGap_ledgerFrame _).trans (State.openItem_ledgerFrame _ _ _ _ _ _)).trans (hzero _)
  · rename_i o _
    dsimp only
    refine LedgerFrame.trans ?_ (hrem _ _)
    have hgap (c : Bool) : LedgerFrame s (if c then s else s.openGap (recRun o)) := .ite (.refl s) (s.openGap_ledgerFrame _)
    exact (hgap _).trans (.ite (.refl _) (State.openItem_ledgerFrame _ _ _ _ _ _))

theorem State.recoverLedger_ledgerFrame (s : State) : LedgerFrame s s.recoverLedger := by
  have hitems (t : State) : LedgerFrame t ((List.finRange 32).foldl (fun t k => t.recoverItem k) t) := .foldl State.recoverItem_ledgerFrame _ t
  have hbases (t : State) : LedgerFrame t (ctxIds.foldl State.baseRestore t) := .foldl State.baseRestore_ledgerFrame _ t
  have htally (t : State) : LedgerFrame t ((List.range 1024).foldl State.recoverTally t) := .foldl State.recoverTally_ledgerFrame _ t
  unfold State.recoverLedger
  dsimp only
  refine LedgerFrame.trans ?_ (State.led_ledgerFrame _ _)
  refine LedgerFrame.trans ?_ (State.putRecord_ledgerFrame _ _ _ _ _ _)
  refine LedgerFrame.trans ?_ (State.runBracket_ledgerFrame _ _)
  refine LedgerFrame.trans ?_ (State.led_ledgerFrame _ _)
  exact ((hitems s).trans (hbases _)).trans (htally _)

/-! ### In BOOT the same commands force SAFE after ledger recovery -/

section Boot
variable {s t : State} (hf : LedgerFrame s t)
include hf

theorem LedgerFrame.cp (c : CtxId) (p : CP) : t.cp c p = s.cp c p := by simp only [State.cp, Ctx.p, (hf.ctx c).inF]
theorem LedgerFrame.holder : t.holder = s.holder := congrArg Summit.holder hf.sum

theorem LedgerFrame.resp (c : CtxId) (k : FClass) : t.resp c k = s.resp c k := by
  unfold State.resp
  rw [hf.cp, hf.cp]

theorem LedgerFrame.retryCount (c : CtxId) : t.retryCount c = s.retryCount c := by rw [State.retryCount, State.retryCount, hf.cp]

theorem LedgerFrame.recentFailover (c : CtxId) : t.recentFailover c = s.recentFailover c := by
  unfold State.recentFailover
  rw [(hf.ctx c).prot, hf.clk]

theorem LedgerFrame.shadowEligible : t.shadowEligible = s.shadowEligible := by
  unfold State.shadowEligible
  rw [hf.holder, hf.sum]

theorem LedgerFrame.classForces : t.classForces = s.classForces := by
  funext k
  unfold State.classForces
  rw [hf.resp, hf.retryCount, hf.recentFailover, hf.shadowEligible, (hf.ctx 0).prot]

theorem LedgerFrame.converting : t.converting = s.converting := by rw [State.converting, State.converting, hf.clk, hf.st]

theorem LedgerFrame.shuntForces (code : BitVec 12) (vgs : Fin 4) : t.shuntForces code vgs = s.shuntForces code vgs := by
  unfold State.shuntForces
  rw [(hf.ctx 0).chan, hf.classForces, hf.cp]

end Boot

/-- In BOOT no class of the input is declared: the input is not yet judged (R258, R260). -/
theorem State.inputAt_classes_of_boot {s : State} (hs : s.dev.st = .boot) (v : Int) : (s.inputAt v).classes = [] := by
  simp [State.inputAt, InputOut.classes, faultTimer, hs]

theorem LedgerFrame.forcesSafe_of_boot {s t : State} (hf : LedgerFrame s t) (hs : s.dev.st = .boot) (i : Instr) :
    t.forcesSafe i = s.forcesSafe i := by
  have ht : t.dev.st = .boot := hf.st.trans hs
  unfold State.forcesSafe
  split
  · rw [State.inputAt_classes_of_boot hs, State.inputAt_classes_of_boot ht]
    simp only [List.any_nil, Bool.and_false]
  · rw [hf.converting, hf.clk, (hf.ctx 0).sense, hf.classForces]
  · rw [hf.converting, hf.clk, (hf.ctx 0).chan, hf.shuntForces]
  · simp only [hs, ht, ne_eq, not_true_eq_false, decide_false, Bool.and_false, Bool.false_and]
  · rw [hf.holder, hf.sum]
  · rfl

theorem LedgerFrame.mayMove_of_boot {s t : State} (hf : LedgerFrame s t) (hs : s.dev.st = .boot) (h4 : 4 ≤ s.dev.bootStep)
    (ht : 4 ≤ t.dev.bootStep) (x : Trig) : t.mayMove x = s.mayMove x :=
  State.mayMove_congr hf.movedAt hf.clk hf.pending
    (State.trigger_congr hf.st (iff_of_true ht h4) hf.clk (hf.forcesSafe_of_boot hs)) x

/-- Step 6 of the boot sequence, up to the end of BOOT (R40). -/
def State.ledgerRecovered (s : State) : State :=
  let r := (s.reportTies .q1).recoverLedger
  let t := r.storeTo r.nv.cairnAhead
  { t with dev := { t.dev with bootStep := 6 } }

theorem State.ledgerRecovered_ledgerFrame (s : State) : LedgerFrame s s.ledgerRecovered := by
  have hf := ((s.reportTies_ledgerFrame .q1).trans (State.recoverLedger_ledgerFrame _)).trans (State.storeTo_ledgerFrame _
    (s.reportTies .q1).recoverLedger.nv.cairnAhead)
  exact hf.trans (State.bootStep_ledgerFrame _ 6)

theorem exec_ledgerRecovery_of_boot {s : State} (hb : s.bootAt 5 = true) (hs : s.dev.st = .boot) :
    exec .ledgerRecovery s = .next (s.ledgerRecovered.move .standby State.endBoot) := by
  show execLedgerRecovery s = _
  unfold execLedgerRecovery
  rw [if_pos hb]
  exact congrArg Host.Outcome.next (if_pos (s.ledgerRecovered_ledgerFrame.st.trans hs))

theorem exec_ledgerRecovery_of_autoRun {s : State} (hb : s.bootAt 5 = true) (hs : s.dev.st = .boot)
    (hm : s.mayMove .standby = true) (ha : s.gp .autoRun = 2) : Completes .ledgerRecovery s s.RunsWithNewest := by
  have hf := s.ledgerRecovered_ledgerFrame
  have h5 : s.dev.bootStep = 5 := by
    simp only [State.bootAt, Bool.and_eq_true, decide_eq_true_eq] at hb
    exact hb.1
  have hmove : s.ledgerRecovered.move .standby State.endBoot = s.ledgerRecovered.endBoot :=
    if_pos ((hf.mayMove_of_boot hs (by omega) (show 4 ≤ 6 by omega) .standby).trans hm)
  have ha' : s.ledgerRecovered.gp .autoRun = 2 := by
    unfold State.gp at ha ⊢
    simpa only [hf.gInF] using ha
  exact ⟨_, (exec_ledgerRecovery_of_boot hb hs).trans (congrArg _ hmove), (State.endBoot_runsWithNewest ha').of_gAcc hf.gAcc⟩

/-- Settles O21: the judgement of a write case by case, and the two ways into RUN, each of which takes the newest accepted view and
map. -/
theorem compatWrites : Obligations.CompatWrites :=
  ⟨fun _ w hc => ⟨exec_compat_of_standby hc w, exec_compat_of_not_standby hc w, fun k =>
      ⟨exec_compatMap_of_mapOk hc w k, exec_compatMap_of_not_mapOk hc w k, exec_compatMap_of_not_standby hc w k⟩⟩,
    fun _ _ _ hn hc hs hm => exec_commitTag_runReq_of_mayMove hn hc hs hm,
    fun _ hb hs hm ha => exec_ledgerRecovery_of_autoRun hb hs hm ha⟩

end Sys2Proof.Machine
end

section
/-!
PROOF of O28 (R88): the reset coefficients make each biquad an identity. Operands that agree with their tags predict the residue of
every sum of products, so no stage is refused (R61); the rounded stage then divides 2^24 times the input by 2^24, which leaves no
remainder, and each state stage writes the 0 that stands there.
-/
namespace Sys2Proof.Machine

/-! ### Words that agree with their tags -/

theorem residue3_cast (x : Int) : (residue3 x : Int) = x % 3 := by unfold residue3; omega

@[simp] theorem tag_v (x : Int) : (tag x).v = x := rfl

/-- A word that agrees with its tag is the word a store would write (R60). -/
theorem Tagged.eq_tag_of_ok {x : Tagged} (hx : x.ok = true) : x = tag x.v := by
  obtain ⟨v, t⟩ := x
  have ht : t.val = residue3 v := beq_iff_eq.1 hx
  have hr := residue3_cast v
  simp only [tag, Tagged.mk.injEq, true_and]
  exact Fin.ext (show t.val = residue3 v % 4 by omega)

/-- A stored word is read with the right residue: as an operand it is a plain one (R61). -/
theorem tag_acc (x : Int) : (tag x).acc = accOf x := by
  have hr := residue3_cast x
  have h4 : residue3 x % 4 = residue3 x := by omega
  have h3 : residue3 x % 3 = residue3 x := by omega
  have hb : (residue3 x == 3) = false := by simp; omega
  simp only [Tagged.acc, tag, accOf, h4, h3, hb]

theorem Tagged.acc_of_ok {x : Tagged} (hx : x.ok = true) : x.acc = accOf x.v := by
  calc x.acc = (tag x.v).acc := congrArg Tagged.acc (Tagged.eq_tag_of_ok hx)
    _ = accOf x.v := tag_acc x.v

/-! ### Sums of plain operands predict their residue (R61) -/

@[simp] theorem accOf_v (x : Int) : (accOf x).v = x := rfl

@[simp] theorem accOf_add (x y : Int) : (accOf x).add (accOf y) = accOf (x + y) := by
  have hx := residue3_cast x
  have hy := residue3_cast y
  have hxy := residue3_cast (x + y)
  have hp : (residue3 x + residue3 y) % 3 = residue3 (x + y) := by omega
  simp only [Acc.add, accOf, hp, Bool.or_self]

@[simp] theorem accOf_sub (x y : Int) : (accOf x).sub (accOf y) = accOf (x - y) := by
  have hx := residue3_cast x
  have hy := residue3_cast y
  have hxy := residue3_cast (x - y)
  have hp : (residue3 x + 3 - residue3 y % 3) % 3 = residue3 (x - y) := by omega
  simp only [Acc.sub, accOf, hp, Bool.or_self]

@[simp] theorem accOf_mul (x y : Int) : (accOf x).mul (accOf y) = accOf (x * y) := by
  have hp : (residue3 x * residue3 y) % 3 = residue3 (x * y) := by
    apply Int.ofNat_inj.1
    rw [Int.natCast_emod, Int.natCast_mul, residue3_cast, residue3_cast, residue3_cast]
    exact (Int.mul_emod x y 3).symm
  simp only [Acc.mul, accOf, hp, Bool.or_self]

@[simp] theorem accOf_ok (x : Int) : (accOf x).ok = true := by
  have hr := residue3_cast x
  have hp : residue3 x % 3 = residue3 x := by omega
  simp only [Acc.ok, accOf, hp, Bool.not_false, beq_self_eq_true, Bool.and_self]

/-! ### A stage whose result lies within its bounds -/

theorem clamps_eq_false {x lo hi : Int} (hl : lo ≤ x) (hh : x ≤ hi) : clamps x lo hi = false := by
  simp only [clamps, Bool.or_eq_false_iff, decide_eq_false_iff_not]
  omega

theorem clamp_eq_self {x lo hi : Int} (hl : lo ≤ x) (hh : x ≤ hi) : clamp x lo hi = x := by
  rw [clamp, if_neg (by omega), if_neg (by omega)]

/-- A multiple of the divisor rounds to its factor and leaves no remainder (R53). -/
theorem roundCarry_of_multiple {x lo hi : Int} (hl : lo ≤ x) (hh : x ≤ hi) : roundCarry (F24 * x) 0 F24 lo hi = ⟨x, 0, false⟩ := by
  have hy : roundTo (F24 * x + 0) F24 = x := by simp only [roundTo, F24]; omega
  have hr : F24 * x + 0 - x * F24 = 0 := by simp only [F24]; omega
  simp only [roundCarry, hy, hr, clamps_eq_false hl hh]
  rfl

theorem Cell.rounded_of_multiple {x lo hi : Int} (hl : lo ≤ x) (hh : x ≤ hi) (c : Cell) (s : Fin 16) (put : Cell → Tagged → Tagged → Cell) :
    c.rounded s (accOf (F24 * x)) (tag 0) lo hi put = put c (tag x) (tag 0) := by
  simp [Cell.rounded, roundStage, tag_acc, roundCarry_of_multiple hl hh]

theorem Cell.exact_of_within {x lo hi : Int} (hl : lo ≤ x) (hh : x ≤ hi) (c : Cell) (s : Fin 16) (put : Cell → Tagged → Cell) :
    c.exact s (accOf x) lo hi put = put c (tag x) := by
  simp [Cell.exact, exactStage, clamp_eq_self hl hh, clamps_eq_false hl hh]

/-! ### The three stages of a biquad with its reset coefficients (R87, R88) -/

section Biquad
variable {x : Tagged} (hx : x.ok = true) (c : Cell) (s : Fin 16)
include hx

/-- y takes x, and its remainder register keeps the 0 it holds. -/
theorem Cell.rounded_identity {b0 s1 rem : Tagged} (hb0 : b0 = tag 0x01000000) (hs1 : s1 = tag 0) (hr : rem = tag 0)
    {lo hi : Int} (hl : lo ≤ x.v) (hh : x.v ≤ hi) (put : Cell → Tagged → Tagged → Cell) :
    c.rounded s ((b0.acc.mul x.acc).add s1.acc) rem lo hi put = put c x rem := by
  have hacc : (b0.acc.mul x.acc).add s1.acc = accOf (F24 * x.v) := by
    simp [hb0, hs1, tag_acc, Tagged.acc_of_ok hx, F24]
  rw [hacc, hr, Cell.rounded_of_multiple hl hh, ← Tagged.eq_tag_of_ok hx]

/-- Two products with the coefficient 0, and their difference. -/
theorem zero_products {b a y : Tagged} (hb : b = tag 0) (ha : a = tag 0) (hy : y.ok = true) :
    (b.acc.mul x.acc).sub (a.acc.mul y.acc) = accOf 0 := by
  simp [hb, ha, tag_acc, Tagged.acc_of_ok hx, Tagged.acc_of_ok hy]

/-- The second state takes no part of x or y: it is written with the 0 it holds. -/
theorem Cell.exact_zero_products {b a y z : Tagged} (hb : b = tag 0) (ha : a = tag 0) (hy : y.ok = true) (hz : z = tag 0)
    (put : Cell → Tagged → Cell) : c.exact s ((b.acc.mul x.acc).sub (a.acc.mul y.acc)) s48Lo s48Hi put = put c z := by
  rw [zero_products hx hb ha hy, hz, Cell.exact_of_within (by decide) (by decide)]

/-- The first state takes the second alone: it too is written with the 0 it holds. -/
theorem Cell.exact_zero_products_add {b a y s2 z : Tagged} (hb : b = tag 0) (ha : a = tag 0) (hy : y.ok = true) (hs2 : s2 = tag 0)
    (hz : z = tag 0) (put : Cell → Tagged → Cell) :
    c.exact s (((b.acc.mul x.acc).sub (a.acc.mul y.acc)).add s2.acc) s48Lo s48Hi put = put c z := by
  have hacc : (accOf 0).add s2.acc = accOf 0 := by rw [hs2, tag_acc, accOf_add, Int.add_zero]
  rw [zero_products hx hb ha hy, hacc, hz, Cell.exact_of_within (by decide) (by decide)]

end Biquad

theorem Cell.bq1Stages_identity {c : Cell} (hx : c.pid.ok = true) (hl : v24Lo ≤ c.pid.v) (hh : c.pid.v ≤ v24Hi)
    (hr : c.remBq1 = tag 0) (hs1 : c.bq1s1 = tag 0) (hs2 : c.bq1s2 = tag 0) (hb0 : c.bank[5] = tag 0x01000000)
    (hb1 : c.bank[6] = tag 0) (hb2 : c.bank[7] = tag 0) (ha1 : c.bank[8] = tag 0) (ha2 : c.bank[9] = tag 0) :
    c.bq1Stages = { c with bq1 := c.pid } := by
  unfold Cell.bq1Stages
  dsimp only
  rw [Cell.rounded_identity hx _ _ hb0 hs1 hr hl hh, Cell.exact_zero_products_add hx _ _ hb1 ha1 hx hs2 hs1,
    Cell.exact_zero_products hx _ _ hb2 ha2 hx hs2]

theorem Cell.bq2Stages_identity {c : Cell} (hx : c.bq1.ok = true) (hl : v24Lo ≤ c.bq1.v) (hh : c.bq1.v ≤ v24Hi)
    (hr : c.remBq2 = tag 0) (hs1 : c.bq2s1 = tag 0) (hs2 : c.bq2s2 = tag 0) (hb0 : c.bank[10] = tag 0x01000000)
    (hb1 : c.bank[11] = tag 0) (hb2 : c.bank[12] = tag 0) (ha1 : c.bank[13] = tag 0) (ha2 : c.bank[14] = tag 0) :
    c.bq2Stages = { c with bq2 := c.bq1 } := by
  unfold Cell.bq2Stages
  dsimp only
  rw [Cell.rounded_identity hx _ _ hb0 hs1 hr hl hh, Cell.exact_zero_products_add hx _ _ hb1 ha1 hx hs2 hs1,
    Cell.exact_zero_products hx _ _ hb2 ha2 hx hs2]

/-! ### The reset words -/

theorem State.reset_cell (h : HalfId) (c : CtxId) : (State.reset.half h).cell[c] = Cell.boot := by
  cases h <;> exact Vector.getElem_replicate ..

/-- The biquad words of a bank after reset (R107). -/
theorem bankReset_biquads :
    bankReset[5] = tag 0x01000000 ∧ bankReset[6] = tag 0 ∧ bankReset[7] = tag 0 ∧ bankReset[8] = tag 0 ∧ bankReset[9] = tag 0 ∧
    bankReset[10] = tag 0x01000000 ∧ bankReset[11] = tag 0 ∧ bankReset[12] = tag 0 ∧ bankReset[13] = tag 0 ∧
    bankReset[14] = tag 0 := by decide

/-- Settles O28: both banks of every cell hold the reset words, and with them each biquad's three stages write x, 0 and 0. -/
theorem biquadIdentity : Obligations.BiquadIdentity := by
  refine ⟨fun h c v hv => ?_, fun c => Cell.bq1Stages_identity, fun c => Cell.bq2Stages_identity⟩
  have hv' : v = bankReset := by
    rw [State.reset_cell] at hv
    exact hv.elim id id
  exact hv' ▸ bankReset_biquads

end Sys2Proof.Machine
end

section
/-!
PROOF of O26 (R122): the short-pulse rule clips the deficit, and the width with the clipped deficit decides alone between a full, a
stretched and a skipped request. A constant-on-time start request then issues what the rule answers.
-/
namespace Sys2Proof.Machine

/-! ### The rule in two steps: the clip, then the three cases of the width (R122) -/

/-- The deficit clipped to 4 m on either side. -/
def clippedDeficit (d : Int) (m : Nat) : Int := if 4 * m < d then 4 * m else if d < -(4 * m) then -(4 * m) else d

/-- What the rule makes of an effective width w_eff; `clip` only passes through. -/
def shortOf (e : Int) (m : Nat) (clip : Option Int) : Short :=
  if e ≥ m then
    if e > 16777215 then ⟨16777215, e - 16777215, clip, false, false⟩ else ⟨e.toNat, 0, clip, false, false⟩
  else if 2 * e ≥ m then ⟨m, e - m, clip, true, false⟩
  else ⟨0, e, clip, false, true⟩

@[simp] theorem shortOf_clip (e : Int) (m : Nat) (clip : Option Int) : (shortOf e m clip).clip = clip := by
  unfold shortOf
  split
  · split <;> rfl
  · split <;> rfl

theorem shortRule_eq_shortOf (w : Nat) (d : Int) (m : Nat) :
    shortRule w d m = shortOf (w + clippedDeficit d m) m (if clippedDeficit d m = d then none else some (d - clippedDeficit d m)) := by
  unfold shortRule clippedDeficit
  by_cases hi : 4 * (m : Int) < d
  · simp only [gt_iff_lt, hi, if_true, if_neg (show ¬ 4 * (m : Int) = d by omega)]; rfl
  · by_cases lo : d < -(4 * (m : Int))
    · simp only [gt_iff_lt, hi, lo, if_true, if_false, if_neg (show ¬ -(4 * (m : Int)) = d by omega), Int.sub_neg]; rfl
    · simp only [gt_iff_lt, hi, lo, if_true, if_false]; rfl

theorem shortRule_clip_eq_none_iff {w : Nat} {d : Int} {m : Nat} : (shortRule w d m).clip = none ↔ clippedDeficit d m = d := by
  rw [shortRule_eq_shortOf, shortOf_clip]
  by_cases h : clippedDeficit d m = d
  · rw [if_pos h]
    exact ⟨fun _ => h, fun _ => rfl⟩
  · rw [if_neg h]
    exact ⟨fun hs => absurd hs (Option.some_ne_none _), fun hd => absurd hd h⟩

section Cases
variable {w m : Nat} {d : Int}

/-- A full request carries what exceeds the widest pulse. -/
theorem shortRule_of_min_le (h : (m : Int) ≤ w + clippedDeficit d m) :
    (shortRule w d m).skipped = false ∧ (shortRule w d m).width = (min (w + clippedDeficit d m) 16777215).toNat ∧
      (shortRule w d m).deficit = max 0 (w + clippedDeficit d m - 16777215) := by
  rw [shortRule_eq_shortOf, shortOf, if_pos h]
  by_cases hw : w + clippedDeficit d m > 16777215
  · rw [if_pos hw, Int.min_eq_right (by omega), Int.max_eq_right (by omega)]
    exact ⟨rfl, rfl, rfl⟩
  · rw [if_neg hw, Int.min_eq_left (by omega), Int.max_eq_left (by omega)]
    exact ⟨rfl, rfl, rfl⟩

/-- A stretched request takes what it adds off the next pulse. -/
theorem shortRule_of_half_min_le (h : w + clippedDeficit d m < m) (h2 : (m : Int) ≤ 2 * (w + clippedDeficit d m)) :
    (shortRule w d m).skipped = false ∧ (shortRule w d m).width = m ∧
      (shortRule w d m).deficit = w + clippedDeficit d m - m := by
  rw [shortRule_eq_shortOf, shortOf, if_neg (Int.not_le.2 h), if_pos h2]
  exact ⟨rfl, rfl, rfl⟩

/-- A skipped request carries all of its width. -/
theorem shortRule_of_lt_half_min (h : w + clippedDeficit d m < m) (h2 : 2 * (w + clippedDeficit d m) < m) :
    (shortRule w d m).skipped = true ∧ (shortRule w d m).deficit = w + clippedDeficit d m := by
  rw [shortRule_eq_shortOf, shortOf, if_neg (Int.not_le.2 h), if_neg (Int.not_le.2 h2)]
  exact ⟨rfl, rfl⟩

end Cases

/-! ### What a constant-on-time start request does with the rule's answer (R116, R118, R122) -/

section Start
variable (i : InnerIn) (c : CtxId) (base : Nat) (x : Half) (p : PhaseId)

/-- The instant S of the request, in edge steps (R118). -/
def startInstant : Nat := 32 * (presentAt base i.bound p + 2)

/-- The phase after the request's reload (R125). -/
def startReload : HPhase := { x.ph[p] with act := x.ph[p].pendAt p i.commits (presentAt base i.bound p) }

/-- The rule's answer to the request, with the minimum of the reloaded set (R121). -/
def startShort : Short :=
  shortRule x.ph[p].ton.v.toNat x.cell[c].deficit ((startReload i base x p).act.minimum (i.paired p))

/-- The falling edge that ends the rule's width (R118). -/
def startFall : Nat := startInstant i base p + (startShort i c base x p).width

/-- The end of the pulse after its falling edge (R118). -/
def startEnd : Nat := endOf (startReload i base x p).act (i.paired p) (startFall i c base x p)

/-- The pulse of the rule's width at S. -/
def startPulse : Pulse :=
  { start := startInstant i base p, min := (startReload i base x p).act.minimum (i.paired p),
    fall := some (startFall i c base x p), endAt := some (startEnd i c base x p), paired := i.paired p }

/-- The outcome of a request that leaves its phase as `y` and the edge stream as `edges`: in either case the cell takes the rule's
answer and the pointer moves to the phase (R116). -/
def startWith (y : HPhase) (edges : List EdgeWord) (started : List PhaseId) : InnerOut :=
  { half := { x.modCell c (fun k => { k.shortCounts (startShort i c base x p) with pointer := p }) with
                ph := x.ph.set p y, edges := edges },
    started := started, clip := (startShort i c base x p).clip }

variable {i c base x p}

section Outcome
variable (y : HPhase) (edges : List EdgeWord) (started : List PhaseId)

theorem startWith_cell : (startWith i c base x p y edges started).half.cell[c] =
    { x.cell[c].shortCounts (startShort i c base x p) with pointer := p } := Half.modCell_get ..

theorem startWith_ph : (startWith i c base x p y edges started).half.ph[p] = y := Vector.getElem_set_self p.isLt

theorem startWith_ph_ne {q : PhaseId} (hq : q ≠ p) : (startWith i c base x p y edges started).half.ph[q] = x.ph[q] :=
  Vector.getElem_set_ne p.isLt q.isLt (Fin.val_ne_of_ne hq.symm)

end Outcome

variable (hoff : i.offtime = false)
include hoff

/-- A skipped request starts no edges and counts as a pulse that ends at S. -/
theorem innerStart_of_skipped (h : (startShort i c base x p).skipped = true) : innerStart i c base x p =
    startWith i c base x p { startReload i base x p with lastEnd := startInstant i base p } x.edges [] :=
  (if_neg (Bool.eq_false_iff.1 hoff)).trans (if_pos h)

/-- Any other request starts a pulse of the rule's width, with its edges. -/
theorem innerStart_of_not_skipped (h : (startShort i c base x p).skipped = false) : innerStart i c base x p =
    startWith i c base x p { startReload i base x p with state := .on, pulse := some (startPulse i c base x p) }
      (x.edges ++ startEdges p (i.paired p) (startInstant i base p) (startReload i base x p).act.dtRise ++
        endEdges p (i.paired p) (startFall i c base x p) (startEnd i c base x p)) [p] :=
  (if_neg (Bool.eq_false_iff.1 hoff)).trans (if_neg (Bool.eq_false_iff.1 h))

theorem innerStart_eq_startWith : ∃ y edges started, innerStart i c base x p = startWith i c base x p y edges started := by
  cases h : (startShort i c base x p).skipped with
  | true => exact ⟨_, _, _, innerStart_of_skipped hoff h⟩
  | false => exact ⟨_, _, _, innerStart_of_not_skipped hoff h⟩

/-- What every request does: the pointer moves, the rule's deficit and clip are taken, and no other phase changes. -/
theorem innerStart_common : (innerStart i c base x p).half.cell[c].pointer = p ∧
    (innerStart i c base x p).half.cell[c].deficit = (startShort i c base x p).deficit ∧
    (innerStart i c base x p).clip = (startShort i c base x p).clip ∧
    ∀ q : PhaseId, q ≠ p → (innerStart i c base x p).half.ph[q] = x.ph[q] := by
  obtain ⟨y, edges, started, h⟩ := innerStart_eq_startWith hoff (c := c) (base := base) (x := x) (p := p)
  rw [h, startWith_cell]
  exact ⟨rfl, rfl, rfl, fun q => startWith_ph_ne y edges started⟩

theorem innerStart_pulse_of_not_skipped (h : (startShort i c base x p).skipped = false) :
    (innerStart i c base x p).half.ph[p].state = .on ∧
      (innerStart i c base x p).half.ph[p].pulse.map (fun q => (q.start, q.fall)) =
        some (startInstant i base p, some (startInstant i base p + (startShort i c base x p).width)) := by
  rw [innerStart_of_not_skipped hoff h, startWith_ph]
  exact ⟨rfl, rfl⟩

theorem innerStart_frame_of_skipped (h : (startShort i c base x p).skipped = true) :
    (innerStart i c base x p).half.ph[p].pulse = x.ph[p].pulse ∧ (innerStart i c base x p).half.ph[p].state = x.ph[p].state ∧
      (innerStart i c base x p).half.edges = x.edges ∧
      (innerStart i c base x p).half.ph[p].lastEnd = startInstant i base p := by
  rw [innerStart_of_skipped hoff h, startWith_ph]
  exact ⟨rfl, rfl, rfl, rfl⟩

end Start

/-- Settles O26: the three cases of the width with the clipped deficit, each through the rule's answer and what the request does with
it. -/
theorem shortPulseRule : Obligations.ShortPulseRule := by
  intro i c base x p hoff
  obtain ⟨hptr, hdef, hclip, hother⟩ := innerStart_common hoff (c := c) (base := base) (x := x) (p := p)
  refine ⟨hptr, fun he => ?full, fun he h2 => ?stretched, fun he h2 => ?skipped, ?clip, hother⟩
  case full =>
    obtain ⟨hs, hw, hd⟩ := shortRule_of_min_le he
    exact ⟨hdef.trans hd, hw ▸ innerStart_pulse_of_not_skipped hoff hs⟩
  case stretched =>
    obtain ⟨hs, hw, hd⟩ := shortRule_of_half_min_le he h2
    exact ⟨hdef.trans hd, hw ▸ innerStart_pulse_of_not_skipped hoff hs⟩
  case skipped =>
    obtain ⟨hs, hd⟩ := shortRule_of_lt_half_min he h2
    exact ⟨hdef.trans hd, innerStart_frame_of_skipped hoff hs⟩
  case clip => exact hclip ▸ shortRule_clip_eq_none_iff

end Sys2Proof.Machine
end

section
/-!
Field time as the interfaces read it (06_section_schedule.md, R178). A read of FT_NOW_HI answers everything above bit 31 of field
time that fits a word, so the read of bits 47 to 32 that R178 asks for rests on field time staying inside its 88 bits (R171).
-/
namespace Sys2Proof.Machine

/-- A word shows the low half of a number alone exactly where its own upper half is 0. -/
theorem word_eq_word_low_iff (n : Nat) : word n = word (n % 65536) ↔ n % 4294967296 < 65536 := by
  rw [← BitVec.toNat_inj, word, word, BitVec.toNat_ofNat, BitVec.toNat_ofNat]
  omega

section FieldTimeRead
variable {i : Iface} {s : State} (hc : s.carries i = true)
include hc

theorem exec_ftNowHi_of_carries : exec (.ftNowHi i) s = .next { s with
    ft := s.ft.latch i (some (word s.ftUs)), mb := { s.mb with lastRead := word (s.ftUs / 4294967296), lastAnswer := 0 } } :=
  congrArg Host.Outcome.next (if_pos (Bool.and_eq_true_iff.2 ⟨hc, rfl⟩))

/-- FT_NOW_HI answers bits 47 to 32 of field time alone (R178) exactly where the sixteen bits above them are 0. -/
theorem exec_ftNowHi_eq_low_iff : exec (.ftNowHi i) s = .next { s with
      ft := s.ft.latch i (some (word s.ftUs)), mb := { s.mb with lastRead := word (s.ftUs / 4294967296 % 65536), lastAnswer := 0 } } ↔
    s.ftUs / 4294967296 % 4294967296 < 65536 := by
  rw [exec_ftNowHi_of_carries hc, ← word_eq_word_low_iff]
  constructor
  · intro h
    exact congrArg (fun t : State => t.mb.lastRead) (Host.Outcome.next.inj h)
  · intro h
    rw [h]

/-- Within the 88 bits of field time (R171) the read is that of R178. -/
theorem exec_ftNowHi_of_ft_lt (h : s.ft.ft < 2 ^ 88) : exec (.ftNowHi i) s = .next { s with
    ft := s.ft.latch i (some (word s.ftUs)), mb := { s.mb with lastRead := word (s.ftUs / 4294967296 % 65536), lastAnswer := 0 } } := by
  refine (exec_ftNowHi_eq_low_iff hc).2 ?_
  rw [State.ftUs]
  omega

end FieldTimeRead

/-- A device in RUN that serves its interfaces, with field time at 2^88, the first value past its 88 bits (R171). -/
def fieldTimeOver : State := { State.reset with
  dev := { State.reset.dev with st := .run }
  sum := { State.reset.sum with armA := some .east, armB := some .east, armC := some .east
                                east := { eligible := true, supRunning := true } }
  ft := { ft := 2 ^ 88 } }

theorem fieldTimeOver_carries : fieldTimeOver.carries .m0 = true := by decide

/-- Refutes O36: its FT_NOW_HI clause speaks of every state that carries the read, with no bound on field time. In `fieldTimeOver` the
read through M0 answers 65536, bit 48 of field time, where the clause asks for 0. A field time of 2^88 is outside what R171 lets it
hold, and the tick itself counts modulo 2^88; below it the clause holds (`exec_ftNowHi_of_ft_lt`). -/
theorem not_fieldTimeReads : ¬ Obligations.FieldTimeReads := by
  unfold Obligations.FieldTimeReads
  rintro ⟨hreads, -⟩
  have hc := fieldTimeOver_carries
  have hlow := (exec_ftNowHi_eq_low_iff hc).1 (hreads .m0 fieldTimeOver hc).1
  have hover : ¬ fieldTimeOver.ftUs / 4294967296 % 4294967296 < 65536 := by decide
  exact hover hlow

end Sys2Proof.Machine
end

section
/-!
PROOF of O46 (R340): LEDGER_READ of account 128. Three parts: what serving the request at the head of the queue comes to; LOSS as the
difference R340 gives; and the read, whose answer is worked out on a state that differs from the present one in its queue alone.
-/
namespace Sys2Proof.Machine

/-! ### A request of the mailbox that is served -/

section Asks
variable {s : State} {cmd n : Nat} {r : Req} (h : s.Asks cmd n r)
include h

theorem State.Asks.exists_queue_eq : ∃ rest, s.mb.queue = r :: rest := List.head?_eq_some_iff.1 h.head

/-- A request with a known command holds the head of the queue: no turn goes before its own (R372). -/
theorem State.Asks.drain_queue (hk : cmd ∈ knownCommands) : s.drain s.mb.queue = s := by
  obtain ⟨rest, hq⟩ := h.exists_queue_eq
  rw [hq, State.drain]
  simp [h.serves, h.box, h.cmd, hk]

/-- The command that the request at the head of the queue names runs on the state without that request. -/
theorem State.Asks.serve_eq {boxes : Boxes} {narg : Nat → Bool} (body : Req → Slot64 → State → State)
    (hk : cmd ∈ knownCommands) (hb : boxes.allow r.box = true) (hn : narg n = true) :
    s.serve cmd boxes narg body = body r (s.mb.slot r) s.taken := by
  obtain ⟨rest, hq⟩ := h.exists_queue_eq
  have hw : ¬ (s.mb.slot r).written < n + 1 := Nat.not_lt.2 h.written
  rw [State.serve, h.drain_queue hk]
  simp [hq, h.serves, h.box, h.cmd, h.narg, h.jobs, hw, hb, hn, State.taken]

/-- No host-initiated write is being programmed while requests are taken, so an answer is the response itself (R332, R385). -/
theorem State.Asks.answer_eq (answer detail : Nat) (data : List Word) :
    s.taken.answer r answer detail data = s.taken.respond r answer detail data := by
  have hw : s.taken.nv.hostWrite = none := Option.isNone_iff_eq_none.1 (Bool.and_eq_true_iff.1 h.serves).2
  rw [State.answer, hw]

end Asks

/-! ### LOSS and its read -/

theorem foldl_sub_eq_sub_sum {α : Type} (f : α → Int) (l : List α) (v : Int) :
    l.foldl (fun v x => v - f x) v = v - (l.map f).sum := by
  induction l generalizing v with
  | nil => simp
  | cons x l ih => simp [ih, Int.sub_sub]

/-- LOSS in the words of R340: the accounts 2c + 1 of the contexts other than context 0, taken together, off account 1. -/
theorem State.loss_eq_sub_sum (s : State) :
    s.loss = s.live 1 - ((List.finRange 63).map (fun k => s.live ⟨2 * (k.val + 1) + 1, by omega⟩)).sum := by
  rw [State.loss, ctxIds, List.finRange_succ, List.foldl_cons, List.foldl_map]
  exact foldl_sub_eq_sub_sum (fun k : Fin 63 => s.live ⟨2 * (k.val + 1) + 1, by omega⟩) _ _

theorem State.accountWords_loss (s : State) :
    s.accountWords 128 = [BitVec.ofInt 32 (s.loss / 4294967296), BitVec.ofInt 32 s.loss] := rfl

/-- Account 128 has no mark (R378). -/
theorem State.markBit_loss (s : State) : s.markBit 128 = false := rfl

/-- The compatibility view hides context 0 alone, so LOSS is read through it too (R481). -/
theorem State.hidesAccount_loss (s : State) (i : Iface) : s.hidesAccount i 128 = false := by
  simp [State.hidesAccount]

@[simp] theorem State.taken_loss (s : State) : s.taken.loss = s.loss := rfl

/-- A read of account 128 alone answers LOSS and an empty mark word, and only takes its request (R340, R378). -/
theorem State.Asks.exec_ledgerRead_loss {s : State} {r : Req} (h : s.Asks 0x30 2 r) (hfirst : (s.mb.slot r).arg 1 = 128)
    (hcount : (s.mb.slot r).arg 2 = 1) :
    exec .ledgerRead s = .next (s.taken.respond r 0 0 [BitVec.ofInt 32 (s.loss / 4294967296), BitVec.ofInt 32 s.loss, 0]) := by
  change execLedgerRead s = _
  rw [execLedgerRead, h.serve_eq _ (by decide) rfl rfl]
  simp [hfirst, hcount, State.hidesAccount_loss, State.markBit_loss, State.accountWords_loss, h.answer_eq, flag, word]

/-- Settles O46: the read answers with the LOSS of the state as it stands, and beyond its answer nothing of that state changes. -/
theorem lossAccount : Obligations.LossAccount := by
  unfold Obligations.LossAccount
  intro s r h hfirst hcount v
  have hv : s.loss = v := s.loss_eq_sub_sum
  have hread := h.exec_ledgerRead_loss hfirst hcount
  rw [hv] at hread
  exact ⟨_, hread, rfl, rfl, rfl, rfl, rfl, rfl⟩

end Sys2Proof.Machine
end
